-- ==== Sys2Proof/Word.lean ====
section
/-! DEFINITION. The widths the manual gives to what the link, the card and software see as bits: bytes, words,
link times, pixel samples, node numbers. -/

namespace Sys2Proof

/-- One byte of a frame body, a card block or a record (chapter 12). -/
abbrev Byte := BitVec 8

/-- A 16-bit word: sums (R191), roll frame numbers (R193). -/
abbrev Word16 := BitVec 16

/-- A 32-bit word: serials (R21), card block numbers (R148), setting values (R195). -/
abbrev Word32 := BitVec 32

/-- A link time: a 64-bit count of microseconds (R38). -/
abbrev Time := BitVec 64

/-- A shot number: a 32-bit value; 0 means "no shot" (00_scope.md, Conventions). -/
abbrev Shot := BitVec 32

/-- A pixel sample: a 14-bit value (00_scope.md, Conventions; R111). -/
abbrev Sample := BitVec 14

/-- A node number as it stands in a frame's source field: 3 bits (R193). Stations are 0-5, the panel processor 7. -/
abbrev Node := BitVec 3

/-- The panel processor's node number (00_scope.md, Conventions). -/
def panelNode : Node := 7#3

/-- The last shot number; a trigger for it is refused Exhausted (R59). -/
def lastShot : Shot := 0xFFFFFFFF#32

end Sys2Proof
end

