-- ==== Sys2Proof/Syntax.lean ====
section
/-! DEFINITION. The names the manual gives to values carried by frames, requests and events; the frames themselves; and
`Instr`, the commands of the block: one constructor for each row of spec/opcode_table.json. -/

namespace Sys2Proof

/-! ## Values named in frames, requests and events -/

/-- The two send queues (R12). -/
inductive Queue
  | urgent | control
  deriving DecidableEq, Repr

/-- A level of the sync pin (R50). -/
inductive Level
  | low | high
  deriving DecidableEq, Repr

/-- The card sockets (00_scope.md, Conventions; R193). -/
inductive Socket
  | a | b
  deriving DecidableEq, Repr

/-- Why a shot is refused (R59, codes in R193). -/
inductive RefuseReason
  | ringFull | blocked | sensorBusy | notArmed | exhausted
  deriving DecidableEq, Repr

/-- What a Refuse asks of the back (R59, R67). -/
inductive Policy
  | drop | halt
  deriving DecidableEq, Repr

/-- Which readout a ReadDone reports (R68). -/
inductive ReadKind
  | regular | dark
  deriving DecidableEq, Repr

/-- Why a reservation is refused (R144). -/
inductive PlaceReason
  | full | indexFull | noCard | mounting | ejecting
  deriving DecidableEq, Repr

/-- What a Place frame reports (R144). -/
inductive PlaceOutcome
  | reserved (frameNo : Word16) (firstBlock : Word32)
  | refused (reason : PlaceReason)
  deriving DecidableEq, Repr

/-- Why a placement is lost (R142, R143, R149, R165). -/
inductive UnplaceReason
  | removed | cardFailed | sumFailure | discarded
  deriving DecidableEq, Repr

/-- Why a tile is sent again (R165, R171). -/
inductive RedoReason
  | segmentSum | tileSum | restarted
  deriving DecidableEq, Repr

/-- How the own edge lies to the agreed open (R60). -/
inductive SyncOutcome
  | equal | earlier | later | unobserved
  deriving DecidableEq, Repr

/-- The cause a Wake frame carries (R186). -/
inductive WakeFrameCause
  | panel | sync | card
  deriving DecidableEq, Repr

/-- The cause of a wake from Sleep (R187). -/
inductive WakeCause
  | frame | sync | card
  deriving DecidableEq, Repr

/-- An edge of a tile, in the order edges are always taken (R114). -/
inductive Direction
  | up | down | left | right
  deriving DecidableEq, Repr

/-- The eight card states (R134). -/
inductive CardState
  | empty | mounting | unformatted | ready | formatting | ejecting | released | failed
  deriving DecidableEq, Repr

/-- The outcome flags of a tile (R76, bit order in R193). -/
structure OutcomeFlags where
  clipped : Bool := false
  floored : Bool := false
  noDark : Bool := false
  skewed : Bool := false
  seamMissing : Bool := false
  defectOverflow : Bool := false
  limitReached : Bool := false
  deriving DecidableEq, Repr

/-- The three connections a station may be strapped for (R21; the strap flags of a Roll, R193). -/
structure Fitted where
  card : Bool
  release : Bool
  sync : Bool
  deriving DecidableEq, Repr

/-- The strap pins (R21). -/
structure Straps where
  number : Node
  fitted : Fitted
  deriving DecidableEq, Repr

/-- The close fields of the last Segment of a tile (R157, R164). The skew is two's complement (R193). -/
structure CloseFields where
  tileSum : Word16
  flags : OutcomeFlags
  outcome : SyncOutcome
  skew : Word32
  deriving DecidableEq, Repr

/-- A Segment body (R194). Its length field is the length of its payload: a body where the two differ is malformed. -/
structure SegmentBody where
  shot : Shot
  tile : Byte
  offset : Word32
  sum : Word16
  openFlag : Bool
  close : Option CloseFields
  payload : List Byte
  deriving DecidableEq, Repr

/-- The results of an Answer (R174). -/
inductive Result
  | done | data | refused
  deriving DecidableEq, Repr

/-- The reasons of a Refused Answer, in the order of their codes (R174, R195). -/
inductive Reason
  | badState | badValue | locked | busy | notFound | noCard | noData | notMember | excluded | duplicate | full
  deriving DecidableEq, Repr

/-- The data a notice condition carries, one constructor for each class in class order (R177, R195). -/
inductive NoticeData
  | shotOpened (shot : Shot) (agreedOpen ownEnd : Time) (limit : Bool) (bounces : Byte)
  | shotDropped (shot : Shot) (reason : RefuseReason) (policy : Policy)
  | tileDeveloped (shot : Shot) (flags : OutcomeFlags) (tileSum : Word16)
  | tileHeld (shot : Shot) (flags : OutcomeFlags) (tileSum : Word16)
  | shotCommitted (shot : Shot) (socket : Option Socket) (frameNo : Word16) (fileSum : Word16)
  | cardState (socket : Option Socket) (state : CardState) (identity : Word32) (index : Word16) (write : Word32)
  | cardFull (shot : Shot) (socket : Option Socket) (reason : PlaceReason)
  | stranger (station : Byte) (serial : Word32) (fitted : Fitted)
  | quietTimeout (shot : Shot) (remaining : List Node)
  | woke (cause : WakeCause) (time : Time)
  | halted (shot : Shot) (reason : RefuseReason)
  deriving DecidableEq, Repr

/-! ## Frames -/

/-- The body of a frame by its kind (R2, fields of R193-R195). Fields that a receiver must see even when they hold no
listed code (the socket and count of a Claim, those of a Grant, request codes and arguments) are kept as bytes. -/
inductive Msg
  | roll (station : Byte) (serial : Word32) (fitted : Fitted) (next : Shot) (rejoin : Bool)
  | mark (time : Time)
  | openShot (shot : Shot) (time : Time)
  | closeShot (shot : Shot) (time : Time) (limit : Bool)
  | refuse (shot : Shot) (reason : RefuseReason) (policy : Policy)
  | readDone (shot : Shot) (kind : ReadKind) (darkFollows : Bool)
  | place (shot : Shot) (socket : Socket) (outcome : PlaceOutcome)
  | unplace (shot : Shot) (socket : Socket) (reason : UnplaceReason)
  | claim (socket : Byte) (shot : Shot) (count : Byte)
  | grant (claimant : Byte) (socket : Byte) (shot : Shot) (count : Byte) (notPlaced : Bool)
  | redo (shot : Shot) (tile : Byte) (socket : Socket) (reason : RedoReason)
  | commit (shot : Shot) (socket : Socket) (frameNo : Word16) (fileSum : Word16)
  | request (tag code : Byte) (args : List Byte)
  | answer (tag code : Byte) (result : Result) (reason : Option Reason) (data : List Byte)
  | notice (level count : Byte) (data : NoticeData)
  | restart (reconfigure : Bool)
  | wake (mask : Byte) (cause : WakeFrameCause)
  | seam (shot : Shot) (dir : Direction) (band : List Word16)
  | segment (body : SegmentBody)
  deriving DecidableEq, Repr

/-- A frame a block gives the Link Interface to send: its destination and its body. The class is the kind's (R2), the
source the station's own number, and length and sum are filled in at the offer (R1). -/
structure Frame where
  dst : BitVec 4
  msg : Msg
  deriving DecidableEq, Repr

/-- A frame as it is heard on the link (R1, R193). `len` is the body length field, `body` the bytes carried, and `sum` the
frame sum field, absent when the frame ended before its sum was complete (R7). -/
structure WireFrame where
  cls : BitVec 2
  src : Node
  dst : BitVec 4
  kind : Byte
  len : BitVec 24
  body : List Byte
  sum : Option Word16
  deriving DecidableEq, Repr

/-- Addressed memory as plain data: (address, byte) pairs, addresses strictly rising, and no entry that holds what an
unlisted address reads as. -/
abbrev Memory := List (Nat × BitVec 8)

/-- A memory card as the card interface presents it: its capacity in blocks of 512 bytes (R192) and its bytes. -/
structure Medium where
  capacity : Nat
  bytes : Memory
  deriving DecidableEq, Repr

/-- What every Request carries beside its code and arguments: its tag, and whether it was addressed to all nodes (R172). -/
structure ReqHeader where
  tag : Byte
  toAll : Bool
  deriving DecidableEq, Repr

/-! ## Commands -/

/-- The commands of the block, one constructor for each row of spec/opcode_table.json, in the table's order. A row that
takes a frame carries the frame's source and the fields of its kind; `frameStart` is the frame-start time handed over with
the frame (R38). -/
inductive Instr
  | start (straps : Straps) (serial : Word32) (linkBusy : Bool)
  | linkFreeOffer (rival : Option WireFrame)
  | frameEnd (heard : WireFrame) (otherSpoils : Bool)
  | heldFrameAdmit (queue : Queue)
  | noticeAdmit
  | rollTaken (source : Node) (station : Byte) (serial : Word32) (fitted : Fitted) (next : Shot) (rejoin : Bool)
  | rollWaitExpiry
  | rollWindowExpiry
  | restartTaken (toAll reconfigure : Bool)
  | markTaken (source : Node) (time frameStart : Time)
  | markTimerExpiry
  | releaseAlarmFire
  | releasePulseEnd
  | syncClosingEdge
  | syncOpeningEdge
  | syncWake
  | openTaken (source : Node) (shot : Shot) (time : Time)
  | closeTaken (source : Node) (shot : Shot) (time : Time) (limit : Bool)
  | refuseTaken (source : Node) (shot : Shot) (reason : RefuseReason) (policy : Policy)
  | readDoneTaken (source : Node) (shot : Shot) (kind : ReadKind) (darkFollows : Bool)
  | attributionExpiry
  | pulseTimerExpiry
  | exposureLimitExpiry
  | quietTimerExpiry
  | readoutComplete (samples : List Sample)
  | darkTimerExpiry
  | darkReadoutComplete (samples : List Sample)
  | hotInsertion
  | darkScanComplete
  | placeTaken (source : Node) (shot : Shot) (socket : Socket) (outcome : PlaceOutcome)
  | unplaceTaken (source : Node) (shot : Shot) (socket : Socket) (reason : UnplaceReason)
  | commitTaken (source : Node) (shot : Shot) (socket : Socket) (frameNo fileSum : Word16)
  | phaseBaseComplete
  | phaseInteriorComplete
  | seamTimerExpiry
  | edgeRepairsComplete
  | phaseGainComplete
  | phaseFinishComplete
  | seamTaken (source : Node) (shot : Shot) (dir : Direction) (band : List Word16)
  | claimTaken (source : Node) (socket : Byte) (shot : Shot) (count : Byte)
  | grantTaken (source : Node) (claimant : Byte) (socket : Byte) (shot : Shot) (count : Byte) (notPlaced : Bool)
  | segmentTaken (source : Node) (body : SegmentBody)
  | redoTaken (source : Node) (shot : Shot) (tile : Byte) (socket : Socket) (reason : RedoReason)
  | cardBlockWriteComplete
  | headerWriteComplete
  | indexWriteComplete
  | voidWriteComplete
  | cardWriteError
  | cardInserted (card : Medium)
  | mountReadComplete
  | mountReadError
  | cardRemoved
  | formatComplete
  | wakeTaken (source : Node) (mask : Byte) (cause : WakeFrameCause)
  | sleepEntry
  | setItem (header : ReqHeader) (item : Byte) (value : Word32)
  | beginConf (header : ReqHeader)
  | arm (header : ReqHeader)
  | disarm (header : ReqHeader)
  | resume (header : ReqHeader)
  | release (header : ReqHeader) (time : Time)
  | exposure (header : ReqHeader) (shutter : Word32)
  | takeDark (header : ReqHeader) (duration : Word32)
  | keep (header : ReqHeader) (shot : Shot)
  | discard (header : ReqHeader) (shot : Shot)
  | forgetHot (header : ReqHeader)
  | histogram (header : ReqHeader) (shot : Shot)
  | format (header : ReqHeader) (socket : Byte)
  | eject (header : ReqHeader) (socket : Byte)
  | status (header : ReqHeader)
  | dumpWake (header : ReqHeader)
  | sleep (header : ReqHeader)
  | requestUnknownCode (header : ReqHeader) (code : Byte)
  | tapEdge
  | syncSample (level : Level)
  | frameStart
  deriving DecidableEq, Repr

end Sys2Proof
end

