-- ==== Sys2Proof/Config.lean ====
section
/-! DEFINITION. The fixed numbers of 00_scope.md ("Fixed numbers") and the free values: constants without a body, which
no proof can evaluate, for values the manual does not state. -/

namespace Sys2Proof.Config

/-- R12: the urgent queue holds up to 8 frames. -/
def urgentCapacity : Nat := 8

/-- R12: the control queue holds up to 32 frames. -/
def controlCapacity : Nat := 32

/-- R14: a Notice is admitted only while the control queue's occupancy is below 24. -/
def noticeLimit : Nat := 24

/-- R9: a frame is discarded at its 16th spoil. -/
def spoilLimit : Nat := 16

/-- R1, R7: the greatest body length. -/
def maxBodyLength : Nat := 65600

/-- R18: the link counters stop here. -/
def linkCounterLimit : Nat := 4294967295

/-- R25: the roll window in milli edges. -/
def rollWindow : Nat := 150

/-- R41: the mark interval in milli edges. -/
def markInterval : Nat := 100

/-- R52: the attribution window in fine edges. -/
def attributionWindow : Nat := 200

/-- R49: the release pulse in fine edges. -/
def pulseEdges : Nat := 2000

/-- R71: how far ahead a release may be asked for, in microseconds. -/
def releaseAhead : Nat := 60000000

/-- R51: the bounce count stays here. -/
def bounceLimit : Nat := 255

/-- R108, R111: the hot-overflow, late and overrun counts stay here. -/
def count16Limit : Nat := 65535

/-- R177: the count of a notice record stays here. -/
def noticeCountLimit : Nat := 255

/-- R107: the Defect Table's capacity. -/
def defectCapacity : Nat := 1024

/-- R127: the seam store's capacity in bands. -/
def seamStoreCapacity : Nat := 8

/-- R159: the segment buffers of a card station. -/
def bufferCount : Nat := 32

/-- R136: index positions of a roll. -/
def indexCapacity : Nat := 1024

/-- R136: the first data block. -/
def firstDataBlock : Nat := 65

/-- R192: bytes of a card block. -/
def blockBytes : Nat := 512

/-- R99: the longest dark capture in microseconds. -/
def darkCap : Nat := 3600000000

/-- R165: redos of one tile in one placement. -/
def redoLimit : Nat := 3

/-- What a byte of a card that no entry lists reads as. DESIGN CHOICE (log 11): the list of a card that is inserted may
give any byte any other value, so the choice fixes no card's contents. -/
def blankByte : BitVec 8 := 0#8

/-- FREE VALUE (log 15). R196 holds the agreed duration of a card record at FFFFFFFFh when it is larger, and states no
field value for an agreed duration below 0, which R62 can give (agreed close before agreed open). -/
opaque negativeDurationField : Int → Word32

/-- FREE VALUE (log 16). R111 says every working value lies between 0 and 16383, and R119 uses a band's 16-bit samples as
they are; where such a sample lifts a mean above 16383 the manual states no pixel value. -/
opaque wideRepair : Nat → Sample

end Sys2Proof.Config
end

