-- ==== Sys2Proof/WellFormed.lean ====
section
/-! DEFINITION. Which commands are well formed: what the outside world can send. A command outside these checks names an
event that the manual rules out (a frame from node 6 is malformed and never taken, R11; a serial is nonzero, R21). -/

namespace Sys2Proof

/-- The addresses of a memory list rise strictly from `low` on, and no entry holds the blank byte. -/
def Memory.wfFrom (low : Nat) : Memory → Bool
  | [] => true
  | (a, v) :: rest => decide (low ≤ a) && (v != Config.blankByte) && Memory.wfFrom (a + 1) rest

/-- The canonical form of addressed memory: equal contents are equal lists. -/
def Memory.wf (m : Memory) : Bool := Memory.wfFrom 0 m

/-- A card's bytes are in canonical form and lie inside its capacity (R192). -/
def Medium.wf (m : Medium) : Bool := m.bytes.wf && m.bytes.all fun c => c.1 < m.capacity * Config.blockBytes

/-- A frame that another node offers at a free link is complete: its body has the length it names and it carries a sum. -/
def WireFrame.complete (f : WireFrame) : Bool := (f.body.length == f.len.toNat) && f.sum.isSome

/-- The request codes of the table of 10.1. -/
def requestCodes : List Byte :=
  [0x01#8, 0x02#8, 0x10#8, 0x11#8, 0x12#8, 0x13#8, 0x14#8, 0x15#8,
   0x20#8, 0x21#8, 0x22#8, 0x23#8, 0x24#8, 0x25#8, 0x30#8, 0x31#8, 0x32#8]

/-- A source whose frames can be taken: any node but 6 (R11). -/
def validSource (n : Node) : Bool := n != 6#3

/-- A Seam's band holds 4 rows or columns of an edge of 1024-8192 pixels, a multiple of 16 (R193, R194). -/
def bandLengthOk (n : Nat) : Bool := n % 64 == 0 && decide (4096 ≤ n) && decide (n ≤ 32768)

/-- A Segment's payload length (R194). -/
def payloadLengthOk (n : Nat) : Bool := decide (1 ≤ n) && decide (n ≤ 65536)

/-- The well-formed commands. -/
def Instr.wf : Instr → Bool
  | .start _ serial _ => serial != 0#32
  | .linkFreeOffer rival => rival.all WireFrame.complete
  | .rollTaken source .. => validSource source
  | .markTaken source .. => validSource source
  | .openTaken source .. => validSource source
  | .closeTaken source .. => validSource source
  | .refuseTaken source .. => validSource source
  | .readDoneTaken source .. => validSource source
  | .placeTaken source .. => validSource source
  | .unplaceTaken source .. => validSource source
  | .commitTaken source .. => validSource source
  | .seamTaken source _ _ band => validSource source && bandLengthOk band.length
  | .claimTaken source .. => validSource source
  | .grantTaken source .. => validSource source
  | .segmentTaken source body => validSource source && payloadLengthOk body.payload.length
  | .redoTaken source .. => validSource source
  | .wakeTaken source .. => validSource source
  | .cardInserted card => card.wf
  | .requestUnknownCode _ code => !requestCodes.contains code
  | .frameEnd .. | .heldFrameAdmit _ | .noticeAdmit | .rollWaitExpiry | .rollWindowExpiry | .restartTaken ..
  | .markTimerExpiry | .releaseAlarmFire | .releasePulseEnd | .syncClosingEdge | .syncOpeningEdge | .syncWake
  | .attributionExpiry | .pulseTimerExpiry | .exposureLimitExpiry | .quietTimerExpiry | .readoutComplete _
  | .darkTimerExpiry | .darkReadoutComplete _ | .hotInsertion | .darkScanComplete | .phaseBaseComplete
  | .phaseInteriorComplete | .seamTimerExpiry | .edgeRepairsComplete | .phaseGainComplete | .phaseFinishComplete
  | .cardBlockWriteComplete | .headerWriteComplete | .indexWriteComplete | .voidWriteComplete | .cardWriteError
  | .mountReadComplete | .mountReadError | .cardRemoved | .formatComplete | .sleepEntry | .setItem .. | .beginConf _
  | .arm _ | .disarm _ | .resume _ | .release .. | .exposure .. | .takeDark .. | .keep .. | .discard ..
  | .forgetHot _ | .histogram .. | .format .. | .eject .. | .status _ | .dumpWake _ | .sleep _ | .tapEdge
  | .syncSample _ | .frameStart => true

end Sys2Proof
end

