-- ==== Sys2Proof/Machine/Formats.lean ====
section
/-! DEFINITION. The formats of chapter 12: sums, big-endian fields, frame bodies and the frame itself, the roll's label,
index entries and shot header, and the wake record. -/

namespace Sys2Proof

/-! ## Numbers and sums -/

/-- A number as `n` bytes, most significant first (R190). -/
def beBytes : Nat → Nat → List Byte
  | 0, _ => []
  | n + 1, v => BitVec.ofNat 8 (v / 256 ^ n) :: beBytes n v

/-- The number that big-endian bytes spell (R190). -/
def fromBE (bytes : List Byte) : Nat := bytes.foldl (fun acc b => acc * 256 + b.toNat) 0

/-- The `n` bytes of a body from offset `off` on, read as a number. -/
def field (body : List Byte) (off n : Nat) : Nat := fromBE ((body.drop off).take n)

/-- Ones'-complement addition with end-around carry (R191). -/
def onesAdd (a b : Word16) : Word16 :=
  if a.toNat + b.toNat < 65536 then BitVec.ofNat 16 (a.toNat + b.toNat)
  else BitVec.ofNat 16 (a.toNat + b.toNat - 65535)

/-- The ones'-complement sum of bytes taken as big-endian words; a last odd byte is the high byte of a word whose low byte
is 00h (R191, R1). -/
def sumBytes : List Byte → Word16
  | [] => 0#16
  | [a] => a ++ 0#8
  | a :: b :: rest => onesAdd (a ++ b) (sumBytes rest)

/-- A computed sum of 0000h is recorded as FFFFh (R191). -/
def recorded (w : Word16) : Word16 := if w = 0#16 then 0xFFFF#16 else w

/-- A number held at the nearest end of the signed 32-bit range (R193). -/
def clampSkew (k : Int) : Word32 :=
  if k < -2147483648 then 0x80000000#32
  else if k > 2147483647 then 0x7FFFFFFF#32
  else BitVec.ofInt 32 k

/-- The agreed duration field of a card record: held at FFFFFFFFh when larger (R196); a negative duration is a free value
(log 15). -/
def durationField (d : Int) : Word32 :=
  if d < 0 then Config.negativeDurationField d
  else if d > 4294967295 then 0xFFFFFFFF#32
  else BitVec.ofInt 32 d

/-! ## Codes -/

/-- A flag is 00h when clear and 01h when set (R193). -/
def flagByte (b : Bool) : Byte := if b then 1#8 else 0#8

/-- A flag byte read; another value is no code (log 24). -/
def flagOf? (b : Byte) : Option Bool := if b = 0#8 then some false else if b = 1#8 then some true else none

def socketCode : Socket → Byte
  | .a => 1#8
  | .b => 2#8

def optSocketCode : Option Socket → Byte
  | none => 0#8
  | some k => socketCode k

/-- The socket that a code names in a frame that speaks of one socket. 00h, none, names no socket, and is disregarded like a code
that is not listed (log 48). -/
def socketOf? (b : Byte) : Option Socket := if b = 1#8 then some .a else if b = 2#8 then some .b else none

def refuseReasonCode : RefuseReason → Byte
  | .ringFull => 1#8
  | .blocked => 2#8
  | .sensorBusy => 3#8
  | .notArmed => 4#8
  | .exhausted => 5#8

def refuseReasonOf? (b : Byte) : Option RefuseReason :=
  if b = 1#8 then some .ringFull else if b = 2#8 then some .blocked else if b = 3#8 then some .sensorBusy
  else if b = 4#8 then some .notArmed else if b = 5#8 then some .exhausted else none

def policyCode : Policy → Byte
  | .drop => 0#8
  | .halt => 1#8

def policyOf? (b : Byte) : Option Policy := if b = 0#8 then some .drop else if b = 1#8 then some .halt else none

def readKindCode : ReadKind → Byte
  | .regular => 0#8
  | .dark => 1#8

def readKindOf? (b : Byte) : Option ReadKind := if b = 0#8 then some .regular else if b = 1#8 then some .dark else none

def placeReasonCode : PlaceReason → Byte
  | .full => 1#8
  | .indexFull => 2#8
  | .noCard => 3#8
  | .mounting => 4#8
  | .ejecting => 5#8

def placeReasonOf? (b : Byte) : Option PlaceReason :=
  if b = 1#8 then some .full else if b = 2#8 then some .indexFull else if b = 3#8 then some .noCard
  else if b = 4#8 then some .mounting else if b = 5#8 then some .ejecting else none

def unplaceReasonCode : UnplaceReason → Byte
  | .removed => 1#8
  | .cardFailed => 2#8
  | .sumFailure => 3#8
  | .discarded => 4#8

def unplaceReasonOf? (b : Byte) : Option UnplaceReason :=
  if b = 1#8 then some .removed else if b = 2#8 then some .cardFailed else if b = 3#8 then some .sumFailure
  else if b = 4#8 then some .discarded else none

def redoReasonCode : RedoReason → Byte
  | .segmentSum => 1#8
  | .tileSum => 2#8
  | .restarted => 3#8

def redoReasonOf? (b : Byte) : Option RedoReason :=
  if b = 1#8 then some .segmentSum else if b = 2#8 then some .tileSum else if b = 3#8 then some .restarted else none

def syncOutcomeCode : SyncOutcome → Byte
  | .equal => 0#8
  | .earlier => 1#8
  | .later => 2#8
  | .unobserved => 3#8

def syncOutcomeOf? (b : Byte) : Option SyncOutcome :=
  if b = 0#8 then some .equal else if b = 1#8 then some .earlier else if b = 2#8 then some .later
  else if b = 3#8 then some .unobserved else none

/-- The cause in a Wake frame (R193). -/
def wakeFrameCauseCode : WakeFrameCause → Byte
  | .panel => 0#8
  | .sync => 1#8
  | .card => 2#8

def wakeFrameCauseOf? (b : Byte) : Option WakeFrameCause :=
  if b = 0#8 then some .panel else if b = 1#8 then some .sync else if b = 2#8 then some .card else none

/-- The cause in the wake record and the Woke notice (R195, R197). -/
def wakeCauseCode : WakeCause → Byte
  | .frame => 0#8
  | .sync => 1#8
  | .card => 2#8

def directionCode : Direction → Byte
  | .up => 0#8
  | .down => 1#8
  | .left => 2#8
  | .right => 3#8

def directionOf? (b : Byte) : Option Direction :=
  if b = 0#8 then some .up else if b = 1#8 then some .down else if b = 2#8 then some .left
  else if b = 3#8 then some .right else none

/-- Card state codes of the Status report and the CardState notice (R195). -/
def cardStateCode : CardState → Byte
  | .empty => 0#8
  | .mounting => 1#8
  | .unformatted => 2#8
  | .ready => 3#8
  | .formatting => 4#8
  | .ejecting => 5#8
  | .released => 6#8
  | .failed => 7#8

def resultCode : Result → Byte
  | .done => 0#8
  | .data => 1#8
  | .refused => 2#8

def reasonCode : Reason → Byte
  | .badState => 1#8
  | .badValue => 2#8
  | .locked => 3#8
  | .busy => 4#8
  | .notFound => 5#8
  | .noCard => 6#8
  | .noData => 7#8
  | .notMember => 8#8
  | .excluded => 9#8
  | .duplicate => 10#8
  | .full => 11#8

/-- The strap flags of a Roll: bit 0 card socket, bit 1 release output, bit 2 sync wired (R193). -/
def fittedByte (f : Fitted) : Byte :=
  BitVec.ofNat 8 (f.card.toNat + 2 * f.release.toNat + 4 * f.sync.toNat)

/-- The strap flags read; the bits that the layout does not define are ignored (log 50). -/
def fittedOf (b : Byte) : Fitted := { card := b.getLsbD 0, release := b.getLsbD 1, sync := b.getLsbD 2 }

/-- The outcome-flags byte, with the unmirrored flag as bit 7 where the field names it (R193). -/
def flagsByte (f : OutcomeFlags) (unmirrored : Bool) : Byte :=
  BitVec.ofNat 8 (f.clipped.toNat + 2 * f.floored.toNat + 4 * f.noDark.toNat + 8 * f.skewed.toNat
    + 16 * f.seamMissing.toNat + 32 * f.defectOverflow.toNat + 64 * f.limitReached.toNat + 128 * unmirrored.toNat)

/-- The outcome flags read; a bit 7 where the field does not name it is ignored (log 50). -/
def flagsOf (b : Byte) : OutcomeFlags :=
  { clipped := b.getLsbD 0, floored := b.getLsbD 1, noDark := b.getLsbD 2, skewed := b.getLsbD 3,
    seamMissing := b.getLsbD 4, defectOverflow := b.getLsbD 5, limitReached := b.getLsbD 6 }

/-- Bit s of a station mask names station s (R193, R195). -/
def maskOf (nodes : List Node) : Byte :=
  nodes.foldl (fun m n => m ||| (1#8 <<< n.toNat)) 0#8

/-! ## Frame kinds -/

/-- The code of a frame's kind (R2). -/
def Msg.kind : Msg → Byte
  | .roll .. => 0x01#8
  | .mark _ => 0x02#8
  | .openShot .. => 0x10#8
  | .closeShot .. => 0x11#8
  | .refuse .. => 0x12#8
  | .readDone .. => 0x13#8
  | .place .. => 0x20#8
  | .unplace .. => 0x21#8
  | .claim .. => 0x22#8
  | .grant .. => 0x23#8
  | .redo .. => 0x24#8
  | .commit .. => 0x25#8
  | .request .. => 0x30#8
  | .answer .. => 0x31#8
  | .notice .. => 0x32#8
  | .restart _ => 0x38#8
  | .wake .. => 0x39#8
  | .seam .. => 0x40#8
  | .segment _ => 0x41#8

/-- The class of each kind code in the table of R2: 0 Urgent, 1 Control, 2 Bulk. -/
def kindClass? (kind : Byte) : Option (BitVec 2) :=
  if kind = 0x10#8 ∨ kind = 0x11#8 ∨ kind = 0x12#8 ∨ kind = 0x13#8 then some 0#2
  else if kind = 0x40#8 ∨ kind = 0x41#8 then some 2#2
  else if kind = 0x01#8 ∨ kind = 0x02#8 ∨ kind = 0x20#8 ∨ kind = 0x21#8 ∨ kind = 0x22#8 ∨ kind = 0x23#8
      ∨ kind = 0x24#8 ∨ kind = 0x25#8 ∨ kind = 0x30#8 ∨ kind = 0x31#8 ∨ kind = 0x32#8 ∨ kind = 0x38#8
      ∨ kind = 0x39#8 then some 1#2
  else none

/-- The class a sender gives a frame (R2). -/
def Msg.cls (m : Msg) : BitVec 2 := (kindClass? m.kind).getD 1#2

/-- The queue of a frame that is not a bulk frame (R12). -/
def Msg.queue (m : Msg) : Queue := if m.cls = 0#2 then .urgent else .control

/-! ## Bodies -/

/-- The class order of a notice condition (R177). -/
def NoticeData.order : NoticeData → Nat
  | .shotOpened .. => 1
  | .shotDropped .. => 2
  | .tileDeveloped .. => 3
  | .tileHeld .. => 4
  | .shotCommitted .. => 5
  | .cardState .. => 6
  | .cardFull .. => 7
  | .stranger .. => 8
  | .quietTimeout .. => 9
  | .woke .. => 10
  | .halted .. => 11

/-- The data bytes of a notice (R195). -/
def NoticeData.bytes : NoticeData → List Byte
  | .shotOpened n o e l b => beBytes 4 n.toNat ++ beBytes 8 o.toNat ++ beBytes 8 e.toNat ++ [flagByte l, b]
  | .shotDropped n r p => beBytes 4 n.toNat ++ [refuseReasonCode r, policyCode p]
  | .tileDeveloped n f t => beBytes 4 n.toNat ++ [flagsByte f false] ++ beBytes 2 t.toNat
  | .tileHeld n f t => beBytes 4 n.toNat ++ [flagsByte f false] ++ beBytes 2 t.toNat
  | .shotCommitted n k r f => beBytes 4 n.toNat ++ [optSocketCode k] ++ beBytes 2 r.toNat ++ beBytes 2 f.toNat
  | .cardState k c i x w =>
    [optSocketCode k, cardStateCode c] ++ beBytes 4 i.toNat ++ beBytes 2 x.toNat ++ beBytes 4 w.toNat
  | .cardFull n k r => beBytes 4 n.toNat ++ [optSocketCode k, placeReasonCode r]
  | .stranger s u f => [s] ++ beBytes 4 u.toNat ++ [fittedByte f]
  | .quietTimeout n ms => beBytes 4 n.toNat ++ [maskOf ms]
  | .woke c t => [wakeCauseCode c] ++ beBytes 8 t.toNat
  | .halted n r => beBytes 4 n.toNat ++ [refuseReasonCode r]

/-- The data length of each notice class (R195); a class that is not listed has none (log 49). -/
def noticeDataLength? (order : Byte) : Option Nat :=
  ([22, 6, 7, 7, 9, 12, 6, 6, 5, 9, 5] : List Nat)[order.toNat - 1]?.bind fun n => if order = 0#8 then none else some n

/-- The body of a Segment (R194). -/
def SegmentBody.bytes (b : SegmentBody) : List Byte :=
  beBytes 4 b.shot.toNat ++ [b.tile, BitVec.ofNat 8 (b.openFlag.toNat + 2 * b.close.isSome.toNat)]
    ++ beBytes 4 b.offset.toNat ++ beBytes 4 b.payload.length ++ beBytes 2 b.sum.toNat
    ++ (match b.close with
        | none => []
        | some c => beBytes 2 c.tileSum.toNat ++ [flagsByte c.flags false, syncOutcomeCode c.outcome] ++ beBytes 4 c.skew.toNat)
    ++ b.payload

/-- The body of a frame (R193-R195). -/
def Msg.body : Msg → List Byte
  | .roll s u f n r => [s] ++ beBytes 4 u.toNat ++ [fittedByte f] ++ beBytes 4 n.toNat ++ [flagByte r]
  | .mark t => beBytes 8 t.toNat
  | .openShot n t => beBytes 4 n.toNat ++ beBytes 8 t.toNat
  | .closeShot n t l => beBytes 4 n.toNat ++ beBytes 8 t.toNat ++ [flagByte l]
  | .refuse n r p => beBytes 4 n.toNat ++ [refuseReasonCode r, policyCode p]
  | .readDone n k d => beBytes 4 n.toNat ++ [readKindCode k, flagByte d]
  | .place n k (.reserved r b) =>
    beBytes 4 n.toNat ++ [socketCode k, 0#8] ++ beBytes 2 r.toNat ++ beBytes 4 b.toNat ++ [0#8]
  | .place n k (.refused r) =>
    beBytes 4 n.toNat ++ [socketCode k, 1#8] ++ beBytes 2 0 ++ beBytes 4 0 ++ [placeReasonCode r]
  | .unplace n k r => beBytes 4 n.toNat ++ [socketCode k, unplaceReasonCode r]
  | .claim k n c => [k] ++ beBytes 4 n.toNat ++ [c]
  | .grant m k n c r => [m, k] ++ beBytes 4 n.toNat ++ [c, flagByte r]
  | .redo n m k r => beBytes 4 n.toNat ++ [m, socketCode k, redoReasonCode r]
  | .commit n k r f => beBytes 4 n.toNat ++ [socketCode k] ++ beBytes 2 r.toNat ++ beBytes 2 f.toNat
  | .request tag code args => [tag, code] ++ args
  | .answer tag code res reason data =>
    [tag, code, resultCode res, (match reason with | none => 0#8 | some r => reasonCode r)] ++ data
  | .notice level count data => [BitVec.ofNat 8 data.order, level, count] ++ data.bytes
  | .restart r => [flagByte r]
  | .wake m c => [m, wakeFrameCauseCode c]
  | .seam n d band => beBytes 4 n.toNat ++ [directionCode d] ++ band.flatMap fun w => beBytes 2 w.toNat
  | .segment b => b.bytes

/-- The 2-byte values of a band (R194). -/
def wordsOf : List Byte → List Word16
  | a :: b :: rest => (a ++ b) :: wordsOf rest
  | _ => []

/-- Whether a body has a length that chapter 12 allows for its kind (R11, R193-R195; log 26 for a Segment's length field, log 49
for a Notice of a class that is not listed). -/
def lengthAllowed (kind : Byte) (body : List Byte) : Bool :=
  let n := body.length
  if kind = 0x01#8 then n == 11
  else if kind = 0x02#8 then n == 8
  else if kind = 0x10#8 then n == 12
  else if kind = 0x11#8 then n == 13
  else if kind = 0x12#8 ∨ kind = 0x13#8 ∨ kind = 0x21#8 ∨ kind = 0x22#8 then n == 6
  else if kind = 0x20#8 then n == 13
  else if kind = 0x23#8 then n == 8
  else if kind = 0x24#8 then n == 7
  else if kind = 0x25#8 then n == 9
  else if kind = 0x30#8 then decide (2 ≤ n) && decide (n ≤ 10)
  else if kind = 0x31#8 then decide (4 ≤ n) && decide (n ≤ 1032)
  else if kind = 0x32#8 then (match body with
    | c :: _ => (match noticeDataLength? c with | some k => n == k + 3 | none => false)
    | [] => false)
  else if kind = 0x38#8 then n == 1
  else if kind = 0x39#8 then n == 2
  else if kind = 0x40#8 then n % 128 == 5 && decide (8197 ≤ n) && decide (n ≤ 65541)
  else if kind = 0x41#8 then
    decide (16 ≤ n) && decide (1 ≤ field body 10 4) && decide (field body 10 4 ≤ 65536)
      && n == 16 + field body 10 4 + (if (body.getD 5 0#8).getLsbD 1 then 8 else 0)
  else false

/-- The body of a Segment read (R194); the flag bits that the layout does not define are ignored (log 50). -/
def parseSegment (b : List Byte) : Option SegmentBody :=
  let flags := b.getD 5 0#8
  let head (close : Option CloseFields) (payload : List Byte) : SegmentBody :=
    { shot := BitVec.ofNat 32 (field b 0 4), tile := b.getD 4 0#8, offset := BitVec.ofNat 32 (field b 6 4),
      sum := BitVec.ofNat 16 (field b 14 2), openFlag := flags.getLsbD 0, close := close, payload := payload }
  if flags.getLsbD 1 then
    (syncOutcomeOf? (b.getD 19 0#8)).map fun o =>
      head (some { tileSum := BitVec.ofNat 16 (field b 16 2), flags := flagsOf (b.getD 18 0#8), outcome := o,
                   skew := BitVec.ofNat 32 (field b 20 4) }) (b.drop 24)
  else some (head none (b.drop 16))

/-- The outcome part of a Place body (R193). -/
def parsePlace (b : List Byte) : Option PlaceOutcome :=
  if b.getD 5 0#8 = 0#8 then some (.reserved (BitVec.ofNat 16 (field b 6 2)) (BitVec.ofNat 32 (field b 8 4)))
  else if b.getD 5 0#8 = 1#8 then (placeReasonOf? (b.getD 12 0#8)).map .refused
  else none

/-- The body of a frame read, for the kinds a station takes; none when it holds a code that chapter 12 does not list, which
its owning block disregards (R193; log 48 for the socket byte 00h). -/
def Msg.parse (kind : Byte) (b : List Byte) : Option Msg :=
  let shot := BitVec.ofNat 32 (field b 0 4)
  if kind = 0x01#8 then (flagOf? (b.getD 10 0#8)).map fun r =>
    .roll (b.getD 0 0#8) (BitVec.ofNat 32 (field b 1 4)) (fittedOf (b.getD 5 0#8)) (BitVec.ofNat 32 (field b 6 4)) r
  else if kind = 0x02#8 then some (.mark (BitVec.ofNat 64 (field b 0 8)))
  else if kind = 0x10#8 then some (.openShot shot (BitVec.ofNat 64 (field b 4 8)))
  else if kind = 0x11#8 then (flagOf? (b.getD 12 0#8)).map fun l => .closeShot shot (BitVec.ofNat 64 (field b 4 8)) l
  else if kind = 0x12#8 then (refuseReasonOf? (b.getD 4 0#8)).bind fun r =>
    (policyOf? (b.getD 5 0#8)).map fun p => .refuse shot r p
  else if kind = 0x13#8 then (readKindOf? (b.getD 4 0#8)).bind fun k =>
    (flagOf? (b.getD 5 0#8)).map fun d => .readDone shot k d
  else if kind = 0x20#8 then (socketOf? (b.getD 4 0#8)).bind fun k => (parsePlace b).map fun o => .place shot k o
  else if kind = 0x21#8 then (socketOf? (b.getD 4 0#8)).bind fun k =>
    (unplaceReasonOf? (b.getD 5 0#8)).map fun r => .unplace shot k r
  else if kind = 0x22#8 then some (.claim (b.getD 0 0#8) (BitVec.ofNat 32 (field b 1 4)) (b.getD 5 0#8))
  else if kind = 0x23#8 then (flagOf? (b.getD 7 0#8)).map fun r =>
    .grant (b.getD 0 0#8) (b.getD 1 0#8) (BitVec.ofNat 32 (field b 2 4)) (b.getD 6 0#8) r
  else if kind = 0x24#8 then (socketOf? (b.getD 5 0#8)).bind fun k =>
    (redoReasonOf? (b.getD 6 0#8)).map fun r => .redo shot (b.getD 4 0#8) k r
  else if kind = 0x25#8 then (socketOf? (b.getD 4 0#8)).map fun k =>
    .commit shot k (BitVec.ofNat 16 (field b 5 2)) (BitVec.ofNat 16 (field b 7 2))
  else if kind = 0x30#8 then some (.request (b.getD 0 0#8) (b.getD 1 0#8) (b.drop 2))
  else if kind = 0x38#8 then (flagOf? (b.getD 0 0#8)).map .restart
  else if kind = 0x39#8 then (wakeFrameCauseOf? (b.getD 1 0#8)).map fun c => .wake (b.getD 0 0#8) c
  else if kind = 0x40#8 then (directionOf? (b.getD 4 0#8)).map fun d => .seam shot d (wordsOf (b.drop 5))
  else if kind = 0x41#8 then (parseSegment b).map .segment
  else none

/-! ## The frame -/

/-- The bytes the frame sum covers: five header bytes, then the body (R193). -/
def summedBytes (dst : BitVec 4) (kind : Byte) (len : BitVec 24) (body : List Byte) : List Byte :=
  [dst.setWidth 8, kind] ++ beBytes 3 len.toNat ++ body

/-- The frame sum of R1. -/
def frameSum (dst : BitVec 4) (kind : Byte) (len : BitVec 24) (body : List Byte) : Word16 :=
  recorded (sumBytes (summedBytes dst kind len body))

/-- A frame as its sender puts it on the link (R1, R193). -/
def Frame.wire (src : Node) (f : Frame) : WireFrame :=
  { cls := f.msg.cls, src := src, dst := f.dst, kind := f.msg.kind, len := BitVec.ofNat 24 f.msg.body.length,
    body := f.msg.body, sum := some (frameSum f.dst f.msg.kind (BitVec.ofNat 24 f.msg.body.length) f.msg.body) }

/-- The fields of a frame in the order they are sent, as numbers of fixed width (R1, R193). -/
def WireFrame.fields (f : WireFrame) : List Nat :=
  [f.cls.toNat, f.src.toNat, f.dst.toNat, f.kind.toNat, f.len.toNat] ++ f.body.map (·.toNat)
    ++ [(f.sum.getD 0#16).toNat]

/-- Whether the first frame is not dominated by the second: at the first difference it has the lower, dominant value
(R1, R5). -/
def notDominated : List Nat → List Nat → Bool
  | [], _ => true
  | _ :: _, [] => true
  | x :: xs, y :: ys => if x < y then true else if y < x then false else notDominated xs ys

/-- A sender whose frame is `own` goes on to the end against `rival`, or in a tie with an identical frame (R5, R6). -/
def WireFrame.wins (own rival : WireFrame) : Bool := notDominated own.fields rival.fields

/-- The check of R7 at the end of the frame sum: true when it finds a fault. -/
def WireFrame.faulty (f : WireFrame) : Bool :=
  (f.body.length != f.len.toNat) || decide (f.len.toNat > Config.maxBodyLength)
    || (match f.sum with
        | none => true
        | some w => w == 0#16 || w != frameSum f.dst f.kind f.len f.body)

/-- The malformed test of R11. -/
def WireFrame.malformed (f : WireFrame) : Bool :=
  (match kindClass? f.kind with
   | none => true
   | some c => c != f.cls) || f.src == 6#3 || !lengthAllowed f.kind f.body

/-! ## The roll and the wake record -/

/-- Zero bytes. -/
def zeros (n : Nat) : List Byte := List.replicate n 0#8

/-- Bytes filled out with zero bytes to a multiple of the block size (R136, R163). -/
def padBlock (bytes : List Byte) : List Byte :=
  bytes ++ zeros ((Config.blockBytes - bytes.length % Config.blockBytes) % Config.blockBytes)

/-- The label in block 0 (R196). -/
def labelBytes (magic : Nat) (identity : Word32) (blocks : Nat) : List Byte :=
  padBlock (beBytes 4 magic ++ beBytes 2 1 ++ beBytes 4 identity.toNat ++ beBytes 4 blocks)

/-- The magic value of a label (R196). -/
def labelMagic : Nat := 0x524F4C4C

/-- An index entry of kind Shot (1) or Void (2) (R196). -/
def indexEntryBytes (kind : Byte) (flags : Byte) (members : Nat) (shot : Shot) (first blocks : Nat) (agreedOpen : Time)
    (duration : Word32) (fileSum : Word16) : List Byte :=
  [kind, flags, BitVec.ofNat 8 members, 0#8] ++ beBytes 4 shot.toNat ++ beBytes 4 first ++ beBytes 4 blocks
    ++ beBytes 8 agreedOpen.toNat ++ beBytes 4 duration.toNat ++ beBytes 2 fileSum.toNat ++ [0#8, 0#8]

/-- The 10-byte record of a member in a shot header (R196). -/
def headerMemberBytes (member : Node) (c : CloseFields) : List Byte :=
  [member.setWidth 8, flagsByte c.flags false] ++ beBytes 2 c.tileSum.toNat ++ [syncOutcomeCode c.outcome, 0#8]
    ++ beBytes 4 c.skew.toNat

/-- A shot header with the given file sum field (R196). -/
def headerBytes (shot : Shot) (frameNo members : Nat) (flags : Byte) (agreedOpen : Time) (duration : Word32)
    (fileSum : Word16) (records : List Byte) : List Byte :=
  padBlock (beBytes 4 shot.toNat ++ beBytes 2 frameNo ++ [BitVec.ofNat 8 members, flags] ++ beBytes 8 agreedOpen.toNat
    ++ beBytes 4 duration.toNat ++ beBytes 2 fileSum.toNat ++ [0#8, 0#8] ++ records)

/-- The wake record (R187, R197). -/
def wakeRecordBytes (cause : WakeCause) (source : Byte) (bodyLength : Nat) (time : Time) (body : List Byte) : List Byte :=
  [wakeCauseCode cause, source] ++ beBytes 3 bodyLength ++ beBytes 8 time.toNat
    ++ (body.take 16 ++ zeros (16 - body.length)) ++ zeros 3

end Sys2Proof
end

