-- ==== Sys2Proof/Machine/State.lean ====
section
/-! DEFINITION. The state of the station, block by block (00_scope.md, "Blocks of the station"), as plain data. A field's
default is its value after Start, as the rule named beside it gives it. -/

namespace Sys2Proof.Machine

/-- The reasons for which a step stops with a fault. There is none: every fault the manual describes (a faulty frame, a
malformed frame, a card error, a refused request) leaves the station running, and is modelled as a next state. -/
inductive Fault
  deriving DecidableEq, Repr

/-- The reasons for which a step is refused. -/
inductive Refusal
  /-- Raised only by an arm of exec for a command that has no meaning yet; safe, since nothing is then claimed of it.
  No arm raises it in this model. -/
  | notModelled (mnemonic : String)
  deriving DecidableEq, Repr

/-! ## Membership Unit (chapter 2) -/

/-- The station states (R22). -/
inductive StationState
  | rolling | configuring | ready | excluded | duplicate
  deriving DecidableEq, Repr

/-- The grid shapes (R33, R114). -/
inductive GridShape
  | g2x1 | g2x2 | g3x2
  deriving DecidableEq, Repr

/-- How an exposure ends (R33, R62, R63). -/
inductive SyncMode
  | follow | pulse
  deriving DecidableEq, Repr

/-- Which level of the sync pin is the closed contact (R50). -/
inductive SyncPolarity
  | closedLow | closedHigh
  deriving DecidableEq, Repr

/-- Where shots are stored (R145). -/
inductive StorageMode
  | single | overflow | mirror
  deriving DecidableEq, Repr

/-- The settings, with the defaults of R33; the notice levels in class order with the defaults of R177. -/
structure Settings where
  gridShape : Option GridShape := none
  tileColumns : Nat := 4096
  tileRows : Nat := 3072
  syncMode : SyncMode := .follow
  syncPolarity : SyncPolarity := .closedLow
  debounce : Nat := 500
  skewTolerance : Nat := 200
  exposureLimit : Nat := 60
  /-- In ms; absent means Off. -/
  darkThreshold : Option Nat := some 1000
  darkAgeLimit : Nat := 600
  hotThreshold : Nat := 2048
  blackLevel : Nat := 256
  flatGain : Nat := 4096
  ringFullPolicy : Policy := .drop
  blockedPolicy : Policy := .drop
  sensorBusyPolicy : Policy := .drop
  /-- The flags whose DevelopMask item is Held. -/
  developMask : OutcomeFlags := { skewed := true }
  seamTimeout : Nat := 400
  segmentSize : Nat := 32
  storageMode : StorageMode := .single
  noticeLevels : List Nat := [2, 3, 1, 3, 2, 2, 3, 1, 3, 2, 3]
  wakeOnSync : Bool := true
  deriving DecidableEq, Repr

/-- An entry of the member table (R24). -/
structure Member where
  number : Node
  serial : Word32
  fitted : Fitted
  duplicated : Bool
  deriving DecidableEq, Repr

/-- The Membership Unit (R21-R37). -/
structure Membership where
  straps : Straps
  serial : Word32
  state : StationState := .rolling
  rejoin : Bool := false
  ownRollOut : Bool := false
  /-- In station-number order (R24). -/
  table : List Member := []
  highest : Shot := 1#32
  retainedValid : Bool := false
  retained : List (Node × Word32) := []
  settings : Settings := {}
  deriving DecidableEq, Repr

/-! ## Link Interface (chapter 1) -/

/-- A frame in a send queue with its spoil count (R9, R12). -/
structure Queued where
  frame : Frame
  spoils : Nat
  deriving DecidableEq, Repr

/-- The bulk frame in hand, its spoil count, and whether its builder cancelled it while it was on the link (R15, R17). -/
structure Bulk where
  frame : Frame
  spoils : Nat
  cancelled : Bool
  deriving DecidableEq, Repr

/-- Where the frame the station is sending comes from (R4). -/
inductive SendSource
  | urgent | control | bulk
  deriving DecidableEq, Repr

/-- The link as this station sees it: free (R1); carrying a frame it hears from its start or not (R7); or carrying its own
frame, which it may have withdrawn (R16). -/
inductive LinkPhase
  | free
  | hearing (fromStart : Bool)
  | sending (source : SendSource) (withdrawn : Bool)
  deriving DecidableEq, Repr

/-- The Link Interface (R1-R20). -/
structure Link where
  urgent : List Queued := []
  control : List Queued := []
  /-- Frames held for room in the urgent queue, the one held longest first (R13). -/
  urgentHeld : List Frame := []
  /-- Frames held for room in the control queue (R13). -/
  controlHeld : List Frame := []
  /-- Frames the blocks hold during Rolling, in order of production (R22). -/
  rollHeld : List Frame := []
  bulk : Option Bulk := none
  detached : Bool := false
  spoiled : Nat := 0
  retries : Nat := 0
  malformed : Nat := 0
  phase : LinkPhase := .free
  /-- The frame-start time of the frame on the link (R38). -/
  frameStart : Option Time := none
  deriving DecidableEq, Repr

/-! ## Station Clock (chapter 3) -/

/-- The count state of a timer channel (R43). -/
inductive CountState
  | idle
  | counting (present length : Nat)
  deriving DecidableEq, Repr

/-- The pending request of a timer channel (R43). -/
inductive TimerRequest
  | none
  | load (length : Nat)
  | stop
  deriving DecidableEq, Repr

/-- A timer channel (R43). `due` is the expiry event on its way to the owner: set at the edge where the count reaches 0
(R44), cleared when the owner has it. -/
structure Timer where
  count : CountState := .idle
  request : TimerRequest := .none
  due : Bool := false
  deriving DecidableEq, Repr

/-- The timers of the assignment table (R46), after Start (R47). -/
structure Timers where
  roll : Timer := {}
  mark : Timer := { request := .load 100 }
  attribution : Timer := {}
  pulse : Timer := {}
  exposureLimit : Timer := {}
  dark : Timer := {}
  quiet : Timer := {}
  seam : Timer := {}
  deriving DecidableEq, Repr

/-- The Station Clock (R38-R49). -/
structure Clock where
  linkTime : Time := 0#64
  /-- Microseconds of the local oscillator since the last fine edge, 0-9 (R42). -/
  sinceFine : Nat := 0
  /-- Fine edges since the last milli edge, 0-99 (R42). -/
  sinceMilli : Nat := 0
  /-- Milli edges since the last coarse edge, 0-99 (R42). -/
  sinceCoarse : Nat := 0
  timers : Timers := {}
  /-- The target of the armed release alarm (R48). -/
  alarm : Option Time := none
  /-- Fine edges counted in the release pulse, 0-1999; the release output is driven while it is present (R49). -/
  pulse : Option Nat := none
  deriving DecidableEq, Repr

/-! ## Sync Input (4.1) -/

/-- A change of the sync level under test (R50): the link time of its first sample, the samples that showed it, and the
Debounce interval it started with. -/
structure Candidate where
  since : Time
  samples : Nat
  interval : Nat
  deriving DecidableEq, Repr

/-- The Sync Input (R50, R51). The accepted level is absent until the first sample after Start or a wake. A station not wired
for sync takes no sample: its level is always the open level of the polarity in force, computed where it is read
(`State.latchLevel`). -/
structure SyncInput where
  accepted : Option Level := none
  candidate : Option Candidate := none
  bounces : Nat := 0
  deriving DecidableEq, Repr

/-! ## Capture Controller (chapter 4) -/

/-- The capture states (R52). -/
inductive CaptureState
  | disarmed | armed | exposing | reading | darkExposing | darkReading | halted
  deriving DecidableEq, Repr

/-- The exposure in hand (R52). -/
structure Exposure where
  shot : Shot
  ownEdge : Option Time
  ownStart : Time
  shutter : Nat
  limit : Bool
  deriving DecidableEq, Repr

/-- The Capture Controller (R52-R74). `windowEnded` holds once the attribution timer started at the trigger of the current shot
has expired (R60). -/
structure Capture where
  state : CaptureState := .disarmed
  current : Shot := 0#32
  windowEnded : Bool := false
  quiet : List Node := []
  disarmPending : Bool := false
  haltPending : Bool := false
  pendingRelease : Option Time := none
  shutter : Nat := 8000
  exposure : Option Exposure := none
  deriving DecidableEq, Repr

/-! ## Ring Manager (chapter 5) -/

/-- The tags of an occupied slot (R77). -/
inductive Tag
  | exposing | reading | raw | developing | held | developed
  deriving DecidableEq, Repr

/-- The dark status of a shot (R76, R99). -/
inductive DarkStatus
  | notNeeded | awaiting | used | none
  deriving DecidableEq, Repr

/-- The record of an occupied slot (R76). -/
structure Slot where
  shot : Shot
  tag : Tag
  ownStart : Time
  ownEnd : Option Time
  outcome : Option SyncOutcome
  skew : Option Int
  skewed : Bool
  bounces : Option Nat
  limit : Bool
  dark : Option DarkStatus
  flags : OutcomeFlags
  tileSum : Option Word16
  deriving DecidableEq, Repr

/-- The placement states (R81). -/
inductive Placement
  | pending | reserved | refused | committed | void
  deriving DecidableEq, Repr

/-- The transfer states of a socket (R152). -/
inductive Transfer
  | idle | claiming | sending | closed
  deriving DecidableEq, Repr

/-- A roster entry's part for one socket: the card station the letter was assigned to (R79), its placement state, and the
Transfer Unit's state and grants held (R87). -/
structure Part where
  station : Node
  placement : Placement
  transfer : Transfer
  grants : Nat
  deriving DecidableEq, Repr

/-- A roster entry (R81). `openTaken` says whether an Open of the shot has been taken ("the first Open(n)", R60). -/
structure Entry where
  shot : Shot
  slot : Nat
  agreedOpen : Option Time
  openTaken : Bool
  opener : Bool
  agreedClose : Option Time
  agreedDuration : Option Int
  members : List Node
  partA : Option Part
  partB : Option Part
  unmirrored : Bool
  cursor : Nat
  deriving DecidableEq, Repr

/-- A slot area of tile memory: the raw part and the developed part, in row order (R75, R111). -/
structure Area where
  raw : List Sample := []
  developed : List Sample := []
  deriving DecidableEq, Repr

/-- The Ring Manager (R75-R95) with the slot areas. The roster is in order of admission. -/
structure Ring where
  slots : List (Option Slot) := List.replicate 8 none
  top : Nat := 7
  next : Shot := 1#32
  roster : List Entry := []
  areas : List Area := List.replicate 8 {}
  deriving DecidableEq, Repr

/-! ## Dark Unit and Defect Table (chapter 6) -/

/-- The phases of a dark capture (R96). -/
inductive DarkPhase
  | exposing | reading | scanning
  deriving DecidableEq, Repr

/-- The dark capture in hand (R96), with the pixel the scan has come to (R102). -/
structure DarkCapture where
  phase : DarkPhase
  shot : Shot
  duration : Nat
  captureEnd : Option Time
  scanned : Nat
  deriving DecidableEq, Repr

/-- The origin of a defect entry (R107). -/
inductive Origin
  | fixed | hot
  deriving DecidableEq, Repr

/-- An entry of the Defect Table (R107). -/
structure Defect where
  row : Nat
  column : Nat
  origin : Origin
  deriving DecidableEq, Repr

/-- The Dark Unit and the Defect Table (R96-R110). -/
structure Dark where
  valid : Bool := false
  duration : Option Nat := none
  captureEnd : Option Time := none
  samples : List Sample := []
  capture : Option DarkCapture := none
  overflow : Nat := 0
  defects : List Defect := []
  deriving DecidableEq, Repr

/-! ## Develop Engine (chapter 7) -/

/-- The phases of a job (R113). -/
inductive Phase
  | base | interior | edge | gain | finish
  deriving DecidableEq, Repr

/-- What a job subtracts (R115). -/
inductive Base
  | dark | blackLevel
  deriving DecidableEq, Repr

/-- The state of a neighbour-facing edge in a job (R113). -/
inductive EdgeState
  | pending | waiting | band (samples : List Word16) | oneSided
  deriving DecidableEq, Repr

/-- A neighbour-facing edge of the tile in a job (R113, R114). -/
structure Edge where
  dir : Direction
  neighbour : Nat
  state : EdgeState
  deriving DecidableEq, Repr

/-- A job record (R113). -/
structure Job where
  shot : Shot
  slot : Nat
  phase : Phase
  base : Base
  snapshot : List (Nat × Nat)
  edges : List Edge
  flags : OutcomeFlags
  deriving DecidableEq, Repr

/-- A band of the seam store with its key (R127). -/
structure Band where
  neighbour : Nat
  shot : Shot
  samples : List Word16
  deriving DecidableEq, Repr

/-- The statistics area (R129). -/
inductive Stats
  | invalid
  | histogram (shot : Shot) (bins : List Nat)
  | wakeRecord (bytes : List Byte)
  deriving DecidableEq, Repr

/-- The Develop Engine (R111-R133). -/
structure Develop where
  job : Option Job := none
  owed : List (Shot × Direction) := []
  store : List Band := []
  stats : Stats := .invalid
  late : Nat := 0
  overrun : Nat := 0
  deriving DecidableEq, Repr

/-! ## Transfer Unit and Card Controller (chapters 8 and 9) -/

/-- The Transfer Unit's own state (R152); the rest is in the roster's parts and the bulk frame in hand. -/
structure TransferUnit where
  current : Option Shot := none
  deriving DecidableEq, Repr

/-- The mounted roll (R134). -/
structure Roll where
  identity : Word32
  blocks : Nat
  index : Nat
  write : Nat
  deriving DecidableEq, Repr

/-- The phases of a placement list entry (R148). -/
inductive PlacePhase
  | filling | committing
  deriving DecidableEq, Repr

/-- A member's progress in a placement list entry (R148). -/
structure Progress where
  member : Node
  expected : Nat
  running : Word16
  closed : Bool
  close : Option CloseFields
  redos : Nat
  deriving DecidableEq, Repr

/-- A placement list entry (R148). -/
structure Placed where
  shot : Shot
  frameNo : Nat
  firstBlock : Nat
  blocks : Nat
  progress : List Progress
  unwritten : Nat
  phase : PlacePhase
  deriving DecidableEq, Repr

/-- What a queued card write is (R141). -/
inductive WriteKind
  | block
  | header
  | index (fileSum : Word16)
  | void
  deriving DecidableEq, Repr

/-- A card write: the bytes it puts on the card from a byte address on, the shot and roll frame number of the entry that
queued it, and whether it was cancelled after the card had begun it (R141). A block write that is not cancelled is a
filled segment buffer (R159). -/
structure Write where
  kind : WriteKind
  shot : Shot
  frameNo : Nat
  address : Nat
  data : List Byte
  cancelled : Bool
  deriving DecidableEq, Repr

/-- A record of the grant table (R159). -/
structure GrantRecord where
  member : Node
  shot : Shot
  unfilled : Nat
  deriving DecidableEq, Repr

/-- A claim: the socket byte it names, its member, shot and count (R159, R160). -/
structure Claim where
  member : Node
  socket : Byte
  shot : Shot
  count : Nat
  deriving DecidableEq, Repr

/-- The Card Controller (R134-R151, R159-R171), and the card in the socket. -/
structure Card where
  letter : Option Socket := none
  state : CardState := .empty
  roll : Option Roll := none
  placements : List Placed := []
  writes : List Write := []
  grants : List GrantRecord := []
  waiting : List Claim := []
  medium : Option Medium := none
  deriving DecidableEq, Repr

/-! ## Notice Unit (10.4) -/

/-- A pending notice record (R177). -/
structure NoticeRecord where
  data : NoticeData
  count : Nat
  deriving DecidableEq, Repr

/-- The eleven records of the Notice Unit, in class order (R177). -/
structure Notices where
  records : List (Option NoticeRecord) := List.replicate 11 none
  deriving DecidableEq, Repr

/-! ## Power Controller (chapter 11) -/

/-- The power states (R181). -/
inductive PowerState
  | active | doze | sleep
  deriving DecidableEq, Repr

/-- The Power Controller (R181), with the test of a differing sync level in Sleep (R186). -/
structure Power where
  state : PowerState := .active
  sleepPending : Bool := false
  latched : Option Level := none
  wakeCause : Option WakeCause := none
  candidate : Option Candidate := none
  deriving DecidableEq, Repr

end Sys2Proof.Machine

namespace Sys2Proof.Machine

/-- The station: its blocks, and the model's queue of commands that are waiting, first in, first out. -/
structure State where
  member : Membership
  link : Link := {}
  clock : Clock := {}
  sync : SyncInput := {}
  capture : Capture := {}
  ring : Ring := {}
  dark : Dark := {}
  develop : Develop := {}
  transfer : TransferUnit := {}
  card : Card := {}
  notices : Notices := {}
  power : Power := {}
  pending : List Instr := []
  deriving DecidableEq, Repr

/-- The straps and the serial the model reads at reset. DESIGN CHOICE (log 1): they are inputs of the board; START reads
any others. -/
def resetStraps : Straps := { number := 0#3, fitted := { card := true, release := true, sync := true } }

/-- See `resetStraps`. -/
def resetSerial : Word32 := 1#32

/-- The Roll that station 0 queues in the event of Start: its wait is 0 (R23, R45). -/
def resetRoll : Frame := { dst := 15#4, msg := .roll 0#8 resetSerial resetStraps.fitted 1#32 false }

/-- The machine right after Start at a station strapped `resetStraps`, with a free link and no card in the socket. -/
def State.reset : State where
  member := { straps := resetStraps, serial := resetSerial }
  link := { control := [{ frame := resetRoll, spoils := 0 }] }
  clock := { timers := { roll := { request := .stop } } }

end Sys2Proof.Machine
end

