-- ==== Sys2Proof/Machine/Ops.lean ====
section
/-! DEFINITION. The named operations that every block's rules use: addressed memory, updates of one block of the state,
timer requests, queueing a frame (R12, R13, R22), raising a notice (R177), and finding and updating ring slots and roster
entries. -/

namespace Sys2Proof

/-! ## Addressed memory (a card's bytes) -/

/-- The byte at an address; an unlisted address reads as the blank byte (log 11). -/
def Memory.read : Memory → Nat → Byte
  | [], _ => Config.blankByte
  | (b, v) :: rest, a => if a = b then v else Memory.read rest a

/-- Write one byte, keeping the canonical form. -/
def Memory.write : Memory → Nat → Byte → Memory
  | [], a, v => if v = Config.blankByte then [] else [(a, v)]
  | (b, w) :: rest, a, v =>
    if a < b then (if v = Config.blankByte then (b, w) :: rest else (a, v) :: (b, w) :: rest)
    else if a = b then (if v = Config.blankByte then rest else (a, v) :: rest)
    else (b, w) :: Memory.write rest a v

/-- Write bytes from an address on. -/
def Memory.writeBytes : Memory → Nat → List Byte → Memory
  | m, _, [] => m
  | m, a, v :: vs => Memory.writeBytes (m.write a v) (a + 1) vs

/-- The `n` bytes from an address on. -/
def Memory.readBytes (m : Memory) (a n : Nat) : List Byte := (List.range n).map fun i => m.read (a + i)

/-- Write zero bytes over `n` addresses. -/
def Memory.clear (m : Memory) (a n : Nat) : Memory := m.filter fun c => decide (c.1 < a) || decide (a + n ≤ c.1)

end Sys2Proof

namespace Sys2Proof.Machine

/-! ## Updates of one block -/

def State.onMember (f : Membership → Membership) (s : State) : State := { s with member := f s.member }
def State.onLink (f : Link → Link) (s : State) : State := { s with link := f s.link }
def State.onClock (f : Clock → Clock) (s : State) : State := { s with clock := f s.clock }
def State.onSync (f : SyncInput → SyncInput) (s : State) : State := { s with sync := f s.sync }
def State.onCapture (f : Capture → Capture) (s : State) : State := { s with capture := f s.capture }
def State.onRing (f : Ring → Ring) (s : State) : State := { s with ring := f s.ring }
def State.onDark (f : Dark → Dark) (s : State) : State := { s with dark := f s.dark }
def State.onDevelop (f : Develop → Develop) (s : State) : State := { s with develop := f s.develop }
def State.onTransfer (f : TransferUnit → TransferUnit) (s : State) : State := { s with transfer := f s.transfer }
def State.onCard (f : Card → Card) (s : State) : State := { s with card := f s.card }
def State.onNotices (f : Notices → Notices) (s : State) : State := { s with notices := f s.notices }
def State.onPower (f : Power → Power) (s : State) : State := { s with power := f s.power }
def State.onPending (f : List Instr → List Instr) (s : State) : State := { s with pending := f s.pending }

/-- Do `f` when a condition holds. -/
def State.doIf (b : Bool) (f : State → State) (s : State) : State := if b then f s else s

/-! ## Counts and lists -/

/-- A count that stays at its limit once there. -/
def satInc (limit n : Nat) : Nat := if n < limit then n + 1 else n

/-- A link time some microseconds later; it stays at the largest 64-bit value (R38). -/
def Time.plus (t : Time) (k : Nat) : Time := BitVec.ofNat 64 (min (t.toNat + k) (2 ^ 64 - 1))

/-- Update the first element that satisfies `p`. -/
def updFirst {α : Type} (p : α → Bool) (f : α → α) : List α → List α
  | [] => []
  | x :: xs => if p x then f x :: xs else x :: updFirst p f xs

/-- The lowest shot number of a list. -/
def lowestShot : List Shot → Option Shot
  | [] => none
  | n :: ns => match lowestShot ns with
    | none => some n
    | some m => some (if m < n then m else n)

/-! ## Identity and membership -/

/-- The station's node number: its strapped station number (R21). -/
def State.self (s : State) : Node := s.member.straps.number

/-- A station strapped 6 or 7 has no valid node number (R21). -/
def State.strapInvalid (s : State) : Bool := s.self == 6#3 || s.self == 7#3

/-- A card station: strapped "card socket fitted" (R134). -/
def State.cardStation (s : State) : Bool := s.member.straps.fitted.card

/-- The settings in force. -/
def State.settings (s : State) : Settings := s.member.settings

/-- In Configuring and Ready every block sends and takes frames (R22). -/
def State.running (s : State) : Bool := s.member.state == .configuring || s.member.state == .ready

/-- The station numbers of the member table, in order. -/
def State.memberNumbers (s : State) : List Node := s.member.table.map (·.number)

/-- The members with the card socket fitted, in station-number order. -/
def State.cardMembers (s : State) : List Node := (s.member.table.filter (·.fitted.card)).map (·.number)

/-- The member a socket letter is assigned to: A to the lowest card station, B to the next (R79; log 22). -/
def State.socketStation (s : State) : Socket → Option Node
  | .a => s.cardMembers[0]?
  | .b => s.cardMembers[1]?

/-! ## Timer requests (R43) -/

/-- The timers of R46. -/
inductive TimerId
  | roll | mark | attribution | pulse | exposureLimit | dark | quiet | seam
  deriving DecidableEq, Repr

def Timers.get (t : Timers) : TimerId → Timer
  | .roll => t.roll
  | .mark => t.mark
  | .attribution => t.attribution
  | .pulse => t.pulse
  | .exposureLimit => t.exposureLimit
  | .dark => t.dark
  | .quiet => t.quiet
  | .seam => t.seam

def Timers.upd (t : Timers) (f : Timer → Timer) : TimerId → Timers
  | .roll => { t with roll := f t.roll }
  | .mark => { t with mark := f t.mark }
  | .attribution => { t with attribution := f t.attribution }
  | .pulse => { t with pulse := f t.pulse }
  | .exposureLimit => { t with exposureLimit := f t.exposureLimit }
  | .dark => { t with dark := f t.dark }
  | .quiet => { t with quiet := f t.quiet }
  | .seam => { t with seam := f t.seam }

/-- The timers made of two channels joined (R46). -/
def TimerId.wide : TimerId → Bool
  | .pulse => true
  | .dark => true
  | .quiet => true
  | _ => false

/-- The longest length of a timer: a single channel counts with 16 bits, a wide timer with 32 (R45). -/
def TimerId.longest (id : TimerId) : Nat := if id.wide then 4294967295 else 65535

/-- A start or restart: each new request replaces the pending one (R43). With length 0 it is complete when it is made: the
expiry is on its way, and the pending request is Stop (R45). -/
def Timer.load (n : Nat) (t : Timer) : Timer :=
  if n = 0 then { t with request := .stop, due := true } else { t with request := .load n }

/-- A stop (R43). -/
def Timer.halt (t : Timer) : Timer := { t with request := .stop }

/-- The owner has its expiry. -/
def Timer.delivered (t : Timer) : Timer := { t with due := false }

/-- The states a channel reports to its owner (R43). -/
inductive Reported
  | starting | running | idle
  deriving DecidableEq, Repr

/-- The state reported (R43). -/
def Timer.reported (t : Timer) : Reported :=
  match t.request, t.count with
  | .load _, _ => .starting
  | _, .counting .. => .running
  | _, .idle => .idle

/-- A timer "is running" when its channel reports Starting or Running (R43). -/
def Timer.running (t : Timer) : Bool := t.reported != .idle

def State.timer (s : State) (id : TimerId) : Timer := s.clock.timers.get id

def State.onTimer (id : TimerId) (f : Timer → Timer) (s : State) : State :=
  s.onClock fun c => { c with timers := c.timers.upd f id }

def State.loadTimer (id : TimerId) (n : Nat) (s : State) : State := s.onTimer id (Timer.load n)

def State.stopTimer (id : TimerId) (s : State) : State := s.onTimer id Timer.halt

/-- A timer's expiry reaches its owner: the handling follows the clearing of the event (R44). -/
def State.onExpiry (id : TimerId) (handle : State → State) (s : State) : State :=
  if (s.timer id).due then handle (s.onTimer id Timer.delivered) else s

/-! ## Queueing frames -/

/-- Give a frame to its send queue: it is admitted when there is room and nothing is held for the queue, else it is held
behind what is held (R12, R13). -/
def Link.give (f : Frame) (l : Link) : Link :=
  match f.msg.queue with
  | .urgent =>
    if l.urgentHeld.isEmpty && decide (l.urgent.length < Config.urgentCapacity) then
      { l with urgent := l.urgent ++ [{ frame := f, spoils := 0 }] }
    else { l with urgentHeld := l.urgentHeld ++ [f] }
  | .control =>
    if l.controlHeld.isEmpty && decide (l.control.length < Config.controlCapacity) then
      { l with control := l.control ++ [{ frame := f, spoils := 0 }] }
    else { l with controlHeld := l.controlHeld ++ [f] }

/-- Whether a frame may be queued during Rolling (R22): the station's Rolls, and Answers. -/
def Msg.queuedInRolling : Msg → Bool
  | .roll .. => true
  | .answer .. => true
  | _ => false

/-- Whether a frame is an Answer: the only frames queued in Excluded and Duplicate (R22). -/
def Msg.isAnswer : Msg → Bool
  | .answer .. => true
  | _ => false

/-- What becomes of a frame a block produces, by the station state (R22): queued, held by the block until the roll call
ends, or not sent. A station strapped 6 or 7 queues no frame of any kind (R21). -/
def Membership.place (m : Membership) (f : Frame) (l : Link) : Link :=
  if m.straps.number == 6#3 || m.straps.number == 7#3 then l
  else match m.state with
    | .configuring => l.give f
    | .ready => l.give f
    | .rolling => if Msg.queuedInRolling f.msg then l.give f else { l with rollHeld := l.rollHeld ++ [f] }
    | .excluded => if Msg.isAnswer f.msg then l.give f else l
    | .duplicate => if Msg.isAnswer f.msg then l.give f else l

/-- A block produces a frame (R12, R13, R22). -/
def State.queue (dst : BitVec 4) (msg : Msg) (s : State) : State :=
  s.onLink (s.member.place { dst := dst, msg := msg })

/-- A frame addressed to all nodes. -/
def State.broadcast (msg : Msg) (s : State) : State := s.queue 15#4 msg

/-- The destination field that names a node. -/
def nodeDst (n : Node) : BitVec 4 := n.setWidth 4

/-- The station's own frames that are queued, or held for room, in the control queue (R13, R29, R41). -/
def Link.controlMsgs (l : Link) : List Msg := l.control.map (·.frame.msg) ++ l.controlHeld.map (·.msg)

/-- The builder of the bulk frame in hand cancels it when it satisfies `p`: at once while it is off the link, at the end of
the frame while it is on the link (R17). -/
def Link.cancelBulk (p : Msg → Bool) (l : Link) : Link :=
  match l.bulk with
  | none => l
  | some b =>
    if p b.frame.msg then
      match l.phase with
      | .sending .bulk _ => { l with bulk := some { b with cancelled := true } }
      | _ => { l with bulk := none }
    else l

/-- A Seam of a shot. -/
def Msg.isSeamOf (n : Shot) : Msg → Bool
  | .seam m _ _ => m == n
  | _ => false

/-- A Segment of a shot. -/
def Msg.isSegmentOf (n : Shot) : Msg → Bool
  | .segment b => b.shot == n
  | _ => false

def State.cancelBulk (p : Msg → Bool) (s : State) : State := s.onLink (Link.cancelBulk p)

/-- When the quiet set becomes non-empty while the station's own bulk frame is being sent, the frame is withdrawn (R16). -/
def Link.withdraw (l : Link) : Link :=
  match l.phase with
  | .sending .bulk _ => { l with phase := .sending .bulk true }
  | _ => l

/-! ## Notices -/

/-- A condition raises its class: a clear record becomes pending, a pending one takes the newest data and counts (R177). -/
def Notices.raise (d : NoticeData) (n : Notices) : Notices :=
  { n with records := n.records.modify (d.order - 1) fun
      | none => some { data := d, count := 1 }
      | some r => some { data := d, count := satInc Config.noticeCountLimit r.count } }

def State.raise (d : NoticeData) (s : State) : State := s.onNotices (Notices.raise d)

/-! ## Ring and roster -/

/-- The record of the slot that holds a shot. -/
def State.slot? (s : State) (n : Shot) : Option Slot := s.ring.slots.findSome? fun o => o.filter (·.shot == n)

/-- Update the record of the slot that holds a shot. -/
def Ring.updSlot (n : Shot) (f : Slot → Slot) (r : Ring) : Ring :=
  { r with slots := r.slots.map fun o => o.map fun x => if x.shot = n then f x else x }

def State.updSlot (n : Shot) (f : Slot → Slot) (s : State) : State := s.onRing (Ring.updSlot n f)

/-- The roster entry of a shot. -/
def State.entry? (s : State) (n : Shot) : Option Entry := s.ring.roster.find? (·.shot == n)

/-- Update the roster entry of a shot. -/
def Ring.updEntry (n : Shot) (f : Entry → Entry) (r : Ring) : Ring :=
  { r with roster := r.roster.map fun e => if e.shot = n then f e else e }

def State.updEntry (n : Shot) (f : Entry → Entry) (s : State) : State := s.onRing (Ring.updEntry n f)

/-- The part of an entry for a socket. -/
def Entry.part (k : Socket) (e : Entry) : Option Part :=
  match k with
  | .a => e.partA
  | .b => e.partB

/-- Update the part of an entry for a socket, where it has one. -/
def Entry.updPart (k : Socket) (f : Part → Part) (e : Entry) : Entry :=
  match k with
  | .a => { e with partA := e.partA.map f }
  | .b => { e with partB := e.partB.map f }

/-- The parts of an entry, A first. -/
def Entry.parts (e : Entry) : List Part := e.partA.toList ++ e.partB.toList

/-- The shot numbers of the ring, in ring order from the slot after TOP going round to TOP (R82). -/
def Ring.inOrder (r : Ring) : List Slot :=
  ((r.slots.drop ((r.top + 1) % 8)) ++ (r.slots.take ((r.top + 1) % 8))).filterMap id

/-- Update the slot area of a slot index. -/
def Ring.updArea (i : Nat) (f : Area → Area) (r : Ring) : Ring := { r with areas := r.areas.modify i f }

/-- The slot area of a slot index. -/
def State.area (s : State) (i : Nat) : Area := s.ring.areas.getD i {}

end Sys2Proof.Machine
end

