-- ==== Sys2Proof/Machine/Flags.lean ====
section
/-! DEFINITION. Computations on the outcome flags of a tile (R121, R122) and the unmirrored flag of a roster entry (R86). -/

namespace Sys2Proof

/-- The union of two sets of outcome flags (R136, R169). -/
def OutcomeFlags.union (a b : OutcomeFlags) : OutcomeFlags :=
  { clipped := a.clipped || b.clipped, floored := a.floored || b.floored, noDark := a.noDark || b.noDark,
    skewed := a.skewed || b.skewed, seamMissing := a.seamMissing || b.seamMissing,
    defectOverflow := a.defectOverflow || b.defectOverflow, limitReached := a.limitReached || b.limitReached }

/-- Whether two sets of outcome flags have a flag in common. -/
def OutcomeFlags.meets (a b : OutcomeFlags) : Bool :=
  (a.clipped && b.clipped) || (a.floored && b.floored) || (a.noDark && b.noDark) || (a.skewed && b.skewed)
    || (a.seamMissing && b.seamMissing) || (a.defectOverflow && b.defectOverflow) || (a.limitReached && b.limitReached)

end Sys2Proof

namespace Sys2Proof.Machine

/-- The outcome flags of a finished tile (R121, step 4): the job's flags so far with those of the slot record, the dark
status and the hot-overflow count. -/
def finishFlags (sofar : OutcomeFlags) (slot : Slot) (overflow : Nat) : OutcomeFlags :=
  { sofar with
    limitReached := sofar.limitReached || slot.limit
    noDark := sofar.noDark || slot.dark == some .none
    skewed := sofar.skewed || slot.skewed
    defectOverflow := sofar.defectOverflow || decide (0 < overflow) }

/-- The tag of a finished tile: Held when a set flag's DevelopMask item is Held, else Developed (R122). -/
def finishTag (mask flags : OutcomeFlags) : Tag := if flags.meets mask then .held else .developed

/-- A placement state of a lost or refused placement (R86). -/
def Placement.gone (p : Placement) : Bool := p == .refused || p == .void

/-- A placement state of a placement made (R86). -/
def Placement.made (p : Placement) : Bool := p == .reserved || p == .committed

/-- The unmirrored flag is settled after a change to either placement part (R86). -/
def Entry.settleUnmirrored (mode : StorageMode) (e : Entry) : Entry :=
  match mode, e.partA, e.partB with
  | .mirror, some a, some b =>
    if (a.placement.gone && b.placement.made) || (a.placement.made && b.placement.gone) then { e with unmirrored := true }
    else if a.placement.made && b.placement.made then { e with unmirrored := false }
    else e
  | _, _, _ => e

end Sys2Proof.Machine
end

