-- ==== Sys2Proof/Machine/Operands.lean ====
section
/-! DEFINITION. The operands of requests: the Set items with their scopes, ranges and encodings (R33, R195), and the
arguments of each request code (R195). -/

namespace Sys2Proof.Machine

/-- A requested operation with its arguments read, or why it cannot be (R173): an unknown code, or arguments of a length
other than the code's. -/
inductive Req
  | setItem (item : Byte) (value : Word32)
  | beginConf | arm | disarm | resume
  | release (time : Time)
  | exposure (shutter : Word32)
  | takeDark (duration : Word32)
  | keep (shot : Shot)
  | discard (shot : Shot)
  | forgetHot
  | histogram (shot : Shot)
  | format (socket : Byte)
  | eject (socket : Byte)
  | status | dumpWake | sleep
  | unreadable
  deriving DecidableEq, Repr

/-- The request of a code and its argument bytes (10.1, R195). -/
def Req.read (code : Byte) (args : List Byte) : Req :=
  let bare (r : Req) : Req := if args.isEmpty then r else .unreadable
  let word (r : Req) : Req := if args.length = 4 then r else .unreadable
  let arg := BitVec.ofNat 32 (fromBE args)
  if code = 0x01#8 then
    if args.length = 5 then .setItem (args.getD 0 0#8) (BitVec.ofNat 32 (field args 1 4)) else .unreadable
  else if code = 0x02#8 then bare .beginConf
  else if code = 0x10#8 then bare .arm
  else if code = 0x11#8 then bare .disarm
  else if code = 0x12#8 then bare .resume
  else if code = 0x13#8 then if args.length = 8 then .release (BitVec.ofNat 64 (fromBE args)) else .unreadable
  else if code = 0x14#8 then word (.exposure arg)
  else if code = 0x15#8 then word (.takeDark arg)
  else if code = 0x20#8 then word (.keep arg)
  else if code = 0x21#8 then word (.discard arg)
  else if code = 0x22#8 then bare .forgetHot
  else if code = 0x23#8 then word (.histogram arg)
  else if code = 0x24#8 then if args.length = 1 then .format (args.getD 0 0#8) else .unreadable
  else if code = 0x25#8 then if args.length = 1 then .eject (args.getD 0 0#8) else .unreadable
  else if code = 0x30#8 then bare .status
  else if code = 0x31#8 then bare .dumpWake
  else if code = 0x32#8 then bare .sleep
  else .unreadable

/-- The DefectEntry item (R34, R195). -/
def defectItem : Byte := 0x0E#8

/-- The items of scope Station; every other item has scope All (R33). -/
def stationScope (item : Byte) : Bool := item == 0x0D#8 || item == defectItem

/-- A value in a range and on its step. -/
def inRange (low high step v : Nat) : Bool := decide (low ≤ v) && decide (v ≤ high) && v % step == 0

/-- A policy value (R195). -/
def policyValue? (v : Nat) : Option Policy := if v = 0 then some .drop else if v = 1 then some .halt else none

/-- A two-valued item (R195). -/
def bitValue? (v : Nat) : Option Bool := if v = 0 then some false else if v = 1 then some true else none

/-- Guard a setting's value. -/
def guardValue (ok : Bool) (st : Settings) : Option Settings := if ok then some st else none

/-- The settings with an item set to a value; none when the item is unknown or the value encodes none of the item's allowed
values (R32, R33, R195). DefectEntry is not a setting value (R34) and is handled apart. -/
def Settings.put (st : Settings) (item : Byte) (v : Nat) : Option Settings :=
  let i := item.toNat
  if i = 0x01 then
    if v = 1 then some { st with gridShape := some .g2x1 }
    else if v = 2 then some { st with gridShape := some .g2x2 }
    else if v = 3 then some { st with gridShape := some .g3x2 }
    else none
  else if i = 0x02 then guardValue (inRange 1024 8192 16 v) { st with tileColumns := v }
  else if i = 0x03 then guardValue (inRange 1024 8192 16 v) { st with tileRows := v }
  else if i = 0x04 then (bitValue? v).map fun b => { st with syncMode := if b then .pulse else .follow }
  else if i = 0x05 then (bitValue? v).map fun b => { st with syncPolarity := if b then .closedHigh else .closedLow }
  else if i = 0x06 then guardValue (inRange 100 2000 100 v) { st with debounce := v }
  else if i = 0x07 then guardValue (inRange 50 1000 1 v) { st with skewTolerance := v }
  else if i = 0x08 then guardValue (inRange 1 3600 1 v) { st with exposureLimit := v }
  else if i = 0x09 then
    if v = 0 then some { st with darkThreshold := none }
    else guardValue (inRange 500 60000 1 v) { st with darkThreshold := some v }
  else if i = 0x0A then guardValue (inRange 60 3600 1 v) { st with darkAgeLimit := v }
  else if i = 0x0B then guardValue (inRange 1 16383 1 v) { st with hotThreshold := v }
  else if i = 0x0C then guardValue (inRange 0 1023 1 v) { st with blackLevel := v }
  else if i = 0x0D then guardValue (inRange 2048 8192 1 v) { st with flatGain := v }
  else if i = 0x0F then (policyValue? v).map fun p => { st with ringFullPolicy := p }
  else if i = 0x10 then (policyValue? v).map fun p => { st with blockedPolicy := p }
  else if i = 0x11 then (policyValue? v).map fun p => { st with sensorBusyPolicy := p }
  else if i = 0x12 then guardValue (inRange 50 2000 1 v) { st with seamTimeout := v }
  else if i = 0x13 then guardValue (inRange 8 64 8 v) { st with segmentSize := v }
  else if i = 0x14 then
    if v = 0 then some { st with storageMode := .single }
    else if v = 1 then some { st with storageMode := .overflow }
    else if v = 2 then some { st with storageMode := .mirror }
    else none
  else if i = 0x15 then (bitValue? v).map fun b => { st with wakeOnSync := b }
  else if i = 0x20 then (bitValue? v).map fun b => { st with developMask := { st.developMask with clipped := b } }
  else if i = 0x21 then (bitValue? v).map fun b => { st with developMask := { st.developMask with floored := b } }
  else if i = 0x22 then (bitValue? v).map fun b => { st with developMask := { st.developMask with noDark := b } }
  else if i = 0x23 then (bitValue? v).map fun b => { st with developMask := { st.developMask with skewed := b } }
  else if i = 0x24 then (bitValue? v).map fun b => { st with developMask := { st.developMask with seamMissing := b } }
  else if i = 0x25 then (bitValue? v).map fun b => { st with developMask := { st.developMask with defectOverflow := b } }
  else if i = 0x26 then (bitValue? v).map fun b => { st with developMask := { st.developMask with limitReached := b } }
  else if 0x30 ≤ i ∧ i ≤ 0x3A then guardValue (inRange 0 3 1 v) { st with noticeLevels := st.noticeLevels.set (i - 0x30) v }
  else none

end Sys2Proof.Machine
end

