-- ==== Sys2Proof/Machine/CardOps.lean ====
section
/-! DEFINITION. The Card Controller's shared operations (chapters 8 and 9): card state changes, the mount, reservation and
re-placement, the buffer pool with its grants and waiting claims, voiding, and the commit. -/

namespace Sys2Proof.Machine

/-! ## Sizes (R136, R152) -/

/-- The bytes of a packed tile (R121, R136). -/
def tileBytes (st : Settings) : Nat := st.tileRows * st.tileColumns * 7 / 4

/-- The blocks of a packed tile (R136). -/
def tileBlocks (st : Settings) : Nat := (tileBytes st + 511) / 512

/-- The blocks of a shot with a number of members (R136). -/
def shotExtent (st : Settings) (members : Nat) : Nat := 1 + members * tileBlocks st

/-- The bytes of a full segment (R152). -/
def segmentBytes (st : Settings) : Nat := st.segmentSize * 1024

/-- The byte address of a card block (R192). -/
def blockAddress (block : Nat) : Nat := block * Config.blockBytes

/-- The byte address of the index entry of a roll frame number (R136). -/
def indexAddress (frameNo : Nat) : Nat := blockAddress 1 + 32 * (frameNo - 1)

/-! ## Card state (R135) -/

/-- The identity and the cursors as they are reported: identity in Ready and Ejecting, cursors also in Formatting, 0 where
absent (R134). -/
def Card.reported (c : Card) : Word32 × Nat × Nat :=
  match c.state, c.roll with
  | .ready, some r => (r.identity, r.index, r.write)
  | .ejecting, some r => (r.identity, r.index, r.write)
  | .formatting, some r => (0#32, r.index, r.write)
  | _, _ => (0#32, 0, 0)

/-- Each change of card state raises notice CardState (R135). -/
def State.raiseCardState (s : State) : State :=
  s.raise (.cardState s.card.letter s.card.state s.card.reported.1 (BitVec.ofNat 16 s.card.reported.2.1)
    (BitVec.ofNat 32 s.card.reported.2.2))

/-- A change of card state, with the roll that is mounted after it. -/
def State.changeCard (st : CardState) (roll : Option Roll) (s : State) : State :=
  (s.onCard fun c => { c with state := st, roll := roll }).raiseCardState

/-- In Ejecting, the card becomes Released when the placement list and the write queue are both empty (R140). -/
def State.ejectTest (s : State) : State :=
  s.doIf (s.card.state == .ejecting && s.card.placements.isEmpty && s.card.writes.isEmpty) (State.changeCard .released none)

/-! ## Buffers, grants and waiting claims (R159-R161) -/

/-- A filled segment buffer: a block write that is not cancelled (R159). -/
def Write.fillsBuffer (w : Write) : Bool := w.kind == .block && !w.cancelled

/-- The buffers that hold unwritten data. -/
def Card.filled (c : Card) : Nat := (c.writes.filter Write.fillsBuffer).length

/-- The granted-unfilled counts of all grant records. -/
def Card.unfilled (c : Card) : Nat := (c.grants.map (·.unfilled)).sum

/-- The free count (R159). -/
def Card.free (c : Card) : Nat := Config.bufferCount - (c.unfilled + c.filled)

/-- The grant record of a member. -/
def Card.grant? (c : Card) (m : Node) : Option GrantRecord := c.grants.find? (·.member == m)

/-- A grant record is made or replaced (R159). -/
def Card.setGrant (g : GrantRecord) (c : Card) : Card :=
  { c with grants := c.grants.filter (·.member != g.member) ++ [g] }

/-- The placement list entry of a shot. -/
def Card.placed? (c : Card) (n : Shot) : Option Placed := c.placements.find? (·.shot == n)

/-- Update the placement list entry of a shot. -/
def Card.updPlaced (n : Shot) (f : Placed → Placed) (c : Card) : Card :=
  { c with placements := updFirst (·.shot == n) f c.placements }

/-- The progress of a member in an entry. -/
def Placed.progress? (p : Placed) (m : Node) : Option Progress := p.progress.find? (·.member == m)

/-- Update the progress of a member in an entry. -/
def Placed.updProgress (m : Node) (f : Progress → Progress) (p : Placed) : Placed :=
  { p with progress := updFirst (·.member == m) f p.progress }

/-- Whether a claim is answered Grant 0 by the first row of R160. -/
def Card.claimUseless (c : Card) (q : Claim) : Bool :=
  (c.letter.map socketCode) != some q.socket || decide (q.count < 1) || decide (8 < q.count)
    || (match c.placed? q.shot with
        | none => true
        | some p => p.phase == .committing
          || (match p.progress? q.member with
              | none => true
              | some m => m.closed))

/-- Queue a Grant to a member (R160). -/
def State.sendGrant (q : Claim) (count : Nat) (s : State) : State :=
  s.queue (nodeDst q.member)
    (.grant (q.member.setWidth 8) q.socket q.shot (BitVec.ofNat 8 count) (count == 0))

/-- Grant a claim from the free count, or answer it with 0 (R160, R161). -/
def State.grantClaim (q : Claim) (s : State) : State :=
  if s.card.claimUseless q then s.sendGrant q 0
  else (s.onCard (Card.setGrant { member := q.member, shot := q.shot, unfilled := min q.count s.card.free })).sendGrant q
    (min q.count s.card.free)

/-- Serve the given waiting claims from their head while the free count is at least 1 (R161). -/
def State.serveFrom : List Claim → State → State
  | [], s => s
  | q :: rest, s =>
    if 1 ≤ s.card.free then State.serveFrom rest (State.grantClaim q (s.onCard fun c => { c with waiting := rest })) else s

/-- Serve the waiting claim list (R161). -/
def State.serve (s : State) : State := State.serveFrom s.card.waiting s

/-- A claim joins the tail of the waiting list, or takes the place of its member's waiting claim (R160). -/
def Card.wait (q : Claim) (c : Card) : Card :=
  if c.waiting.any (·.member == q.member) then { c with waiting := updFirst (·.member == q.member) (fun _ => q) c.waiting }
  else { c with waiting := c.waiting ++ [q] }

/-- The grant records and waiting claims of a shot are dropped (R149, R165, R169). -/
def Card.dropGrants (n : Shot) (c : Card) : Card :=
  { c with grants := c.grants.filter (·.shot != n), waiting := c.waiting.filter (·.shot != n) }

/-! ## The write queue (R141) -/

/-- Cancel the queued writes that satisfy `p`: one the card has begun (the head) runs to its end, the others leave the queue
unmade (R141). -/
def cancelWrites (p : Write → Bool) : List Write → List Write
  | [] => []
  | h :: rest => (if p h then { h with cancelled := true } else h) :: rest.filter fun w => !p w

/-- A block, header or Shot index write of a placement (R149, R165). -/
def Write.ofPlaced (p : Placed) (w : Write) : Bool :=
  w.kind != .void && w.shot == p.shot && w.frameNo == p.frameNo

/-- A write puts its bytes on the card in the socket. -/
def Card.perform (w : Write) (c : Card) : Card :=
  { c with medium := c.medium.map fun m => { m with bytes := m.bytes.writeBytes w.address w.data } }

/-! ## Mount (R137, R138) -/

/-- The member count the minimum roll is computed with (R137). -/
def State.mountMembers (s : State) : Nat := if s.member.table.length < 2 then 2 else s.member.table.length

/-- The minimum roll (R137). -/
def State.minimumRoll (s : State) : Nat := 65 + shotExtent s.settings s.mountMembers

/-- What a mount reads of an index entry: its kind byte, first block and block count (R196). -/
structure IndexEntry where
  kind : Nat
  first : Nat
  blocks : Nat
  deriving DecidableEq, Repr

/-- The index entry at a position of a card (R136, R196). -/
def cardIndexEntry (m : Memory) (p : Nat) : IndexEntry :=
  let e := m.readBytes (indexAddress (p + 1)) 32
  { kind := field e 0 1, first := field e 8 4, blocks := field e 12 4 }

/-- The label of a card: magic value, format version, roll identity, block count at format (R196). -/
def cardLabel (m : Memory) : Nat × Nat × Nat × Nat :=
  let b := m.readBytes 0 14
  (field b 0 4, field b 4 2, field b 6 4, field b 10 4)

/-- A valid label (R137). -/
def labelValid (m : Medium) : Bool :=
  let l := cardLabel m.bytes
  l.1 == labelMagic && l.2.1 == 1 && decide (65 ≤ l.2.2.2) && decide (l.2.2.2 ≤ m.capacity)

/-- What the mount has found so far: a fault, the end of the last Shot or Void extent (65 before any, log 23), whether a
Blank entry stands after it, and the position after the last entry that is not Blank. -/
structure IndexScan where
  fault : Bool := false
  stop : Nat := 65
  blank : Bool := false
  cursor : Nat := 0
  deriving DecidableEq, Repr

/-- One index entry is judged by the fault rules of R137. -/
def IndexScan.next (limit position : Nat) (e : IndexEntry) (a : IndexScan) : IndexScan :=
  if e.kind = 0 then { a with blank := true }
  else
    { fault := a.fault || decide (2 < e.kind) || decide (e.first < 65) || decide (limit < e.first + e.blocks)
        || decide (e.first < a.stop) || (e.first != a.stop && !a.blank)
      stop := e.first + e.blocks
      blank := false
      cursor := position + 1 }

/-- The index read in order (R137). -/
def scanIndex (limit : Nat) : Nat → List IndexEntry → IndexScan → IndexScan
  | _, [], a => a
  | p, e :: rest, a => scanIndex limit (p + 1) rest (a.next limit p e)

/-- The 1024 index entries of a card. -/
def cardIndex (m : Memory) : List IndexEntry := (List.range Config.indexCapacity).map (cardIndexEntry m)

/-- The extents of index positions read at mount (R138): a Shot or Void entry has the extent it records; the first of some
Blank entries takes the blocks up to the next entry that is not Blank, and the rest take none. -/
def mountExtents : Nat → List IndexEntry → List (Nat × Nat)
  | _, [] => []
  | stop, e :: rest =>
    if e.kind = 0 then
      match rest.find? (·.kind != 0) with
      | some f => (stop, f.first - stop) :: mountExtents f.first rest
      | none => (stop, 0) :: mountExtents stop rest
    else (e.first, e.blocks) :: mountExtents (e.first + e.blocks) rest

/-- The outcome of a mount (R137). -/
def State.mountOutcome (s : State) (m : Medium) : CardState × Option Roll :=
  if m.capacity < s.minimumRoll then (.failed, none)
  else if !labelValid m then (.unformatted, none)
  else
    let a := scanIndex (cardLabel m.bytes).2.2.2 0 (cardIndex m.bytes) {}
    if a.fault then (.failed, none)
    else (.ready, some { identity := BitVec.ofNat 32 (cardLabel m.bytes).2.2.1, blocks := (cardLabel m.bytes).2.2.2,
                         index := a.cursor, write := a.stop })

/-- An insertion starts the mount (R137). -/
def State.beginMount (s : State) : State := s.changeCard .mounting none

/-- A card present at Start or at a wake from Sleep counts as an insertion (R151). It comes after the clearing of the notices, and
its CardState is pending then, at a wake beside Woke (R135, R180; MODEL'S CHOICE, log 53). -/
def State.mountIfPresent (s : State) : State :=
  s.doIf (s.cardStation && s.card.medium.isSome) State.beginMount

/-! ## Reservation (R144-R147) -/

/-- The outcome of a reservation (R144): where it lies, or why it is refused. -/
def State.reservation (s : State) (e : Entry) : Except PlaceReason Roll :=
  match s.card.state, s.card.roll with
  | .ready, some r =>
    if r.index = Config.indexCapacity then .error .indexFull
    else if r.blocks < r.write + shotExtent s.settings e.members.length then .error .full
    else .ok r
  | .mounting, _ => .error .mounting
  | .formatting, _ => .error .mounting
  | .ejecting, _ => .error .ejecting
  | _, _ => .error .noCard

/-- A new placement list entry (R148). -/
def newPlaced (e : Entry) (r : Roll) (blocks : Nat) : Placed :=
  { shot := e.shot, frameNo := r.index + 1, firstBlock := r.write, blocks := blocks,
    progress := e.members.map fun m =>
      { member := m, expected := 0, running := 0#16, closed := false, close := none, redos := 0 },
    unwritten := 0, phase := .filling }

/-- A reservation takes the index position at the index cursor and the extent at the write cursor (R144). -/
def Card.reserve (e : Entry) (r : Roll) (blocks : Nat) (c : Card) : Card :=
  { c with
    roll := some { r with index := r.index + 1, write := r.write + blocks }
    placements := c.placements ++ [newPlaced e r blocks] }

/-- A Place with outcome Reserved announces where a reservation lies (R144). -/
def State.announce (n : Shot) (k : Socket) (frameNo firstBlock : Nat) (s : State) : State :=
  s.broadcast (.place n k (.reserved (BitVec.ofNat 16 frameNo) (BitVec.ofNat 32 firstBlock)))

/-- A reservation of a shot on this station's socket is tried and announced (R144). A shot on the placement list has its
reservation, and it is announced again (R148; log 21). -/
def State.tryReserve (e : Entry) (s : State) : State :=
  match s.card.letter with
  | none => s
  | some k =>
    match s.card.placed? e.shot with
    | some p => s.announce e.shot k p.frameNo p.firstBlock
    | none =>
      match s.reservation e with
      | .ok r =>
        (s.onCard (Card.reserve e r (shotExtent s.settings e.members.length))).announce e.shot k (r.index + 1) r.write
      | .error reason =>
        (s.doIf (reason == .full || reason == .indexFull) (State.raise (.cardFull e.shot (some k) reason))).broadcast
          (.place e.shot k (.refused reason))

/-- A card station decides its placement at its own admission of a shot, by StorageMode (R145). -/
def State.placeAtAdmission (e : Entry) (s : State) : State :=
  match s.card.letter, s.settings.storageMode with
  | some .a, _ => s.tryReserve e
  | some .b, .mirror => s.tryReserve e
  | _, _ => s

/-- The placement state of an entry's part for a socket. -/
def Entry.placement? (k : Socket) (e : Entry) : Option Placement := (e.part k).map (·.placement)

/-- Neither Reserved nor Committed; an entry with no part for the socket is neither (log 46). -/
def Entry.unplaced (k : Socket) (e : Entry) : Bool :=
  match e.placement? k with
  | none => true
  | some p => !p.made

/-- Whether a socket wants a shot at re-placement (R147). -/
def Entry.wanted (mode : StorageMode) (k : Socket) (e : Entry) : Bool :=
  match mode, k with
  | .single, .a => true
  | .single, .b => false
  | .overflow, .a => e.unplaced .b
  | .overflow, .b => (e.placement? .a).any Placement.gone
  | .mirror, _ => true

/-- A card station re-places when its card and the station are both Ready: every shot its socket wants and has not placed is
tried, in increasing shot number, which is the roster's order (R147). -/
def State.rePlace (s : State) : State :=
  match s.card.letter with
  | none => s
  | some k =>
    if s.card.state == .ready && s.member.state == .ready then
      (s.ring.roster.filter fun e => e.wanted s.settings.storageMode k && e.unplaced k).foldl (fun t e => t.tryReserve e) s
    else s

/-- In Overflow, socket B tries a reservation on a refusal or an Unplace from the card station of socket A, the station that
the entry's A part names (R79, R146): a rejoin roll call, which empties the member table, does not take it away. -/
def State.overflowDecide (source : Node) (n : Shot) (socket : Socket) (s : State) : State :=
  match s.entry? n with
  | none => s
  | some e =>
    if s.cardStation && s.card.letter == some .b && s.settings.storageMode == .overflow && socket == .a
        && (e.part .a).any (·.station == source) && e.unplaced .b then s.tryReserve e
    else s

/-! ## Leaving the placement list -/

/-- The union of the outcome flags in the close fields recorded in an entry (R149, R169). -/
def Placed.flags (p : Placed) : OutcomeFlags :=
  p.progress.foldl (fun f m => match m.close with | none => f | some c => f.union c.flags) {}

/-- The Void write of a freed placement (R149, step 4). -/
def voidWrite (e : Entry) (p : Placed) : Write :=
  { kind := .void, shot := p.shot, frameNo := p.frameNo, address := indexAddress p.frameNo,
    data := indexEntryBytes 2#8 (flagsByte p.flags e.unmirrored) e.members.length p.shot p.firstBlock p.blocks
      (e.agreedOpen.getD 0#64) (match e.agreedDuration with | none => 0#32 | some d => durationField d) 0#16,
    cancelled := false }

/-- An entry leaves the list with its queued writes cancelled and its grants and waiting claims dropped (R149, R165). -/
def Card.dropPlaced (p : Placed) (c : Card) : Card :=
  Card.dropGrants p.shot
    { c with
      placements := c.placements.eraseP (·.shot == p.shot)
      writes := cancelWrites (Write.ofPlaced p) c.writes }

/-- The placement of a freed shot is voided (R149). `e` is the roster entry as it stood at the freeing. -/
def State.voidPlacement (e : Entry) (s : State) : State :=
  match s.card.placed? e.shot with
  | none => s
  | some p =>
    ((s.onCard fun c => { Card.dropPlaced p c with writes := (Card.dropPlaced p c).writes ++ [voidWrite e p] }).serve).ejectTest

/-- A placement is unplaced for SumFailure (R165). -/
def State.unplaceSumFailure (p : Placed) (s : State) : State :=
  match s.card.letter with
  | none => s
  | some k =>
    (((s.onCard (Card.dropPlaced p)).broadcast (.unplace p.shot k .sumFailure)).serve).ejectTest

/-- A removal or a write error drops every placement and every Void write, empties the write queue and clears the buffers,
grants and waiting claims (R142, R143). -/
def State.dropAll (reason : UnplaceReason) (s : State) : State :=
  match s.card.letter with
  | none => s.onCard fun c => { c with placements := [], writes := [], grants := [], waiting := [] }
  | some k =>
    let shots := s.card.placements.map (·.shot) ++ (s.card.writes.filter (·.kind == .void)).map (·.shot)
    (shots.foldl (fun t n => t.broadcast (.unplace n k reason)) s).onCard fun c =>
      { c with placements := [], writes := [], grants := [], waiting := [] }

/-! ## Commit (R166, R169) -/

/-- The shot header of an entry with a file sum field (R169, R196). -/
def Placed.headerWith (p : Placed) (e : Entry) (fileSum : Word16) : List Byte :=
  headerBytes p.shot p.frameNo p.progress.length (flagsByte p.flags e.unmirrored) (e.agreedOpen.getD 0#64)
    (match e.agreedDuration with | none => 0#32 | some d => durationField d) fileSum
    (p.progress.flatMap fun m => match m.close with | none => [] | some c => headerMemberBytes m.member c)

/-- The file sum: the header partial sum plus the tile sums of all members, in member-set order (R169). -/
def Placed.fileSum (p : Placed) (e : Entry) : Word16 :=
  recorded ((p.progress.filterMap (·.close)).foldl (fun a c => onesAdd a c.tileSum) (sumBytes (p.headerWith e 0#16)))

/-- The two writes of a commit (R169). -/
def commitWrites (p : Placed) (e : Entry) : List Write :=
  [{ kind := .header, shot := p.shot, frameNo := p.frameNo, address := blockAddress p.firstBlock,
     data := p.headerWith e (p.fileSum e), cancelled := false },
   { kind := .index (p.fileSum e), shot := p.shot, frameNo := p.frameNo, address := indexAddress p.frameNo,
     data := indexEntryBytes 1#8 (flagsByte p.flags e.unmirrored) p.progress.length p.shot p.firstBlock p.blocks
       (e.agreedOpen.getD 0#64) (match e.agreedDuration with | none => 0#32 | some d => durationField d) (p.fileSum e),
     cancelled := false }]

/-- The commit test passes: Filling, every member's tile closed, no unwritten buffer (R166). -/
def Placed.complete (p : Placed) : Bool :=
  p.phase == .filling && p.progress.all (·.closed) && p.unwritten == 0

/-- The commit test of an entry; when it passes the entry enters Committing and its two writes are queued (R166, R169). -/
def State.commitTest (n : Shot) (s : State) : State :=
  match s.card.placed? n, s.entry? n with
  | some p, some e =>
    if p.complete then
      s.onCard fun c =>
        { Card.updPlaced n (fun q => { q with phase := .committing }) c with writes := c.writes ++ commitWrites p e }
    else s
  | _, _ => s

end Sys2Proof.Machine
end

