-- ==== Sys2Proof/Machine/TransferOps.lean ====
section
/-! DEFINITION. The Transfer Unit's shared operations (9.1): targets, passes, claims, and the choice of the current transfer
tile. -/

namespace Sys2Proof.Machine

/-- A socket is open when its placement part is Reserved (R152). -/
def Part.isOpen (p : Part) : Bool := p.placement == .reserved

/-- An open socket in Claiming or Sending is a target (R152). -/
def Part.target (p : Part) : Bool := p.isOpen && (p.transfer == .claiming || p.transfer == .sending)

/-- Some socket of the entry is a target. -/
def Entry.hasTarget (e : Entry) : Bool := e.parts.any Part.target

/-- Some open socket of the entry is Idle. -/
def Entry.hasOpenIdle (e : Entry) : Bool := e.parts.any fun p => p.isOpen && p.transfer == .idle

/-- The entry has an open socket whose transfer state is not Closed (R153). -/
def Entry.hasOpenUnclosed (e : Entry) : Bool := e.parts.any fun p => p.isOpen && p.transfer != .closed

/-- Update both parts. -/
def Entry.mapParts (f : Part → Part) (e : Entry) : Entry := { e with partA := e.partA.map f, partB := e.partB.map f }

/-- The segments left of a tile (R152). -/
def segmentsLeft (st : Settings) (cursor : Nat) : Nat :=
  (tileBytes st - cursor + segmentBytes st - 1) / segmentBytes st

/-- At the beginning of a pass the cursor becomes 0 and every open socket that is Idle or Closed becomes Sending, keeping its
grants (R154, R168). -/
def Entry.startPass (e : Entry) : Entry :=
  { e.mapParts (fun p => if p.isOpen && (p.transfer == .idle || p.transfer == .closed) then { p with transfer := .sending } else p)
    with cursor := 0 }

/-- A socket of the current tile that is Sending with no grants held is claimed for (R155). -/
def Part.needsClaim (p : Part) : Bool := p.isOpen && p.transfer == .sending && p.grants == 0

/-- Queue the Claim of one socket of a tile where it needs one (R155). -/
def State.claimSocket (n : Shot) (k : Socket) (s : State) : State :=
  match s.entry? n with
  | none => s
  | some e =>
    match e.part k with
    | none => s
    | some p =>
      if p.needsClaim then
        (s.updEntry n (Entry.updPart k fun q => { q with transfer := .claiming })).queue (nodeDst p.station)
          (.claim (socketCode k) n (BitVec.ofNat 8 (min 8 (segmentsLeft s.settings e.cursor))))
      else s

/-- Queue the Claims of the current tile's targets that hold no grants (R155). -/
def State.claimTargets (n : Shot) (s : State) : State :=
  if s.transfer.current = some n then (s.claimSocket n .a).claimSocket n .b else s

/-- A pass begins for a tile (R154). -/
def State.beginPass (n : Shot) (s : State) : State := (s.updEntry n Entry.startPass).claimTargets n

/-- A shot's tile is eligible for transfer (R153). -/
def State.eligible (s : State) (e : Entry) : Bool :=
  s.member.state == .ready && e.hasOpenUnclosed && (s.slot? e.shot).any (·.tag == .developed)

/-- With no current transfer tile, the eligible tile with the lowest shot number becomes current and a pass begins
(R153, R154). -/
def State.chooseTile (s : State) : State :=
  match s.transfer.current with
  | some _ => s
  | none =>
    match lowestShot ((s.ring.roster.filter s.eligible).map (·.shot)) with
    | none => s
    | some n => (s.onTransfer fun t => { t with current := some n }).beginPass n

/-- The unit leaves its tile, and makes its choice again (R153, R154). -/
def State.leaveTile (n : Shot) (s : State) : State :=
  if s.transfer.current = some n then (s.onTransfer fun t => { t with current := none }).chooseTile else s

/-- When the entry of a shot has no target left its pass ends: the cursor becomes 0, and a new pass begins for an open Idle
socket, or the unit leaves the tile (R154). At a tile that is not current the cursor alone changes, and an open Idle socket
waits until the tile is current (log 47). -/
def State.endPassIfDone (n : Shot) (s : State) : State :=
  match s.entry? n with
  | none => s
  | some e =>
    if e.hasTarget then s
    else if s.transfer.current = some n then
      (if e.hasOpenIdle then s.beginPass n else (s.updEntry n fun x => { x with cursor := 0 }).leaveTile n)
    else s.updEntry n fun x => { x with cursor := 0 }

/-- The transfer part of a roster entry after a Restart (R93): every socket Idle with no grants, the cursor 0. -/
def Entry.resetTransfer (e : Entry) : Entry :=
  { e.mapParts (fun p => { p with transfer := .idle, grants := 0 }) with cursor := 0 }

end Sys2Proof.Machine
end

