-- ==== Sys2Proof/Machine/DevelopOps.lean ====
section
/-! DEFINITION. The Develop Engine's shared operations (chapter 7): the grid and the edges of a tile, the arithmetic of the
five phases, bands, the seam store, and the start and the stop of a job. -/

namespace Sys2Proof.Machine

/-! ## The grid (R114) -/

def GridShape.columns : GridShape → Nat
  | .g2x1 => 2
  | .g2x2 => 2
  | .g3x2 => 3

def GridShape.rows : GridShape → Nat
  | .g2x1 => 1
  | .g2x2 => 2
  | .g3x2 => 2

/-- Whether a station number has a position in the grid; none has while GridShape is not set (R114, R126). -/
def onGrid (g : Option GridShape) (n : Nat) : Bool :=
  match g with
  | none => false
  | some g => decide (n < g.columns * g.rows)

/-- The station that an edge of station `n` faces, or none where it faces the outer border (R114). -/
def neighbour? (g : Option GridShape) (n : Nat) (d : Direction) : Option Nat :=
  match g with
  | none => none
  | some g =>
    if g.columns * g.rows ≤ n then none
    else match d with
      | .up => if 0 < n / g.columns then some (n - g.columns) else none
      | .down => if n / g.columns + 1 < g.rows then some (n + g.columns) else none
      | .left => if 0 < n % g.columns then some (n - 1) else none
      | .right => if n % g.columns + 1 < g.columns then some (n + 1) else none

/-- Edges are always taken in this order (R114). -/
def directions : List Direction := [.up, .down, .left, .right]

/-- The neighbour-facing edges of a station's tile with the neighbours they face, in order (R114). -/
def facingEdges (g : Option GridShape) (n : Nat) : List (Direction × Nat) :=
  directions.filterMap fun d => (neighbour? g n d).map fun m => (d, m)

/-- The station's own neighbour-facing edges. -/
def State.facing (s : State) : List (Direction × Nat) := facingEdges s.settings.gridShape s.self.toNat

/-- A defect entry at a position is an edge entry (R114). -/
def isEdgeEntry (st : Settings) (n row column : Nat) : Bool :=
  (decide (row < 2) && (neighbour? st.gridShape n .up).isSome)
    || (decide (st.tileRows < row + 3) && (neighbour? st.gridShape n .down).isSome)
    || (decide (column < 2) && (neighbour? st.gridShape n .left).isSome)
    || (decide (st.tileColumns < column + 3) && (neighbour? st.gridShape n .right).isSome)

/-! ## Pixels -/

/-- The pixels of a tile. -/
def pixelCount (st : Settings) : Nat := st.tileRows * st.tileColumns

/-- The first `n` samples of an area; a sample that the area does not hold reads as 0 (log 13). -/
def pixels : Nat → List Sample → List Sample
  | 0, _ => []
  | n + 1, [] => 0#14 :: pixels n []
  | n + 1, v :: vs => v :: pixels n vs

/-- The sample of one pixel of an area. -/
def pixelAt (l : List Sample) (i : Nat) : Sample := l.getD i 0#14

/-- A sample minus its base, a result below 0 written as 0 (R115, R124). -/
def lessBase (v b : Sample) : Sample := if v < b then 0#14 else v - b

/-- What a phase Base or a band subtracts from each pixel: the dark slot's samples, or BlackLevel (R115, R124). -/
def baseSamples (st : Settings) (dark : List Sample) : Base → List Sample
  | .dark => pixels (pixelCount st) dark
  | .blackLevel => List.replicate (pixelCount st) (BitVec.ofNat 14 st.blackLevel)

/-- The working values that phase Base leaves (R115). -/
def baseValues (raw base : List Sample) : List Sample := List.zipWith lessBase raw base

/-- Whether some pixel of phase Base fell below 0: Floored (R115). -/
def anyFloored (raw base : List Sample) : Bool := (List.zipWith (fun v b => decide (v < b)) raw base).any id

/-! ## Repair (R117, R119) -/

/-- The mean of k values rounded half up: (S + k div 2) div k (R117). -/
def roundedMean (values : List Nat) : Nat := (values.sum + values.length / 2) / values.length

/-- The value a repair writes. A mean above 16383, which only a band's 16-bit values can give, is a free value (log 16). -/
def repairValue (values : List Nat) : Sample :=
  if 16383 < roundedMean values then Config.wideRepair (roundedMean values) else BitVec.ofNat 14 (roundedMean values)

/-- The band of the edge in a direction, where that edge is in state Band (R119). -/
def bandOf? (edges : List Edge) (d : Direction) : Option (List Word16) :=
  match edges.find? (·.dir == d) with
  | some e => match e.state with
    | .band b => some b
    | _ => none
  | none => none

/-- The value of a candidate position inside the tile: usable when it is no position of the snapshot (R117). -/
def insideValue (st : Settings) (snapshot : List (Nat × Nat)) (work : List Sample) (row column : Nat) : Option Nat :=
  if snapshot.contains (row, column) then none else some (pixelAt work (row * st.tileColumns + column)).toNat

/-- The values of the usable candidates of a defect at a position, across edges in state Band as well (R117, R119). A
position for which a band holds no sample is not usable (log 37). -/
def candidateValues (st : Settings) (snapshot : List (Nat × Nat)) (work : List Sample) (edges : List Edge)
    (row column : Nat) : List Nat :=
  let inside := insideValue st snapshot work
  let across (d : Direction) (i : Nat) : Option Nat := ((bandOf? edges d).bind fun b => b[i]?).map BitVec.toNat
  [ if 2 ≤ row then inside (row - 2) column else across .up ((row + 2) * st.tileColumns + column),
    if row + 2 < st.tileRows then inside (row + 2) column
      else across .down ((row + 2 - st.tileRows) * st.tileColumns + column),
    if 2 ≤ column then inside row (column - 2) else across .left (row * 4 + (column + 2)),
    if column + 2 < st.tileColumns then inside row (column + 2)
      else across .right (row * 4 + (column + 2 - st.tileColumns)) ].filterMap id

/-- Repair the given positions; every repair reads the values as the phase found them (R117). A position with no usable
candidate, or outside the tile (log 38), is left. -/
def repairAll (st : Settings) (snapshot : List (Nat × Nat)) (edges : List Edge) (which : List (Nat × Nat))
    (work : List Sample) : List Sample :=
  which.foldl (fun w p =>
    match candidateValues st snapshot work edges p.1 p.2 with
    | [] => w
    | v :: vs =>
      if p.1 < st.tileRows ∧ p.2 < st.tileColumns then w.set (p.1 * st.tileColumns + p.2) (repairValue (v :: vs)) else w)
    work

/-- The interior entries of a snapshot (R114, R117). -/
def interiorEntries (st : Settings) (n : Nat) (snapshot : List (Nat × Nat)) : List (Nat × Nat) :=
  snapshot.filter fun p => !isEdgeEntry st n p.1 p.2

/-- The edge entries of a snapshot (R114, R119). -/
def edgeEntries (st : Settings) (n : Nat) (snapshot : List (Nat × Nat)) : List (Nat × Nat) :=
  snapshot.filter fun p => isEdgeEntry st n p.1 p.2

/-! ## Gain, histogram, packing (R120, R121) -/

/-- A working value multiplied by FlatGain and rounded half up (R120). -/
def gained (gain : Nat) (v : Sample) : Nat := (v.toNat * gain + 2048) / 4096

/-- The value phase Gain writes: 16383 where the result lies above it (R120). -/
def gainValue (gain : Nat) (v : Sample) : Sample := BitVec.ofNat 14 (min (gained gain v) 16383)

/-- The 256 bins of a tile: bin b counts the values with v div 64 = b (R121). -/
def histogramBins (values : List Sample) : List Nat :=
  (List.range 256).map fun b => (values.filter fun v => v.toNat / 64 == b).length

/-- Packing: each run of four pixels as 56 bits, the first pixel most significant (R121). -/
def packPixels : List Sample → List Byte
  | a :: b :: c :: d :: rest =>
    beBytes 7 (((a.toNat * 16384 + b.toNat) * 16384 + c.toNat) * 16384 + d.toNat) ++ packPixels rest
  | _ => []

/-- The packed tile of a slot area (R121). -/
def State.packedTile (i : Nat) (s : State) : List Byte := packPixels (pixels (pixelCount s.settings) (s.area i).developed)

/-- The tile sum over the packed bytes; 0000h is recorded as FFFFh (R121). -/
def tileSumOf (packed : List Byte) : Word16 := recorded (sumBytes packed)

/-! ## Bands (R124) -/

/-- The pixel indices of the band along an edge, in row order and left to right within a row (R124). -/
def bandPositions (st : Settings) : Direction → List Nat
  | .up => List.range (4 * st.tileColumns)
  | .down => (List.range (4 * st.tileColumns)).map fun i => (st.tileRows - 4) * st.tileColumns + i
  | .left => (List.range (4 * st.tileRows)).map fun i => (i / 4) * st.tileColumns + i % 4
  | .right => (List.range (4 * st.tileRows)).map fun i => (i / 4) * st.tileColumns + (st.tileColumns - 4) + i % 4

/-- The base a band is built with: the dark slot's samples when the shot is Used and the dark slot is valid, else BlackLevel
(R124). -/
def State.bandBase (x : Slot) (s : State) : Base := if x.dark == some .used && s.dark.valid then .dark else .blackLevel

/-- The band of a slot's tile along an edge, computed from the raw part at the time of building (R124). -/
def State.band (x : Slot) (i : Nat) (d : Direction) (s : State) : List Word16 :=
  (bandPositions s.settings d).map fun p =>
    (lessBase (pixelAt (s.area i).raw p)
      (match s.bandBase x with
       | .dark => pixelAt s.dark.samples p
       | .blackLevel => BitVec.ofNat 14 s.settings.blackLevel)).setWidth 16

/-! ## Edge resolution and the seam store (R118, R127) -/

/-- Whether a band has a key. -/
def Band.hasKey (neighbour : Nat) (n : Shot) (b : Band) : Bool := b.neighbour == neighbour && b.shot == n

/-- Resolve pending edges in order: an edge whose band is stored takes it out of the store; the first edge without one
becomes Waiting (R118). The result says whether an edge waits. -/
def resolveEdges (n : Shot) : List Edge → List Band → List Edge × List Band × Bool
  | [], store => ([], store, false)
  | e :: es, store =>
    match e.state with
    | .pending =>
      match store.find? (Band.hasKey e.neighbour n) with
      | some b =>
        let r := resolveEdges n es (store.eraseP (Band.hasKey e.neighbour n))
        ({ e with state := .band b.samples } :: r.1, r.2)
      | none => ({ e with state := .waiting } :: es, store, true)
    | .waiting => (e :: es, store, true)
    | _ =>
      let r := resolveEdges n es store
      (e :: r.1, r.2)

/-- Whether the job waits for a band. -/
def Job.waiting (j : Job) : Bool := j.edges.any fun e => e.state == .waiting

/-- Resolve the job's edges from the first that is not resolved; an edge that becomes Waiting starts the seam timer (R118). -/
def State.resolve (s : State) : State :=
  match s.develop.job with
  | none => s
  | some j =>
    let r := resolveEdges j.shot j.edges s.develop.store
    (s.onDevelop fun d => { d with job := some { j with edges := r.1 }, store := r.2.1 }).doIf r.2.2
      (State.loadTimer .seam s.settings.seamTimeout)

/-! ## Jobs (R112, R113, R131) -/

/-- The shots of the Raw slots. -/
def State.rawShots (s : State) : List Shot :=
  ((s.ring.slots.filterMap id).filter (·.tag == .raw)).map (·.shot)

/-- The index of the slot that holds a shot. -/
def State.slotIndex (n : Shot) (s : State) : Nat := s.ring.slots.findIdx fun o => o.any (·.shot == n)

/-- The base a job settles at the start of phase Base (R115). MODEL'S CHOICE (log 54): a shot that is Used stays on the dark slot
where the slot has been marked invalid since. -/
def Slot.base (x : Slot) : Base := if x.dark == some .used then .dark else .blackLevel

/-- A new job record (R113). -/
def newJob (x : Slot) (i : Nat) (facing : List (Direction × Nat)) : Job :=
  { shot := x.shot, slot := i, phase := .base, base := x.base, snapshot := [],
    edges := facing.map fun f => { dir := f.1, neighbour := f.2, state := .pending }, flags := {} }

/-- The conditions on the candidate of R112. -/
def Slot.mayDevelop (x : Slot) : Bool := x.dark != some .awaiting && x.outcome.isSome

/-- The test of R112: with no current job in Ready, the lowest Raw shot starts its job when its dark status is not Awaiting
and its sync outcome is recorded. -/
def State.tryStartJob (s : State) : State :=
  if s.develop.job.isNone && s.member.state == .ready then
    match (lowestShot s.rawShots).bind s.slot? with
    | none => s
    | some x =>
      if x.mayDevelop then
        (s.updSlot x.shot fun y => { y with tag := .developing }).onDevelop fun d =>
          { d with job := some (newJob x (s.slotIndex x.shot) s.facing) }
      else s
  else s

/-- The job stops; the seam timer is stopped if an edge is Waiting (R131, R132). -/
def State.stopJob (s : State) : State :=
  match s.develop.job with
  | none => s
  | some j => (s.onDevelop fun d => { d with job := none }).doIf j.waiting (State.stopTimer .seam)

/-- What the Develop Engine does at the freeing of a shot's slot, but for the test of R112 (R123, R125, R128, R131). -/
def State.developFreed (n : Shot) (s : State) : State :=
  ((s.doIf (s.develop.job.any (·.shot == n)) State.stopJob).onDevelop fun d =>
    { d with owed := d.owed.filter (·.1 != n), store := d.store.filter (·.shot != n) }).cancelBulk (Msg.isSeamOf n)

/-- Owed Seams of a shot are added, one for each neighbour-facing edge, none twice (R115, R123). -/
def addOwed (n : Shot) (facing : List (Direction × Nat)) (owed : List (Shot × Direction)) : List (Shot × Direction) :=
  facing.foldl (fun l f => if l.contains (n, f.1) then l else l ++ [(n, f.1)]) owed

/-- The current job moves to another state. -/
def State.updJob (f : Job → Job) (s : State) : State := s.onDevelop fun d => { d with job := d.job.map f }

/-- The developed part of a slot area is rewritten (R111). -/
def State.rework (i : Nat) (f : List Sample → List Sample) (s : State) : State :=
  s.onRing (Ring.updArea i fun a => { a with developed := f a.developed })

/-- Do `f` with the current job when it is in a phase. -/
def State.inPhase (p : Phase) (f : Job → State → State) (s : State) : State :=
  match s.develop.job with
  | none => s
  | some j => if j.phase = p then f j s else s

/-- The waited edge takes another state (R118). -/
def Job.endWait (st : EdgeState) (j : Job) : Job :=
  { j with edges := updFirst (fun e => e.state == .waiting) (fun e => { e with state := st }) j.edges }

end Sys2Proof.Machine
end

