-- ==== Sys2Proof/Machine/RingOps.lean ====
section
/-! DEFINITION. The Ring Manager's shared operations (chapter 5): freeing a slot, the completion test, the emptying of the
ring, and admission. -/

namespace Sys2Proof.Machine

/-- The slot and the roster entry of a shot are removed together; TOP does not move (R82, R89). -/
def Ring.remove (n : Shot) (r : Ring) : Ring :=
  { r with
    slots := r.slots.map fun o => if o.any (·.shot == n) then none else o
    roster := r.roster.filter (·.shot != n) }

/-- Freeing a slot, with what each other block does at the freeing (R89). -/
def State.freeSlot (n : Shot) (s : State) : State :=
  match s.entry? n with
  | none => s
  | some e =>
    ((((s.onRing (Ring.remove n)).developFreed n).cancelBulk (Msg.isSegmentOf n)).leaveTile n |>.voidPlacement e).tryStartJob

/-- A slot tag in which a passed completion test frees the slot at once (R88). -/
def Tag.settled (t : Tag) : Bool := t == .raw || t == .developing || t == .held || t == .developed

/-- The completion test of a roster entry passes (R88). -/
def Entry.finished (e : Entry) : Bool :=
  e.parts.all (fun p => p.placement != .reserved) && e.parts.any (fun p => p.placement == .committed)

/-- The completion test, and the freeing when it passes (R88). -/
def State.completionTest (n : Shot) (s : State) : State :=
  if (s.entry? n).any Entry.finished && (s.slot? n).any (·.tag.settled) then s.freeSlot n else s

/-- A shot put into a list of rising shot numbers. -/
def insertShot (n : Shot) : List Shot → List Shot
  | [] => [n]
  | m :: ms => if n ≤ m then n :: m :: ms else m :: insertShot n ms

/-- The shots of the roster in increasing order. -/
def State.risingShots (s : State) : List Shot := (s.ring.roster.map (·.shot)).foldr insertShot []

/-- Every occupied slot is freed, in increasing order of shot number (R34, R94). -/
def State.emptyRing (s : State) : State := s.risingShots.foldl (fun t n => t.freeSlot n) s

/-- The slot index an admission looks at (R78). -/
def Ring.after (r : Ring) : Nat := (r.top + 1) % 8

/-- The Ring Manager's answer to a request for admission (R78): none admits. -/
def Ring.refusal (r : Ring) : Option RefuseReason :=
  match r.slots.getD r.after none with
  | none => none
  | some _ => if r.slots.any Option.isNone then some .blocked else some .ringFull

/-- A slot record at admission (R76). -/
def newSlot (n : Shot) (start : Time) : Slot :=
  { shot := n, tag := .exposing, ownStart := start, ownEnd := none, outcome := none, skew := none, skewed := false,
    bounces := none, limit := false, dark := none, flags := {}, tileSum := none }

/-- A placement part at admission (R81, R87). -/
def newPart (station : Node) : Part := { station := station, placement := .pending, transfer := .idle, grants := 0 }

/-- A roster entry at admission (R79, R81). -/
def State.newEntry (n : Shot) (s : State) : Entry :=
  { shot := n, slot := s.ring.after, agreedOpen := none, openTaken := false, opener := false, agreedClose := none,
    agreedDuration := none, members := s.memberNumbers, partA := (s.socketStation .a).map newPart,
    partB := (s.socketStation .b).map newPart, unmirrored := false, cursor := 0 }

/-- Admission moves TOP, sets up the slot record and makes the roster entry (R79). -/
def Ring.admitShot (n : Shot) (start : Time) (e : Entry) (r : Ring) : Ring :=
  { r with top := r.after, slots := r.slots.set r.after (some (newSlot n start)), roster := r.roster ++ [e] }

/-- A shot is admitted, and a card station decides its placement in the same event (R79, R145). -/
def State.admitShot (n : Shot) (start : Time) (s : State) : State :=
  (s.onRing (Ring.admitShot n start (s.newEntry n))).placeAtAdmission (s.newEntry n)

end Sys2Proof.Machine
end

