-- ==== Sys2Proof/Machine/DarkOps.lean ====
section
/-! DEFINITION. The Dark Unit's and the Defect Table's shared operations (chapter 6). -/

namespace Sys2Proof.Machine

/-! ## The dark slot (R96-R100) -/

/-- What marking the dark slot invalid does to a shot that was given it: a Raw tile, or a Developing tile in phase Base,
becomes None (R100). -/
def Slot.loseDark (inBase : Bool) (x : Slot) : Slot :=
  if x.dark == some .used && (x.tag == .raw || (x.tag == .developing && inBase)) then { x with dark := some .none } else x

/-- A job in phase Base with base Dark begins the phase again with BlackLevel (R116). -/
def Job.loseDark (j : Job) : Job :=
  if j.phase == .base && j.base == .dark then
    { j with base := .blackLevel, flags := { j.flags with floored := false } }
  else j

/-- The dark slot record is marked invalid, with the effects on waiting shots and on the current job (R96, R100, R116). -/
def State.invalidateDark (s : State) : State :=
  ((s.onDark fun d => { d with valid := false }).onRing fun r =>
    { r with slots := r.slots.map fun o => o.map (Slot.loseDark (s.develop.job.any (·.phase == .base))) }).updJob Job.loseDark

/-- A shot of an agreed duration needs a dark frame (R97). -/
def needsDark (st : Settings) (duration : Int) : Bool :=
  match st.darkThreshold with
  | none => false
  | some t => decide (((t * 1000 : Nat) : Int) ≤ max duration 0)

/-- The length test of R98: eight times the difference is no more than the agreed duration. -/
def lengthFits (dark : Nat) (duration : Int) : Bool := decide (((dark : Int) - duration).natAbs * 8 ≤ duration.toNat) && decide (0 ≤ duration)

/-- The dark slot is fitting for a shot (R98). -/
def State.darkFits (duration : Int) (s : State) : Bool :=
  s.dark.valid
    && (match s.dark.duration, s.dark.captureEnd with
        | some d, some e =>
          lengthFits d duration
            && decide (s.clock.linkTime.toNat - e.toNat < s.settings.darkAgeLimit * 1000000)
        | _, _ => false)

/-- A dark capture is started (R99): the dark slot becomes invalid, the capture in hand is set up, the capture state becomes
DarkExposing and the dark timer is started. -/
def State.startDark (n : Shot) (duration : Nat) (s : State) : State :=
  (((s.invalidateDark.onDark fun d =>
      { d with capture := some { phase := .exposing, shot := n, duration := duration, captureEnd := none, scanned := 0 } }).onCapture
      fun c => { c with state := .darkExposing })).loadTimer .dark ((duration + 9) / 10)

/-- The integration length of a shot's dark capture: its agreed duration, capped (R99). -/
def cappedDark (duration : Int) : Nat := min duration.toNat Config.darkCap

/-- The decision of R99 for a shot whose readout has completed: its dark status, and whether a dark capture follows. -/
def State.decideDark (n : Shot) (s : State) : DarkStatus :=
  let duration := ((s.entry? n).bind (·.agreedDuration)).getD 0
  if !needsDark s.settings duration then .notNeeded
  else if s.darkFits duration then .used
  else .awaiting

/-- An Awaiting shot of the ring takes another dark status (R103, R104, R105). -/
def State.settleAwaiting (n : Shot) (d : DarkStatus) (s : State) : State :=
  s.updSlot n fun x => if x.dark == some .awaiting then { x with dark := some d } else x

/-- The dark capture in hand is abandoned: the sensor port stops, the dark timer is stopped in phase Exposing, an Awaiting
shot becomes None, and the capture in hand and the exposure in hand end (R104, R105). MODEL'S CHOICE (log 58): a readout abandoned
before its completion leaves the dark slot area as it was; the spec is silent there. -/
def State.abandonDark (s : State) : State :=
  match s.dark.capture with
  | none => s
  | some c =>
    ((((s.doIf (c.phase == .exposing) (State.stopTimer .dark)).doIf (c.shot != 0#32)
      (State.settleAwaiting c.shot .none)).onDark fun d => { d with capture := none }).onCapture
      fun k => { k with exposure := none }).tryStartJob

/-- The current dark capture changes. -/
def State.updDarkCapture (f : DarkCapture → DarkCapture) (s : State) : State :=
  s.onDark fun d => { d with capture := d.capture.map f }

/-! ## The Defect Table (R107-R109) -/

/-- Row-then-column order of positions. -/
def Defect.before (a b : Defect) : Bool := decide (a.row < b.row) || (a.row == b.row && decide (a.column < b.column))

/-- An entry put in its place in row-then-column order (R108). -/
def insertDefect (e : Defect) : List Defect → List Defect
  | [] => [e]
  | d :: ds => if e.before d then e :: d :: ds else d :: insertDefect e ds

/-- Whether the table holds an entry at a position, of either origin. -/
def Dark.holds (row column : Nat) (d : Dark) : Bool := d.defects.any fun e => e.row == row && e.column == column

/-- The table holds 1024 entries. -/
def Dark.full (d : Dark) : Bool := decide (Config.defectCapacity ≤ d.defects.length)

/-- An insertion (R108). An insertion of origin Hot that finds the table full counts. -/
def Dark.insert (row column : Nat) (origin : Origin) (d : Dark) : Dark :=
  if d.holds row column then d
  else if d.full then
    (match origin with
     | .fixed => d
     | .hot => { d with overflow := satInc Config.count16Limit d.overflow })
  else { d with defects := insertDefect { row := row, column := column, origin := origin } d.defects }

/-! ## The dark scan (R102) -/

/-- The indices, from `i` on, of the samples that are greater than HotThreshold. -/
def hotIndices (threshold : Nat) : Nat → List Sample → List Nat
  | _, [] => []
  | i, v :: vs => if threshold < v.toNat then i :: hotIndices threshold (i + 1) vs else hotIndices threshold (i + 1) vs

/-- The hot pixels that the scan has still to visit (R102; log 32). -/
def State.hotAhead (c : DarkCapture) (s : State) : List Nat :=
  hotIndices s.settings.hotThreshold c.scanned ((s.dark.samples.take (pixelCount s.settings)).drop c.scanned)

/-- The scan asks for the Hot insertion of one pixel and goes on to the next (R102). -/
def State.insertHot (i : Nat) (s : State) : State :=
  s.onDark fun d =>
    { Dark.insert (i / s.settings.tileColumns) (i % s.settings.tileColumns) .hot d with
      capture := d.capture.map fun c => { c with scanned := i + 1 } }

end Sys2Proof.Machine
end

