-- ==== Sys2Proof/Machine/CaptureOps.lean ====
section
/-! DEFINITION. The Capture Controller's shared operations (chapter 4): the settling of the capture state, the record of the
sync outcome, the end of integration, triggers, drops and halts. -/

namespace Sys2Proof.Machine

/-! ## The capture state (R54) -/

/-- The state that would next become Armed becomes Armed, or Disarmed or Halted where a pending flag so directs; both flags
are clear afterwards (R54; log 18). -/
def Capture.settle (c : Capture) : Capture :=
  { c with
    state := if c.haltPending then .halted else if c.disarmPending then .disarmed else .armed
    haltPending := false
    disarmPending := false }

/-- The pending release becomes none and the release alarm is cancelled (R72). -/
def State.cancelRelease (s : State) : State :=
  (s.onCapture fun c => { c with pendingRelease := none }).onClock fun c => { c with alarm := none }

/-- Whether the station has work in hand at the sensor tile. -/
def CaptureState.working (c : CaptureState) : Bool :=
  c == .exposing || c == .reading || c == .darkExposing || c == .darkReading

/-- The station exposes a shot. -/
def State.exposes (n : Shot) (s : State) : Bool :=
  s.capture.state == .exposing && s.capture.exposure.any (·.shot == n)

/-- The station exposes or reads a shot. -/
def State.exposesOrReads (n : Shot) (s : State) : Bool :=
  (s.capture.state == .exposing || s.capture.state == .reading) && s.capture.exposure.any (·.shot == n)

/-! ## The sensor tile port (R53) -/

/-- Where the port puts what it integrates and reads out: the slot area of a slot index, or the dark slot (R53). -/
inductive PortTarget
  | area (slot : Nat)
  | darkSlot
  deriving DecidableEq, Repr

/-- What the port is asked to do (R53). -/
inductive PortWork
  | idle
  | flush
  | integrate (target : PortTarget)
  | readOut (target : PortTarget)
  deriving DecidableEq, Repr

/-- The slot area of the shot in hand. -/
def State.portArea (s : State) : Option PortTarget := s.capture.exposure.map fun x => .area (s.slotIndex x.shot)

/-- The Capture Controller drives the sensor tile port according to the capture state (R53). A dark readout is over when the
dark scan has begun, and the port is asked nothing while it runs (R102). -/
def State.port (s : State) : PortWork :=
  match s.capture.state with
  | .disarmed => .idle
  | .halted => .idle
  | .armed => .flush
  | .exposing => (s.portArea.map PortWork.integrate).getD .idle
  | .reading => (s.portArea.map PortWork.readOut).getD .idle
  | .darkExposing => .integrate .darkSlot
  | .darkReading => if s.dark.capture.any (·.phase == .reading) then .readOut .darkSlot else .idle

/-! ## Sync outcome and skew (R60) -/

/-- The sync outcome of an own edge time against the agreed open (R60). -/
def syncOutcome (tolerance : Nat) (ownEdge : Option Time) (agreed : Time) : SyncOutcome :=
  match ownEdge with
  | none => .unobserved
  | some e =>
    if (e.toNat : Int) - agreed.toNat < -(tolerance : Int) then .earlier
    else if (tolerance : Int) < (e.toNat : Int) - agreed.toNat then .later
    else .equal

/-- The sync outcome, the skew and the Skewed flag are written into the slot record (R60). -/
def Slot.recordSync (tolerance : Nat) (ownEdge : Option Time) (agreed : Time) (x : Slot) : Slot :=
  { x with
    outcome := some (syncOutcome tolerance ownEdge agreed)
    skew := some ((x.ownStart.toNat : Int) - agreed.toNat)
    skewed := decide (tolerance < ((x.ownStart.toNat : Int) - agreed.toNat).natAbs) }

/-- The attribution window of a shot is over: its timer has expired, or a later trigger has taken its place (R60). A timer that is
stopped has not expired (log 55). -/
def State.windowOver (n : Shot) (s : State) : Bool := n != s.capture.current || s.capture.windowEnded

/-- The own edge time of the exposure in hand, where it is for the shot (R60; log 29). -/
def State.ownEdgeOf (n : Shot) (s : State) : Option Time :=
  (s.capture.exposure.filter (·.shot == n)).bind (·.ownEdge)

/-- The sync outcome and the skew of a shot are recorded once, when its window is over and its agreed open is present; the
develop test follows (R60, R112). -/
def State.recordOutcome (n : Shot) (s : State) : State :=
  match s.slot? n, (s.entry? n).bind (·.agreedOpen) with
  | some x, some a =>
    if x.outcome.isNone && s.windowOver n then
      (s.updSlot n (Slot.recordSync s.settings.skewTolerance (s.ownEdgeOf n) a)).tryStartJob
    else s
  | _, _ => s

/-- The agreed duration that an agreed open and an agreed close give (R62). -/
def Entry.settleDuration (e : Entry) : Entry :=
  match e.agreedOpen, e.agreedClose with
  | some o, some c => { e with agreedDuration := some ((c.toNat : Int) - o.toNat) }
  | _, _ => e

/-- An agreed open is recorded where it is absent (R60, R62). -/
def Entry.openAt (t : Time) (e : Entry) : Entry :=
  match e.agreedOpen with
  | none => Entry.settleDuration { e with agreedOpen := some t }
  | some _ => e

/-- An agreed close is recorded where it is absent (R62, R65). -/
def Entry.closeAt (t : Time) (e : Entry) : Entry :=
  match e.agreedClose with
  | none => Entry.settleDuration { e with agreedClose := some t }
  | some _ => e

/-- The opener raises ShotOpened, from the slot record and the agreed open (R61). -/
def State.raiseShotOpened (n : Shot) (s : State) : State :=
  match s.slot? n, s.entry? n with
  | some x, some e =>
    match x.ownEnd with
    | none => s
    | some t =>
      s.raise (.shotOpened n (e.agreedOpen.getD 0#64) t x.limit (BitVec.ofNat 8 (x.bounces.getD 0)))
  | _, _ => s

/-- The first Open of a shot settles its opener, who raises ShotOpened here when integration has already ended (R60, R61;
log 17). -/
def State.settleOpener (source : Node) (n : Shot) (s : State) : State :=
  match s.entry? n with
  | none => s
  | some e =>
    if e.openTaken then s
    else (s.updEntry n fun x => { x with openTaken := true, opener := source == s.self }).doIf (source == s.self)
      (State.raiseShotOpened n)

/-- The agreed open of a shot becomes present where it is absent, and the outcome is recorded where its window is over; where it
is present, nothing changes (R60, R65). -/
def State.agreeOpen (n : Shot) (t : Time) (s : State) : State :=
  if (s.entry? n).any (·.agreedOpen.isNone) then (s.updEntry n (Entry.openAt t)).recordOutcome n else s

/-- An Open of a shot is taken, as a trigger or as an observation (R60). -/
def State.takeAgreedOpen (source : Node) (n : Shot) (t : Time) (s : State) : State := (s.agreeOpen n t).settleOpener source n

/-! ## End of integration (R61-R65) -/

/-- A timer is stopped if it is still running. -/
def State.stopRunning (id : TimerId) (s : State) : State := s.doIf (s.timer id).running (State.stopTimer id)

/-- The slot record at the end of integration (R61). -/
def Slot.endIntegration (x : Exposure) (ownEnd : Time) (bounces : Nat) (r : Slot) : Slot :=
  { r with tag := .reading, ownStart := x.ownStart, ownEnd := some ownEnd, limit := x.limit, bounces := some bounces }

/-- In Pulse mode the agreed duration is the shutter time of the exposure in hand (R63). -/
def Entry.pulseDuration (shutter : Nat) (e : Entry) : Entry := { e with agreedDuration := some (shutter : Int) }

/-- Integration of the exposure in hand ends (R61), with the values R63 and R65 supply. -/
def State.endIntegration (ownEnd : Time) (s : State) : State :=
  match s.capture.exposure with
  | none => s
  | some x =>
    let s1 := (s.stopRunning .exposureLimit).stopRunning .pulse
    let s2 := (s1.onCapture fun c => { c with state := .reading }).updSlot x.shot
      (Slot.endIntegration x ownEnd s1.sync.bounces)
    let s3 := (s2.onSync fun y => { y with bounces := 0 }).doIf (s2.settings.syncMode == .pulse)
      (State.updEntry x.shot (Entry.pulseDuration x.shutter))
    let s4 := s3.agreeOpen x.shot x.ownStart
    s4.doIf ((s4.entry? x.shot).any (·.opener)) (State.raiseShotOpened x.shot)

/-- Whether a Close of a shot has already been taken (R62, R64). -/
def State.closeKnown (n : Shot) (s : State) : Bool := (s.entry? n).any (·.agreedClose.isSome)

/-- The limit flag of a first Close goes to the exposure in hand while the shot is exposed, else to its slot record (R62). -/
def State.markLimit (n : Shot) (s : State) : State :=
  if s.exposes n then s.onCapture fun c => { c with exposure := c.exposure.map fun x => { x with limit := true } }
  else s.updSlot n fun x => { x with limit := true }

/-! ## Triggers (R56-R59) -/

/-- An own closing edge is an observation of a shot (R56). -/
def State.observe (n : Shot) (t : Time) (s : State) : State :=
  match s.capture.exposure with
  | none => s
  | some x =>
    if x.shot = n ∧ x.ownEdge = none ∧ (s.slot? n).any (·.outcome.isNone) then
      s.onCapture fun c => { c with exposure := some { x with ownEdge := some t } }
    else s

/-- The BurstPolicy of a reason (R59). -/
def Settings.policy (st : Settings) : RefuseReason → Policy
  | .ringFull => st.ringFullPolicy
  | .blocked => st.blockedPolicy
  | .sensorBusy => st.sensorBusyPolicy
  | .notArmed => .drop
  | .exhausted => .drop

/-- The admission decision of R59: the reason of a refusal, or none for an admission. -/
def State.admissionRefusal (n : Shot) (s : State) : Option RefuseReason :=
  if n = lastShot then some .exhausted
  else match s.capture.state with
    | .disarmed => some .notArmed
    | .halted => some .notArmed
    | .exposing => some .sensorBusy
    | .reading => some .sensorBusy
    | _ => s.ring.refusal

/-- The exposure in hand at an admission (R59). -/
def newExposure (n : Shot) (edge : Option Time) (start : Time) (shutter : Nat) : Exposure :=
  { shot := n, ownEdge := edge, ownStart := start, shutter := shutter, limit := false }

/-- A shot is admitted at a trigger: slot, roster entry and placement, integration, the exposure in hand and its timers, and
Open where the trigger was an own edge (R59). -/
def State.admitTrigger (n : Shot) (edge : Option Time) (start : Time) (s : State) : State :=
  let s1 := (s.admitShot n start).onCapture fun c =>
    { c with state := .exposing, exposure := some (newExposure n edge start c.shutter) }
  let s2 := (s1.loadTimer .exposureLimit (s1.settings.exposureLimit * 10)).doIf (s1.settings.syncMode == .pulse)
    (State.loadTimer .pulse ((s1.capture.shutter + 9) / 10))
  match edge with
  | none => s2
  | some t => s2.broadcast (.openShot n t)

/-- Admission is decided (R59). -/
def State.decideAdmission (n : Shot) (edge : Option Time) (start : Time) (s : State) : State :=
  match s.admissionRefusal n with
  | some r => s.broadcast (.refuse n r (s.settings.policy r))
  | none => s.admitTrigger n edge start

/-- Step 1 of a trigger: a dark capture in hand is abandoned, its ReadDone is queued with the dark-follows flag clear
(log 44), and the capture state is settled (R58, R104). -/
def State.giveWay (s : State) : State :=
  if s.capture.state == .darkExposing || s.capture.state == .darkReading then
    match s.dark.capture with
    | none => s.onCapture fun c => ({ c with exposure := none } : Capture).settle
    | some c => (s.abandonDark.broadcast (.readDone c.shot .dark false)).onCapture Capture.settle
  else s

/-- The quiet set is filled with every member, and the quiet timer restarted (R58, R70); a bulk frame on the link is withdrawn
(R16). -/
def State.fillQuiet (s : State) : State :=
  ((s.onCapture fun c => { c with quiet := s.memberNumbers }).loadTimer .quiet ((2 * s.settings.exposureLimit + 4) * 10)).doIf
    (!s.memberNumbers.isEmpty) (State.onLink Link.withdraw)

/-- The next shot number after a trigger (R58, R80). -/
def nextShot (n : Shot) : Shot := if n = lastShot then n else n + 1#32

/-- Steps 1 to 4 of a trigger (R58). The restart of the attribution timer takes the place of its expiry for the shot before
(R60). -/
def State.beginTrigger (n : Shot) (s : State) : State :=
  let s1 := s.giveWay.onRing fun r => { r with next := nextShot n }
  (((s1.onCapture fun c => { c with current := n, windowEnded := false }).loadTimer .attribution Config.attributionWindow).recordOutcome
    s1.capture.current).fillQuiet

/-- A trigger by an own closing edge or by an Open (R58). -/
def State.trigger (n : Shot) (edge : Option Time) (start : Time) (s : State) : State :=
  (s.beginTrigger n).decideAdmission n edge start

/-- An Open or a Refuse names a shot that is still to be triggered (R57): raised past the next shot number, or equal to it,
but for the last number taken while it is the current shot. -/
def State.triggers (n : Shot) (s : State) : Bool :=
  decide (s.ring.next ≤ n) && !(n == lastShot && s.capture.current == lastShot)

/-- The next shot number is raised to the number a frame names (R57). -/
def State.raiseNext (n : Shot) (s : State) : State :=
  s.onRing fun r => { r with next := if r.next < n then n else r.next }

/-! ## Refusal and Halt (R66, R67) -/

/-- The quiet set is emptied and the quiet timer stopped (R66, R69). -/
def State.clearQuiet (s : State) : State := (s.onCapture fun c => { c with quiet := [] }).stopTimer .quiet

/-- Step 1 of a drop: the integration or readout of the shot is abandoned (R66). -/
def State.abandonShot (n : Shot) (s : State) : State :=
  if s.exposesOrReads n then
    ((s.stopRunning .exposureLimit).stopRunning .pulse).onCapture fun c => ({ c with exposure := none } : Capture).settle
  else s

/-- The slot of a shot is freed if it is tagged Exposing or Reading (R66, R92). -/
def State.freeUnread (n : Shot) (s : State) : State :=
  s.doIf ((s.slot? n).any fun x => x.tag == .exposing || x.tag == .reading) (State.freeSlot n)

/-- The station halts at a Refuse with policy Halt (R67), in Configuring too, where R52 has the capture state Disarmed
(log 43). -/
def State.halt (source : Node) (n : Shot) (reason : RefuseReason) (s : State) : State :=
  (s.cancelRelease.onCapture fun c =>
    match c.state with
    | .armed => { c with state := .halted, disarmPending := false }
    | .disarmed => { c with state := .halted, disarmPending := false }
    | .halted => c
    | _ => { c with haltPending := true }).doIf (source == s.self) (State.raise (.halted n reason))

/-- A refused shot is dropped (R66). -/
def State.dropShot (source : Node) (n : Shot) (reason : RefuseReason) (policy : Policy) (s : State) : State :=
  (((s.abandonShot n).freeUnread n).doIf (n == s.capture.current) State.clearQuiet
    |>.doIf (source == s.self) (State.raise (.shotDropped n reason policy))).doIf (policy == .halt)
    (State.halt source n reason)

end Sys2Proof.Machine
end

