-- ==== Sys2Proof/Machine/RollCallOps.lean ====
section
/-! DEFINITION. The Membership Unit's shared operations (chapter 2): setting up and ending a roll call, exclusion, and what
becomes of a frame that is taken, by station state. -/

namespace Sys2Proof.Machine

/-- The station's Roll as it stands (R23, R29). -/
def State.ownRoll (rejoin : Bool) (s : State) : Msg :=
  .roll (s.self.setWidth 8) s.member.serial s.member.straps.fitted s.ring.next rejoin

/-- The station's Roll is queued at the end of its wait (R23). -/
def State.sendRoll (s : State) : State := s.broadcast (s.ownRoll s.member.rejoin)

/-- A start of the roll timer with the station number as wait; the wait of station 0 is complete when it is made, and its
expiry is handled in the same event (R23, R45). -/
def State.startWait (s : State) : State :=
  (s.loadTimer .roll s.self.toNat).doIf (s.self == 0#3) (State.onExpiry .roll State.sendRoll)

/-- A new roll call is set up (R23). -/
def State.setupRollCall (rejoin : Bool) (s : State) : State :=
  (s.onMember fun m =>
    { m with state := .rolling, table := [], highest := s.ring.next, ownRollOut := false, rejoin := rejoin }).startWait

/-- A held frame joins its queue when the roll call has ended (R22). -/
def Link.flushRollHeld (l : Link) : Link := l.rollHeld.foldl (fun k f => k.give f) { l with rollHeld := [] }

/-- The frames held during Rolling and the owed Seams are discarded (R22, R123). -/
def State.discardHeld (s : State) : State :=
  (s.onLink fun l => { l with rollHeld := [] }).onDevelop fun d => { d with owed := [] }

/-- Exclusion (R26). -/
def State.exclude (s : State) : State :=
  ((s.stopTimer .roll).onMember fun m => { m with state := .excluded }).discardHeld

/-- The socket letter of a card station (R134). -/
def State.settleLetter (s : State) : State :=
  s.doIf s.cardStation (State.onCard fun c =>
    { c with letter := some (if s.cardMembers.any (fun m => decide (m < s.self)) then .b else .a) })

/-- Whether the member table holds the same numbers with the same serials as the retained one (R27). -/
def Membership.unchanged (m : Membership) : Bool := m.table.map (fun e => (e.number, e.serial)) == m.retained

/-- What begins when the station state becomes Ready: re-placement, development and transfer (R112, R147, R153). -/
def State.enterReady (s : State) : State := (s.rePlace.tryStartJob).chooseTile

/-- The end of a roll call into Configuring or Ready: the socket letter is settled and the held frames are queued. -/
def State.leaveRolling (st : StationState) (s : State) : State :=
  ((s.settleLetter).onMember fun m => { m with state := st }).onLink Link.flushRollHeld

/-- The end of a roll call (R27). -/
def State.endRollCall (s : State) : State :=
  let s1 := s.onRing fun r => { r with next := s.member.highest }
  if s.member.table.any (·.duplicated) then (s1.onMember fun m => { m with state := .duplicate }).discardHeld
  else if s.member.retainedValid && s.member.unchanged then
    ((s1.leaveRolling .ready).onCapture fun c => { c with state := .disarmed }).enterReady
  else if s.member.retainedValid then
    ((s1.onMember fun m => { m with retainedValid := false }).emptyRing).leaveRolling .configuring
  else s1.leaveRolling .configuring

/-! ## A frame taken (R20, R22, R26) -/

/-- The member table holds another station (R26). A station is another one by its station number alone: an entry of this
station's number with another unit's serial is none (log 42). -/
def State.hearsOthers (s : State) : Bool := s.member.table.any fun m => m.number != s.self

/-- How a block's frames stand under R22 and R26: capture frames, Marks, Requests, and the rest. -/
inductive Taken
  | capture | mark | request | other
  deriving DecidableEq, Repr

/-- A frame handled in the station state as it stands (R22, R30): in Excluded and Duplicate only Marks and Requests are; on
a station rolling with the rejoin flag capture frames are disregarded. -/
def State.takeSettled (k : Taken) (handle : State → State) (s : State) : State :=
  match s.member.state with
  | .configuring => handle s
  | .ready => handle s
  | .rolling => if k = .capture then s else handle s
  | .excluded => if k = .mark ∨ k = .request then handle s else s
  | .duplicate => if k = .mark ∨ k = .request then handle s else s

/-- A station rolling without the rejoin flag tests a frame other than Roll, Restart and Wake under R26. -/
def State.testsFrames (s : State) : Bool := s.member.state == .rolling && !s.member.rejoin

/-- The test of R26: the frame ends the roll call, or excludes the station. -/
def State.metByFrame (s : State) : State := if s.member.ownRollOut && s.hearsOthers then s.endRollCall else s.exclude

/-- A frame other than Roll, Restart and Wake is taken (R20, R22, R26). A station in Sleep takes none. A station rolling
without the rejoin flag is excluded by it, or ends its roll call, and the frame is then handled in the state that results. -/
def State.take (k : Taken) (handle : State → State) (s : State) : State :=
  if s.power.state == .sleep then s
  else if s.testsFrames then s.metByFrame.takeSettled k handle
  else s.takeSettled k handle

end Sys2Proof.Machine
end

