-- ==== Sys2Proof/Machine/Expiries.lean ====
section
/-! DEFINITION. The timers' expiries (R44, R46): what each does at its owner, the command that delivers it, and the delivery of
what is due ahead of every other event. -/

namespace Sys2Proof.Machine

/-! ## What an expiry does -/

/-- The roll timer's expiry: the wait ends and the station's Roll is queued, or the window ends the roll call; outside Rolling it
has no effect (R23, R25, R27). -/
def State.rollExpiry (s : State) : State :=
  if s.member.state == .rolling then (if s.member.ownRollOut then s.endRollCall else s.sendRoll) else s

/-- A Mark. -/
def isMark : Msg → Bool
  | .mark _ => true
  | _ => false

/-- At an expiry of the mark timer one Mark is queued where R41 allows it; its time is written at each offer (R39). -/
def State.markExpiry (s : State) : State :=
  s.doIf (s.running && !s.link.controlMsgs.any isMark) (State.broadcast (.mark 0#64))

/-- The attribution timer's expiry ends the window of the current shot (R60). -/
def State.attributionExpiry (s : State) : State :=
  (s.onCapture fun c => { c with windowEnded := true }).recordOutcome s.capture.current

/-- The pulse timer's expiry ends integration in Pulse mode (R63). -/
def State.pulseExpiry (s : State) : State :=
  s.doIf (s.capture.state == .exposing && s.settings.syncMode == .pulse) (State.endIntegration s.clock.linkTime)

/-- The exposure limit's expiry ends integration with the limit flag, and queues Close in Follow mode unless one has been taken
(R64). The shot in hand is the one the timer was started for: a trigger finds every expiry delivered. -/
def State.limitExpiry (s : State) : State :=
  match s.capture.exposure with
  | none => s
  | some x =>
    if s.capture.state == .exposing then
      ((s.markLimit x.shot).endIntegration s.clock.linkTime).doIf
        (s.settings.syncMode == .follow && !s.closeKnown x.shot) (State.broadcast (.closeShot x.shot s.clock.linkTime true))
    else s

/-- The dark integration ends and its readout starts (R101). -/
def State.darkExpiry (s : State) : State :=
  if s.capture.state == .darkExposing then
    (s.onCapture fun c => { c with state := .darkReading }).updDarkCapture fun c =>
      { c with phase := .reading, captureEnd := some s.clock.linkTime }
  else s

/-- The quiet timer's expiry empties the quiet set and raises QuietTimeout (R70). -/
def State.quietExpiry (s : State) : State :=
  (s.onCapture fun c => { c with quiet := [] }).raise (.quietTimeout s.capture.current s.capture.quiet)

/-- The seam timer has expired while an edge waits: it becomes OneSided, and the next edge is taken (R118). -/
def State.timeOutEdge (j : Job) (s : State) : State :=
  if j.waiting then
    (s.updJob fun k => { k.endWait .oneSided with flags := { k.flags with seamMissing := true } }).resolve
  else s

/-- The seam timer's expiry reaches the Develop Engine (R118). -/
def State.seamExpiry (s : State) : State := s.inPhase .edge State.timeOutEdge

/-- What a timer's expiry does at its owner (R46). -/
def TimerId.handle : TimerId → State → State
  | .roll => State.rollExpiry
  | .mark => State.markExpiry
  | .attribution => State.attributionExpiry
  | .pulse => State.pulseExpiry
  | .exposureLimit => State.limitExpiry
  | .dark => State.darkExpiry
  | .quiet => State.quietExpiry
  | .seam => State.seamExpiry

/-- A timer's expiry is delivered, where it is due (R44). -/
def State.expire (id : TimerId) (s : State) : State := s.onExpiry id id.handle

/-! ## What is due comes first (R44) -/

/-- The timers, in the order of the table of R46. -/
def TimerId.all : List TimerId := [.roll, .mark, .attribution, .pulse, .exposureLimit, .dark, .quiet, .seam]

/-- The expiries that are due, delivered in the order of the table of R46; in Sleep none is (R44, R47; log 6). -/
def State.expiriesFirst (s : State) : State :=
  if s.power.state = .sleep then s else TimerId.all.foldl (fun t id => t.expire id) s

/-- An event of the station other than Start and an expiry: an expiry whose edge lies before it is delivered before it (R44;
log 34). -/
def State.event (handle : State → State) (s : State) : Host.Outcome State Fault Refusal := .next (handle s.expiriesFirst)

/-! ## The expiry commands -/

/-- The station is rolling, with its own Roll out or not. -/
def State.rollingWith (out : Bool) (s : State) : Bool := s.member.state == .rolling && s.member.ownRollOut == out

/-- ROLL_WAIT_EXPIRY (R23): the wait ends, and the station's Roll is queued. -/
def execRollWaitExpiry (s : State) : Host.Outcome State Fault Refusal :=
  .next (s.doIf (s.rollingWith false) (State.expire .roll))

/-- ROLL_WINDOW_EXPIRY (R25, R27): the roll call ends. An expiry outside Rolling has no effect. -/
def execRollWindowExpiry (s : State) : Host.Outcome State Fault Refusal :=
  .next (s.doIf (!s.rollingWith false) (State.expire .roll))

/-- MARK_TIMER_EXPIRY (R41). -/
def execMarkTimerExpiry (s : State) : Host.Outcome State Fault Refusal := .next (s.expire .mark)

/-- ATTRIBUTION_EXPIRY (R60). -/
def execAttributionExpiry (s : State) : Host.Outcome State Fault Refusal := .next (s.expire .attribution)

/-- PULSE_TIMER_EXPIRY (R63). -/
def execPulseTimerExpiry (s : State) : Host.Outcome State Fault Refusal := .next (s.expire .pulse)

/-- EXPOSURE_LIMIT_EXPIRY (R64). -/
def execExposureLimitExpiry (s : State) : Host.Outcome State Fault Refusal := .next (s.expire .exposureLimit)

/-- DARK_TIMER_EXPIRY (R101). -/
def execDarkTimerExpiry (s : State) : Host.Outcome State Fault Refusal := .next (s.expire .dark)

/-- QUIET_TIMER_EXPIRY (R70). -/
def execQuietTimerExpiry (s : State) : Host.Outcome State Fault Refusal := .next (s.expire .quiet)

/-- SEAM_TIMER_EXPIRY (R118). -/
def execSeamTimerExpiry (s : State) : Host.Outcome State Fault Refusal := .next (s.expire .seam)

end Sys2Proof.Machine
end

