-- ==== Sys2Proof/Machine/Clock.lean ====
section
/-! DEFINITION. The Station Clock's commands (chapter 3): tap edges with the channels' actions, Marks, the release alarm
and the release pulse. -/

namespace Sys2Proof.Machine

/-! ## The release alarm (R48, R49) -/

/-- The alarm fires: it is disarmed, the release pulse starts, and the release is no longer pending (R48, R49, R72). -/
def State.fireAlarm (s : State) : State :=
  (s.onClock fun c => { c with alarm := none, pulse := some 0 }).onCapture fun k => { k with pendingRelease := none }

/-- The alarm is armed and its target is reached or passed (R48). -/
def Clock.alarmDue (c : Clock) : Bool := c.alarm.any fun t => decide (t ≤ c.linkTime)

/-- The alarm compares link time with its target at once (R48). -/
def State.testAlarm (s : State) : State := s.doIf s.clock.alarmDue State.fireAlarm

/-- Link time moves forward some microseconds (R38, R40), and the alarm compares. -/
def State.advance (k : Nat) (s : State) : State :=
  (s.onClock fun c => { c with linkTime := Time.plus c.linkTime k }).testAlarm

/-! ## Taps and channels (R42-R44) -/

/-- A channel at an edge of its tap (R44). -/
def Timer.edge (continuous : Bool) (t : Timer) : Timer :=
  match t.request with
  | .load n => { t with count := .counting n n, request := .none }
  | .stop => { t with count := .idle, request := .none }
  | .none =>
    match t.count with
    | .idle => t
    | .counting p n =>
      if 1 < p then { t with count := .counting (p - 1) n }
      else { t with count := if continuous then .counting n n else .idle, due := true }

/-- The channels of the fine tap (R46). -/
def Timers.fineEdge (t : Timers) : Timers :=
  { t with attribution := t.attribution.edge false, pulse := t.pulse.edge false, dark := t.dark.edge false }

/-- The channels of the milli tap (R46). -/
def Timers.milliEdge (t : Timers) : Timers :=
  { t with roll := t.roll.edge false, mark := t.mark.edge true, seam := t.seam.edge false }

/-- The channels of the coarse tap (R46). -/
def Timers.coarseEdge (t : Timers) : Timers :=
  { t with exposureLimit := t.exposureLimit.edge false, quiet := t.quiet.edge false }

/-- The release pulse counts a fine edge; at the 2000th the output returns to its inactive level (R49). -/
def countPulse (p : Option Nat) : Option Nat := p.bind fun n => if n + 1 < Config.pulseEdges then some (n + 1) else none

/-- Every 100th fine edge is a milli edge, and every 100th milli edge a coarse edge (R42). -/
def Clock.edge (c : Clock) : Clock :=
  let fine := { c with sinceFine := 0, sinceMilli := c.sinceMilli + 1, pulse := countPulse c.pulse,
                       timers := c.timers.fineEdge }
  if c.sinceMilli + 1 < 100 then fine
  else
    let milli := { fine with sinceMilli := 0, sinceCoarse := c.sinceCoarse + 1, timers := fine.timers.milliEdge }
    if c.sinceCoarse + 1 < 100 then milli
    else { milli with sinceCoarse := 0, timers := milli.timers.coarseEdge }

/-- Microseconds of the local oscillator up to the next fine edge (R42). -/
def Clock.untilEdge (c : Clock) : Nat := 10 - c.sinceFine

/-- The next fine edge: the microseconds before it are counted, the channels and the pulse act at it, and link time comes to
the edge (R38, R42; log 5). -/
def State.edge (s : State) : State :=
  ((s.advance (s.clock.untilEdge - 1)).onClock Clock.edge).advance 1

/-- One microsecond of the local oscillator that is no tap edge. -/
def State.microsecond (s : State) : State :=
  (s.onClock fun c => { c with sinceFine := c.sinceFine + 1 }).advance 1

/-- TAP_EDGE (R42-R44, R49). -/
def execTapEdge (s : State) : Host.Outcome State Fault Refusal := s.event State.edge

/-! ## Marks (R40, R41) -/

/-- Link time is stepped forward when the Mark's time is greater than the frame-start time (R40). -/
def State.stepTo (time frameStart : Time) (s : State) : State :=
  if frameStart < time then s.advance (time.toNat - frameStart.toNat) else s

/-- A Mark is taken by the Station Clock: link time steps, and the mark timer is restarted (R40, R41). -/
def State.clockMark (time frameStart : Time) (s : State) : State :=
  (s.stepTo time frameStart).loadTimer .mark Config.markInterval

/-- A Mark taken, in the station state as it stands. -/
def State.takeMark (time frameStart : Time) (s : State) : State := s.take .mark (State.clockMark time frameStart)

/-- MARK_TAKEN (R26, R40, R41). -/
def execMarkTaken (_source : Node) (time frameStart : Time) (s : State) : Host.Outcome State Fault Refusal :=
  s.event (State.takeMark time frameStart)

/-! ## Release -/

/-- Link time counts on to the armed target where no tap edge lies before it, and the alarm fires (R48; log 7). -/
def State.countToAlarm (s : State) : State :=
  match s.clock.alarm with
  | none => s
  | some t =>
    if t ≤ s.clock.linkTime then s.fireAlarm
    else if t.toNat - s.clock.linkTime.toNat < s.clock.untilEdge then
      (s.onClock fun c => { c with sinceFine := c.sinceFine + (t.toNat - c.linkTime.toNat) }).advance
        (t.toNat - s.clock.linkTime.toNat)
    else s

/-- RELEASE_ALARM_FIRE (R48, R49, R72). -/
def execReleaseAlarmFire (s : State) : Host.Outcome State Fault Refusal := s.event State.countToAlarm

/-- The 2000th fine edge of the release pulse, where the next fine edge is it (R49; log 7). -/
def State.endPulse (s : State) : State := s.doIf (s.clock.pulse == some (Config.pulseEdges - 1)) State.edge

/-- RELEASE_PULSE_END (R49): the fine edge at which the output returns. -/
def execReleasePulseEnd (s : State) : Host.Outcome State Fault Refusal := s.event State.endPulse

end Sys2Proof.Machine
end

