-- ==== Sys2Proof/Machine/Power.lean ====
section
/-! DEFINITION. The Power Controller (chapter 11): Doze, entry into Sleep, the return from Doze, wakes, and the commands
SLEEP_ENTRY and WAKE_TAKEN. -/

namespace Sys2Proof.Machine

/-! ## Doze (R182, R185) -/

/-- Armed or Halted: the capture states that entry into Doze forces to Disarmed at once (R74, R182). -/
def CaptureState.forced (c : CaptureState) : Bool := c == .armed || c == .halted

/-- The Capture Controller's timers are stopped (R47). -/
def Timers.haltCapture (t : Timers) : Timers :=
  { t with attribution := t.attribution.halt, pulse := t.pulse.halt, exposureLimit := t.exposureLimit.halt,
           dark := t.dark.halt, quiet := t.quiet.halt }

/-- The capture state is forced toward Disarmed, and the pending release cancelled (R74); where it is forced to Disarmed at
once, the Capture Controller's timers are stopped (R47; log 41). -/
def State.captureDoze (s : State) : State :=
  (s.cancelRelease.doIf s.capture.state.forced (State.onClock fun c => { c with timers := c.timers.haltCapture })).onCapture
    fun c =>
      if c.state.working then { c with disarmPending := true, haltPending := false }
      else { c with state := .disarmed, haltPending := false }

/-- Entry into Doze (R182). -/
def State.enterDoze (s : State) : State :=
  (s.onPower fun p => { p with state := .doze, sleepPending := true }).captureDoze

/-- Return from Doze to Active (R185). -/
def State.leaveDoze (s : State) : State :=
  s.doIf (s.power.state == .doze) (State.onPower fun p => { p with state := .active, sleepPending := false })

/-! ## Entry into Sleep (R183, R184) -/

/-- Both queues are empty and no frame is held for either; at a Detached station the condition holds whatever they hold
(R183). -/
def Link.drained (l : Link) : Bool :=
  l.detached || (l.urgent.isEmpty && l.control.isEmpty && l.urgentHeld.isEmpty && l.controlHeld.isEmpty)

/-- The sleep conditions (R183). -/
def State.maySleep (s : State) : Bool :=
  s.ring.slots.all Option.isNone && s.card.placements.isEmpty && s.develop.job.isNone && s.link.drained

/-- The open level of the sync contact (R50). -/
def SyncPolarity.openLevel : SyncPolarity → Level
  | .closedLow => .high
  | .closedHigh => .low

/-- The closed level of the sync contact (R50). -/
def SyncPolarity.closedLevel : SyncPolarity → Level
  | .closedLow => .low
  | .closedHigh => .high

/-- The Sync Input's accepted level, latched at entry into Sleep (R184): on a station not wired for sync, the open level of the
polarity in force (R51). -/
def State.latchLevel (s : State) : Option Level :=
  if s.member.straps.fitted.sync then s.sync.accepted else some s.settings.syncPolarity.openLevel

/-- The Card Controller's entry into Sleep (R151). -/
def State.cardSleep (s : State) : State :=
  s.doIf (s.card.state != .empty) (State.changeCard .empty none) |>.onCard fun c =>
    { c with roll := none, placements := [], writes := [], grants := [], waiting := [] }

/-- The Capture Controller's and the Dark Unit's entry into Sleep (R74, R96, R105). -/
def State.captureSleep (s : State) : State :=
  ((s.invalidateDark.abandonDark.cancelRelease).onCapture fun c =>
    { c with state := .disarmed, disarmPending := false, haltPending := false, exposure := none, quiet := [] })

/-- Tile memory is turned off (R184; log 13). -/
def State.dropTileMemory (s : State) : State :=
  (s.onRing fun r => { r with areas := List.replicate 8 {} }).onDark fun d => { d with samples := [] }

/-- Every timer channel is Idle with no expiry, and no pulse is counted (R47, R49). -/
def Clock.sleep (c : Clock) : Clock :=
  { c with timers := { roll := {}, mark := {}, attribution := {}, pulse := {}, exposureLimit := {}, dark := {}, quiet := {}, seam := {} },
           alarm := none, pulse := none }

/-- Entry into Sleep (R184). -/
def State.enterSleep (s : State) : State :=
  let s1 := s.onPower fun p =>
    { p with state := .sleep, sleepPending := false, latched := s.latchLevel, wakeCause := none, candidate := none }
  ((((s1.captureSleep.cardSleep.dropTileMemory).onTransfer fun t => { t with current := none }).onSync fun y =>
    { y with candidate := none }).onClock Clock.sleep).onNotices fun n => { n with records := List.replicate 11 none }

/-- Sleep is entered from Doze once the sleep conditions hold (R183). -/
def State.sleepTest (s : State) : State := s.doIf (s.power.state == .doze && s.maySleep) State.enterSleep

/-- SLEEP_ENTRY (R183, R184). -/
def execSleepEntry (s : State) : Host.Outcome State Fault Refusal := s.event State.sleepTest

/-! ## The wake (R186, R187) -/

/-- The Link Interface after a wake from Sleep: nothing waits, and a frame that is under way is not listened to (R7, R19). -/
def Link.wake (l : Link) : Link :=
  { l with
    urgent := [], control := [], urgentHeld := [], controlHeld := [], rollHeld := [], bulk := none
    phase := if l.phase == .free then .free else .hearing false
    frameStart := none }

/-- The mask that names all six station numbers (R187). -/
def allStations : Byte := 0x3F#8

/-- A local wake queues Wake to 15 (R187). -/
def State.announceWake (cause : WakeCause) (s : State) : State :=
  match cause with
  | .frame => s
  | .sync => s.broadcast (.wake allStations .sync)
  | .card => s.broadcast (.wake allStations .card)

/-- A wake from Sleep (R187). -/
def State.wakeUp (cause : WakeCause) (source : Byte) (body : List Byte) (s : State) : State :=
  let s1 := (s.onPower fun p =>
      { p with state := .active, sleepPending := false, latched := none, wakeCause := some cause, candidate := none }).onDevelop
    fun d => { d with stats := .wakeRecord (wakeRecordBytes cause source body.length s.clock.linkTime body) }
  let s2 := ((s1.onLink Link.wake).onNotices fun n => { n with records := List.replicate 11 none }).announceWake cause
  let s3 := ((s2.loadTimer .mark Config.markInterval).onSync fun y => { y with accepted := none, candidate := none }).mountIfPresent
  (s3.setupRollCall true).raise (.woke cause s.clock.linkTime)

/-- A wake by a local event (R187). -/
def State.wakeLocal (cause : WakeCause) (s : State) : State := s.wakeUp cause 15#8 []

/-- A Wake's mask names the station (R186). -/
def namesStation (mask : Byte) (n : Node) : Bool := mask.getLsbD n.toNat

/-- A Wake frame is taken by the Power Controller (R186). -/
def State.takeWake (source : Node) (mask : Byte) (cause : WakeFrameCause) (s : State) : State :=
  if namesStation mask s.self then
    match s.power.state with
    | .active => s
    | .doze => s.leaveDoze
    | .sleep => s.wakeUp .frame (source.setWidth 8) (Msg.wake mask cause).body
  else s

/-- WAKE_TAKEN (R186, R187). -/
def execWakeTaken (source : Node) (mask : Byte) (cause : WakeFrameCause) (s : State) : Host.Outcome State Fault Refusal :=
  s.event (State.takeWake source mask cause)

end Sys2Proof.Machine
end

