-- ==== Sys2Proof/Machine/Capture.lean ====
section
/-! DEFINITION. The Sync Input's and the Capture Controller's commands (chapter 4): samples and edges, capture frames, and
readout completion. -/

namespace Sys2Proof.Machine

/-! ## Edges (R56, R62, R185) -/

/-- A closing edge: an observation of the current shot, a trigger, or of no effect, by the attribution timer and the capture
state (R56). `mayTrigger` is clear where R185 has the edge trigger nothing. -/
def State.closingEdge (mayTrigger : Bool) (t : Time) (s : State) : State :=
  if (s.timer .attribution).running then s.observe s.capture.current t
  else match s.capture.state with
    | .exposing => s.observe ((s.capture.exposure.map (·.shot)).getD 0#32) t
    | .disarmed => s
    | .halted => s
    | _ => s.doIf mayTrigger (State.trigger s.ring.next (some t) t)

/-- In Follow mode an opening edge ends the integration in hand, and Close is queued unless one has been taken (R62). -/
def State.openingEdge (t : Time) (s : State) : State :=
  match s.capture.exposure with
  | none => s
  | some x =>
    if s.capture.state == .exposing && s.settings.syncMode == .follow then
      (s.endIntegration t).doIf (!s.closeKnown x.shot) (State.broadcast (.closeShot x.shot t false))
    else s

/-- An edge returns a station in Doze to Active with WakeOnSync On (R185). -/
def State.edgeWakes (s : State) : Bool := s.power.state == .doze && s.settings.wakeOnSync

/-- An accepted change of the sync level is delivered: to the closed level a closing edge, to the open level an opening edge
(R50). In Doze with WakeOnSync On it returns the station to Active and triggers nothing (R185; log 39). -/
def State.deliverEdge (level : Level) (t : Time) (s : State) : State :=
  if level = s.settings.syncPolarity.closedLevel then
    (s.doIf s.edgeWakes State.leaveDoze).closingEdge (!s.edgeWakes) t
  else (s.doIf s.edgeWakes State.leaveDoze).openingEdge t

/-! ## Samples (R50, R51, R186) -/

/-- A candidate that a further sample shows has lasted its Debounce interval (R50; log 9). -/
def Candidate.mature (c : Candidate) : Bool := decide (c.interval ≤ c.samples * 10)

/-- A first sample of a candidate (R50). -/
def State.newCandidate (s : State) : Candidate :=
  { since := s.clock.linkTime, samples := 1, interval := s.settings.debounce }

/-- The Sync Input takes a sample (R50, R51). -/
def State.sampleAwake (level : Level) (s : State) : State :=
  match s.sync.accepted with
  | none => s.onSync fun y => { y with accepted := some level, candidate := none }
  | some a =>
    if level = a then
      match s.sync.candidate with
      | none => s
      | some _ => s.onSync fun y => { y with candidate := none, bounces := satInc Config.bounceLimit y.bounces }
    else
      match s.sync.candidate with
      | none => s.onSync fun y => { y with candidate := some s.newCandidate }
      | some c =>
        if c.mature then
          (s.onSync fun y => { y with accepted := some level, candidate := none }).deliverEdge level c.since
        else s.onSync fun y => { y with candidate := some { c with samples := c.samples + 1 } }

/-- The Power Controller samples the pin of a sleeping station and tests a level that differs from the latched one (R186).
With no level latched none differs (log 10). -/
def State.sampleAsleep (level : Level) (s : State) : State :=
  if s.settings.wakeOnSync then
    match s.power.latched with
    | none => s
    | some a =>
      if level = a then s.onPower fun p => { p with candidate := none }
      else
        match s.power.candidate with
        | none => s.onPower fun p => { p with candidate := some s.newCandidate }
        | some c =>
          if c.mature then s.wakeLocal .sync
          else s.onPower fun p => { p with candidate := some { c with samples := c.samples + 1 } }
  else s

/-- A sample of the sync pin; on a station not wired for sync none is taken (R50, R51, R186). -/
def State.sample (level : Level) (s : State) : State :=
  if s.member.straps.fitted.sync then
    (if s.power.state == .sleep then s.sampleAsleep level else s.sampleAwake level)
  else s

/-- SYNC_SAMPLE (R50). -/
def execSyncSample (level : Level) (s : State) : Host.Outcome State Fault Refusal := s.event (State.sample level)

/-- The next sample of a level is the one that accepts it (R50). -/
def State.accepts (level : Level) (s : State) : Bool :=
  s.power.state != .sleep && s.sync.accepted.any (· != level) && s.sync.candidate.any Candidate.mature

/-- The next sample of a level is the one that wakes the station (R186). -/
def State.wakesAt (level : Level) (s : State) : Bool :=
  s.power.state == .sleep && s.settings.wakeOnSync && s.power.latched.any (· != level)
    && s.power.candidate.any Candidate.mature

/-- The sample that accepts a level, where the next one is it (R50). -/
def State.acceptLevel (level : Level) (s : State) : State := s.doIf (s.accepts level) (State.sample level)

/-- SYNC_CLOSING_EDGE (R56): the sample that accepts the closed level. -/
def execSyncClosingEdge (s : State) : Host.Outcome State Fault Refusal :=
  s.event fun t => t.acceptLevel t.settings.syncPolarity.closedLevel

/-- SYNC_OPENING_EDGE (R62): the sample that accepts the open level. -/
def execSyncOpeningEdge (s : State) : Host.Outcome State Fault Refusal :=
  s.event fun t => t.acceptLevel t.settings.syncPolarity.openLevel

/-- The other level. -/
def Level.other : Level → Level
  | .low => .high
  | .high => .low

/-- The sample that wakes the station, where the next one is it (R186). -/
def State.wakeSample (s : State) : State :=
  match s.power.latched with
  | none => s
  | some a => s.doIf (s.wakesAt (Level.other a)) (State.sample (Level.other a))

/-- SYNC_WAKE (R186, R187). -/
def execSyncWake (s : State) : Host.Outcome State Fault Refusal := s.event State.wakeSample

/-! ## Capture frames (R57) -/

/-- An Open is a trigger or an observation, by the next shot number, and may give the agreed open (R57, R58, R60). -/
def State.captureOpen (source : Node) (n : Shot) (t : Time) (s : State) : State :=
  (if s.triggers n then (s.raiseNext n).trigger n none s.clock.linkTime else s).takeAgreedOpen source n t

/-- OPEN_TAKEN (R57, R60). -/
def execOpenTaken (source : Node) (n : Shot) (t : Time) (s : State) : Host.Outcome State Fault Refusal :=
  s.event (State.take .capture (State.captureOpen source n t))

/-- A Close in Follow mode gives the agreed close where it is the first, and ends the integration of its shot (R62). In Pulse
mode it has no effect (R63). -/
def State.captureClose (n : Shot) (t : Time) (limit : Bool) (s : State) : State :=
  if s.settings.syncMode == .follow then
    let first := (s.entry? n).any (·.agreedClose.isNone)
    let s1 := (s.updEntry n (Entry.closeAt t)).doIf (first && limit) (State.markLimit n)
    s1.doIf (s.exposes n) (State.endIntegration s.clock.linkTime)
  else s

/-- CLOSE_TAKEN (R62). -/
def execCloseTaken (_source : Node) (n : Shot) (t : Time) (limit : Bool) (s : State) : Host.Outcome State Fault Refusal :=
  s.event (State.take .capture (State.captureClose n t limit))

/-- A Refuse is a trigger that takes no slot where its shot is still to come, and drops its shot (R57, R66); the freeing of a
slot is followed by the sleep test (R183). -/
def State.captureRefuse (source : Node) (n : Shot) (reason : RefuseReason) (policy : Policy) (s : State) : State :=
  ((if s.triggers n then (s.raiseNext n).beginTrigger n else s).dropShot source n reason policy).sleepTest

/-- REFUSE_TAKEN (R66). -/
def execRefuseTaken (source : Node) (n : Shot) (reason : RefuseReason) (policy : Policy) (s : State) :
    Host.Outcome State Fault Refusal :=
  s.event (State.take .capture (State.captureRefuse source n reason policy))

/-- A source leaves the quiet set; the removal that empties the set stops the quiet timer (R69). -/
def State.removeQuiet (source : Node) (s : State) : State :=
  (s.onCapture fun c => { c with quiet := c.quiet.filter (· != source) }).doIf
    (s.capture.quiet.all (· == source)) (State.stopTimer .quiet)

/-- A ReadDone of the current shot that no dark readout follows removes its source from the quiet set (R69). -/
def State.captureReadDone (source : Node) (n : Shot) (kind : ReadKind) (darkFollows : Bool) (s : State) : State :=
  if n = s.capture.current ∧ (kind = .dark ∨ darkFollows = false) ∧ source ∈ s.capture.quiet ∧ source ∈ s.memberNumbers then
    s.removeQuiet source
  else s

/-- READDONE_TAKEN (R69). -/
def execReadDoneTaken (source : Node) (n : Shot) (kind : ReadKind) (darkFollows : Bool) (s : State) :
    Host.Outcome State Fault Refusal :=
  s.event (State.take .capture (State.captureReadDone source n kind darkFollows))

/-! ## Readout completion (R68) -/

/-- In Follow mode an absent agreed close is supplied from the own end time (R65). -/
def State.supplyClose (n : Shot) (s : State) : State :=
  match s.settings.syncMode, (s.slot? n).bind (·.ownEnd) with
  | .follow, some t => s.updEntry n (Entry.closeAt t)
  | _, _ => s

/-- The shot's dark status is decided, and a dark capture started where it becomes Awaiting (R68, R99). -/
def State.applyDark (n : Shot) (s : State) : State :=
  (s.updSlot n fun x => { x with dark := some (s.decideDark n) }).doIf (s.decideDark n == .awaiting)
    (State.startDark n (cappedDark (((s.entry? n).bind (·.agreedDuration)).getD 0)))

/-- The end of a readout with no dark capture after it (R68, step 5). -/
def State.endReadout (s : State) : State := s.onCapture fun c => ({ c with exposure := none } : Capture).settle

/-- A readout that the sensor tile port was asked for has completed (R53, R68); the freeing of its slot (R88) is followed by
the sleep test (R183). -/
def State.readoutDone (samples : List Sample) (s : State) : State :=
  match s.capture.exposure with
  | none => s
  | some x =>
    if s.port = .readOut (.area (s.slotIndex x.shot)) then
      let n := x.shot
      let s1 := (s.onRing (Ring.updArea (s.slotIndex n) fun a => { a with raw := samples })).supplyClose n
      let s2 := (s1.updSlot n fun y => { y with tag := .raw }).completionTest n
      let follows := (s2.slot? n).isSome && s2.decideDark n == .awaiting
      let s3 := (s2.doIf (s2.slot? n).isSome (State.applyDark n)).broadcast (.readDone n .regular follows)
      (s3.doIf (!follows) State.endReadout).tryStartJob.sleepTest
    else s

/-- READOUT_COMPLETE (R65, R68, R88, R99). -/
def execReadoutComplete (samples : List Sample) (s : State) : Host.Outcome State Fault Refusal :=
  s.event (State.readoutDone samples)

end Sys2Proof.Machine
end

