-- ==== Sys2Proof/Machine/DarkFrames.lean ====
section
/-! DEFINITION. The dark capture's commands (chapter 6): the readout into the dark slot, and the
dark scan. -/

namespace Sys2Proof.Machine

/-- The readout into the dark slot that the sensor tile port was asked for has completed, and the scan begins (R53, R102). -/
def State.darkReadoutDone (samples : List Sample) (s : State) : State :=
  if s.port = .readOut .darkSlot then
    (s.onDark fun d => { d with samples := samples }).updDarkCapture fun c => { c with phase := .scanning, scanned := 0 }
  else s

/-- DARK_READOUT_COMPLETE (R102). -/
def execDarkReadoutComplete (samples : List Sample) (s : State) : Host.Outcome State Fault Refusal :=
  s.event (State.darkReadoutDone samples)

/-- The scan reaches its next hot pixel (R102). -/
def State.scanStep (s : State) : State :=
  match s.dark.capture with
  | none => s
  | some c =>
    if c.phase == .scanning then
      match s.hotAhead c with
      | [] => s
      | i :: _ => s.insertHot i
    else s

/-- HOT_INSERTION (R102, R108). -/
def execHotInsertion (s : State) : Host.Outcome State Fault Refusal := s.event State.scanStep

/-- The dark capture is complete (R103); its ReadDone carries the dark-follows flag clear (log 44). -/
def State.completeDark (c : DarkCapture) (s : State) : State :=
  let s1 := s.onDark fun d => { d with valid := true, duration := some c.duration, captureEnd := c.captureEnd }
  let s2 := (s1.doIf (c.shot != 0#32) (State.settleAwaiting c.shot .used)).broadcast (.readDone c.shot .dark false)
  ((s2.onCapture fun k => ({ k with exposure := none } : Capture).settle).onDark fun d => { d with capture := none }).tryStartJob

/-- The scan ends: what it has not yet visited it visits first (log 35), and the capture is complete (R103). -/
def State.scanDone (s : State) : State :=
  match s.dark.capture with
  | none => s
  | some c =>
    if c.phase == .scanning then ((s.hotAhead c).foldl (fun t i => t.insertHot i) s).completeDark c else s

/-- DARK_SCAN_COMPLETE (R103). -/
def execDarkScanComplete (s : State) : Host.Outcome State Fault Refusal := s.event State.scanDone

end Sys2Proof.Machine
end

