-- ==== Sys2Proof/Machine/Develop.lean ====
section
/-! DEFINITION. The Develop Engine's commands (chapter 7): the completions of the five phases, and a Seam
taken. A phase's work on the tile is done at its completion (log 40). -/

namespace Sys2Proof.Machine

/-! ## Base (R115) -/

/-- The positions of the Defect Table (R117). -/
def Dark.positions (d : Dark) : List (Nat × Nat) := d.defects.map fun e => (e.row, e.column)

/-- Phase Base completes: the base is subtracted, the owed Seams are added, and phase Interior begins with its snapshot
(R115, R117). MODEL'S CHOICE (log 54): of a dark slot marked invalid, the samples that its area holds are the base. -/
def State.endBase (j : Job) (s : State) : State :=
  let raw := pixels (pixelCount s.settings) (s.area j.slot).raw
  let base := baseSamples s.settings s.dark.samples j.base
  ((s.rework j.slot fun _ => baseValues raw base).onDevelop fun d =>
    { d with owed := addOwed j.shot s.facing d.owed }).updJob fun k =>
      { k with phase := .interior, snapshot := s.dark.positions, flags := { k.flags with floored := anyFloored raw base } }

/-- PHASE_BASE_COMPLETE (R115). -/
def execPhaseBaseComplete (s : State) : Host.Outcome State Fault Refusal := s.event (State.inPhase .base State.endBase)

/-! ## Interior and Edge (R117-R119) -/

/-- Phase Interior completes its repairs, and phase Edge resolves its edges (R117, R118). -/
def State.endInterior (j : Job) (s : State) : State :=
  ((s.rework j.slot (repairAll s.settings j.snapshot [] (interiorEntries s.settings s.self.toNat j.snapshot))).updJob fun k =>
    { k with phase := .edge }).resolve

/-- PHASE_INTERIOR_COMPLETE (R117, R118). -/
def execPhaseInteriorComplete (s : State) : Host.Outcome State Fault Refusal :=
  s.event (State.inPhase .interior State.endInterior)

/-- An edge is Band or OneSided. -/
def Edge.resolved (e : Edge) : Bool :=
  match e.state with
  | .band _ => true
  | .oneSided => true
  | _ => false

/-- The bands held by the job are dropped; which edges were Band stays known (R119, R126). -/
def Edge.dropBand (e : Edge) : Edge :=
  match e.state with
  | .band _ => { e with state := .band [] }
  | _ => e

/-- Phase Edge completes once every edge is resolved: the edge entries are repaired, and phase Gain begins (R119). -/
def State.endEdge (j : Job) (s : State) : State :=
  if j.edges.all Edge.resolved then
    (s.rework j.slot (repairAll s.settings j.snapshot j.edges (edgeEntries s.settings s.self.toNat j.snapshot))).updJob
      fun k => { k with phase := .gain, edges := k.edges.map Edge.dropBand }
  else s

/-- EDGE_REPAIRS_COMPLETE (R119). -/
def execEdgeRepairsComplete (s : State) : Host.Outcome State Fault Refusal := s.event (State.inPhase .edge State.endEdge)

/-! ## Gain and Finish (R120-R122) -/

/-- Phase Gain completes (R120). -/
def State.endGain (j : Job) (s : State) : State :=
  (s.rework j.slot fun w => w.map (gainValue s.settings.flatGain)).updJob fun k =>
    { k with phase := .finish,
             flags := { k.flags with
               clipped := (s.area j.slot).developed.any fun v => decide (16383 < gained s.settings.flatGain v) } }

/-- PHASE_GAIN_COMPLETE (R120). -/
def execPhaseGainComplete (s : State) : Host.Outcome State Fault Refusal := s.event (State.inPhase .gain State.endGain)

/-- The notice of a finished tile (R122). -/
def finishNotice (tag : Tag) (n : Shot) (flags : OutcomeFlags) (sum : Word16) : NoticeData :=
  if tag = .held then .tileHeld n flags sum else .tileDeveloped n flags sum

/-- Phase Finish completes: the histogram, the tile sum and the outcome flags are written, the tile becomes Held or Developed
with its notice, and the job ends; the engine and the Transfer Unit choose again, and the sleep test is made (R108, R112, R121,
R122, R153, R183). -/
def State.endFinish (j : Job) (s : State) : State :=
  match s.slot? j.shot with
  | none => s
  | some x =>
    let flags := finishFlags j.flags x s.dark.overflow
    let sum := tileSumOf (s.packedTile j.slot)
    let tag := finishTag s.settings.developMask flags
    let bins := histogramBins (pixels (pixelCount s.settings) (s.area j.slot).developed)
    let s1 := s.onDevelop fun d => { d with job := none, stats := .histogram j.shot bins }
    let s2 := (s1.onDark fun d => { d with overflow := 0 }).updSlot j.shot fun y =>
      { y with tag := tag, flags := flags, tileSum := some sum }
    ((s2.raise (finishNotice tag j.shot flags sum)).tryStartJob).chooseTile.sleepTest

/-- PHASE_FINISH_COMPLETE (R121, R122). -/
def execPhaseFinishComplete (s : State) : Host.Outcome State Fault Refusal := s.event (State.inPhase .finish State.endFinish)

/-! ## Seams (R126, R127) -/

/-- The target of a Seam: the grid position one step from its source in its direction (R126). -/
def State.seamTarget (source : Node) (d : Direction) (s : State) : Option Nat :=
  neighbour? s.settings.gridShape source.toNat d

/-- The edge facing a source is finished for a shot (R126). -/
def State.edgeFinished (source : Node) (n : Shot) (s : State) : Bool :=
  (s.slot? n).any (fun x => x.tag == .held || x.tag == .developed)
    || s.develop.job.any fun j => j.shot == n && j.edges.any fun e => e.neighbour == source.toNat && e.resolved

/-- A late discard counts (R126). -/
def State.lateBand (s : State) : State := s.onDevelop fun d => { d with late := satInc Config.count16Limit d.late }

/-- The store with a band added, or replacing the one of its key; none when the store is full (R127). -/
def storeBand (b : Band) (store : List Band) : Option (List Band) :=
  if store.any (Band.hasKey b.neighbour b.shot) then some (updFirst (Band.hasKey b.neighbour b.shot) (fun _ => b) store)
  else if store.length < Config.seamStoreCapacity then some (store ++ [b])
  else none

/-- The job waits for the band of a key. -/
def Job.waitsFor (source : Node) (n : Shot) (j : Job) : Bool :=
  j.shot == n && j.edges.any fun e => e.neighbour == source.toNat && e.state == .waiting

/-- A waiting job takes the band just stored (R118, R127). -/
def State.endWaitByBand (s : State) : State := ((s.updJob (Job.endWait .pending)).stopTimer .seam).resolve

/-- A band is stored, or counted as overrun, and a job waiting for it takes it (R127). -/
def State.keepBand (source : Node) (n : Shot) (band : List Word16) (s : State) : State :=
  match storeBand { neighbour := source.toNat, shot := n, samples := band } s.develop.store with
  | none => s.onDevelop fun d => { d with overrun := satInc Config.count16Limit d.overrun }
  | some store =>
    (s.onDevelop fun d => { d with store := store }).doIf (s.develop.job.any (Job.waitsFor source n)) State.endWaitByBand

/-- The length of the edge that a band along an edge in a direction meets (R194). -/
def edgeLength (st : Settings) : Direction → Nat
  | .up => st.tileColumns
  | .down => st.tileColumns
  | .left => st.tileRows
  | .right => st.tileRows

/-- The Develop Engine reads a Seam: GridShape is set, and the band holds 4 samples for each pixel of the edge (R194). -/
def seamReadable (st : Settings) (d : Direction) (band : List Word16) : Bool :=
  st.gridShape.isSome && band.length == 4 * edgeLength st d

/-- A Seam is disregarded, passed over, discarded as late, or stored (R126, R194). -/
def State.engineSeam (source : Node) (n : Shot) (d : Direction) (band : List Word16) (s : State) : State :=
  if seamReadable s.settings d band then
    match s.seamTarget source d with
    | none => s.lateBand
    | some m =>
      if m ≠ s.self.toNat then s
      else if (s.entry? n).isNone || s.edgeFinished source n then s.lateBand
      else s.keepBand source n band
  else s

/-- SEAM_TAKEN (R126, R127). -/
def execSeamTaken (source : Node) (n : Shot) (d : Direction) (band : List Word16) (s : State) :
    Host.Outcome State Fault Refusal :=
  s.event (State.take .other (State.engineSeam source n d band))

end Sys2Proof.Machine
end

