-- ==== Sys2Proof/Machine/Roster.lean ====
section
/-! DEFINITION. The placement frames (R83-R86, R88, R146, R170): PLACE_TAKEN, UNPLACE_TAKEN and COMMIT_TAKEN. -/

namespace Sys2Proof.Machine

/-- What a Place makes of a placement part (R83). -/
def Part.place (o : PlaceOutcome) (p : Part) : Part :=
  if p.placement.made then p
  else
    match o with
    | .reserved .. => { p with placement := .reserved }
    | .refused _ => { p with placement := .refused }

/-- The placement part of an entry takes a Place; the unmirrored flag is settled where the part changed (R83, R86). -/
def Entry.placeAt (mode : StorageMode) (k : Socket) (o : PlaceOutcome) (e : Entry) : Entry :=
  if (e.updPart k (Part.place o)).placement? k = e.placement? k then e
  else (e.updPart k (Part.place o)).settleUnmirrored mode

/-- The Ring Manager takes a Place (R83, R86). -/
def State.ringPlace (n : Shot) (k : Socket) (o : PlaceOutcome) (s : State) : State :=
  s.updEntry n (Entry.placeAt s.settings.storageMode k o)

/-- A Place is taken: the roster, the Transfer Unit's choice, and socket B in Overflow (R83, R146, R153). -/
def State.blocksPlace (source : Node) (n : Shot) (k : Socket) (o : PlaceOutcome) (s : State) : State :=
  let s1 := (s.ringPlace n k o).chooseTile
  match o with
  | .reserved .. => s1
  | .refused _ => s1.overflowDecide source n k

/-- PLACE_TAKEN (R83, R146). -/
def execPlaceTaken (source : Node) (n : Shot) (k : Socket) (o : PlaceOutcome) (s : State) : Host.Outcome State Fault Refusal :=
  s.event (State.take .other (State.blocksPlace source n k o))

/-- A socket of an entry is a target. -/
def Entry.targetAt (k : Socket) (e : Entry) : Bool := (e.part k).any Part.target

/-- The Transfer Unit takes a Commit or an Unplace of an entry: the socket gives up its grants; if it was a target and none is
left the pass ends, and the Segment in hand is cancelled (R158, R170). -/
def State.leaveSocket (n : Shot) (k : Socket) (tr : Transfer) (wasTarget : Bool) (s : State) : State :=
  let s1 := s.updEntry n (Entry.updPart k fun p => { p with transfer := tr, grants := 0 })
  if wasTarget && !(s1.entry? n).any Entry.hasTarget then
    (s1.doIf (s1.transfer.current == some n) (State.cancelBulk (Msg.isSegmentOf n))).endPassIfDone n
  else s1

/-- The Ring Manager takes an Unplace: a Reserved part becomes Void (R84, R86). -/
def Entry.unplaceAt (mode : StorageMode) (k : Socket) (e : Entry) : Entry :=
  if e.placement? k = some .reserved then (e.updPart k fun p => { p with placement := .void }).settleUnmirrored mode else e

/-- An Unplace is taken (R84, R88, R146, R170), and the sleep test is made (R183). -/
def State.blocksUnplace (source : Node) (n : Shot) (k : Socket) (s : State) : State :=
  let was := (s.entry? n).any (Entry.targetAt k)
  let changed := (s.entry? n).any fun e => e.placement? k == some .reserved
  ((((s.updEntry n (Entry.unplaceAt s.settings.storageMode k)).doIf changed (State.completionTest n)).leaveSocket n k .idle
    was).overflowDecide source n k).sleepTest

/-- UNPLACE_TAKEN (R84, R146, R170). -/
def execUnplaceTaken (source : Node) (n : Shot) (k : Socket) (_reason : UnplaceReason) (s : State) :
    Host.Outcome State Fault Refusal :=
  s.event (State.take .other (State.blocksUnplace source n k))

/-- The Ring Manager takes a Commit: a Reserved part becomes Committed (R85). -/
def Entry.commitAt (k : Socket) (e : Entry) : Entry :=
  if e.placement? k = some .reserved then e.updPart k fun p => { p with placement := .committed } else e

/-- A Commit is taken (R85, R88, R170), and the sleep test is made (R183). -/
def State.blocksCommit (n : Shot) (k : Socket) (s : State) : State :=
  let was := (s.entry? n).any (Entry.targetAt k)
  let changed := (s.entry? n).any fun e => e.placement? k == some .reserved
  (((s.updEntry n (Entry.commitAt k)).doIf changed (State.completionTest n)).leaveSocket n k .closed was).sleepTest

/-- COMMIT_TAKEN (R85, R88, R170). -/
def execCommitTaken (_source : Node) (n : Shot) (k : Socket) (_frameNo _fileSum : Word16) (s : State) :
    Host.Outcome State Fault Refusal :=
  s.event (State.take .other (State.blocksCommit n k))

end Sys2Proof.Machine
end

