-- ==== Sys2Proof/Machine/Transfer.lean ====
section
/-! DEFINITION. Transfer between the stations (chapter 9): GRANT_TAKEN, REDO_TAKEN and CLAIM_TAKEN, and the building and the
ending of a bulk frame (R124, R125, R157, R158). -/

namespace Sys2Proof.Machine

/-! ## Grants (R156) -/

/-- A part takes a Grant (R156). -/
def Part.granted (count : Nat) (p : Part) : Part :=
  if count = 0 then { p with transfer := .closed } else { p with transfer := .sending, grants := count }

/-- The Transfer Unit takes a Grant for a socket that is Claiming (R154, R156). A count above 8 is no count of the table and
has no effect. -/
def State.transferGrant (socket : Byte) (n : Shot) (count : Byte) (s : State) : State :=
  match socketOf? socket, s.entry? n with
  | some k, some e =>
    if (e.part k).any (·.transfer == .claiming) && decide (count.toNat ≤ 8) then
      (s.updEntry n (Entry.updPart k (Part.granted count.toNat))).doIf (count == 0#8) (State.endPassIfDone n)
    else s
  | _, _ => s

/-- GRANT_TAKEN (R156). -/
def execGrantTaken (_source : Node) (_claimant : Byte) (socket : Byte) (n : Shot) (count : Byte) (_notPlaced : Bool)
    (s : State) : Host.Outcome State Fault Refusal :=
  s.event (State.take .other (State.transferGrant socket n count))

/-! ## Redo (R167, R168) -/

/-- A member's progress starts again (R150, R167). -/
def Progress.restart (m : Progress) : Progress := { m with expected := 0, running := 0#16, closed := false, close := none }

/-- The Card Controller takes a Redo: a Filling entry's member starts again (R167). -/
def State.cardRedo (n : Shot) (member : Byte) (s : State) : State :=
  s.doIf s.cardStation (State.onCard (Card.updPlaced n fun p =>
    if p.phase = .filling then { p with progress := updFirst (fun m => m.member.setWidth 8 == member) Progress.restart p.progress }
    else p))

/-- The Transfer Unit of the tile's station takes a Redo (R168). -/
def State.transferRedo (n : Shot) (member : Byte) (s : State) : State :=
  if s.self.setWidth 8 = member ∧ (s.entry? n).isSome then
    let s1 := s.updEntry n Entry.startPass
    if s1.transfer.current = some n then (s1.cancelBulk (Msg.isSegmentOf n)).claimTargets n else s1.chooseTile
  else s

/-- REDO_TAKEN (R167, R168). -/
def execRedoTaken (_source : Node) (n : Shot) (member : Byte) (_socket : Socket) (_reason : RedoReason) (s : State) :
    Host.Outcome State Fault Refusal :=
  s.event (State.take .other fun t => (t.cardRedo n member).transferRedo n member)

/-! ## Claims (R160) -/

/-- Unfilled grants of a claiming member return to the pool, and the waiting list is served for them (R160, R161). -/
def State.returnGrants (m : Node) (s : State) : State :=
  match s.card.grant? m with
  | none => s
  | some g =>
    if 0 < g.unfilled then (s.onCard (Card.setGrant { g with unfilled := 0 })).serve else s

/-- The Card Controller takes a Claim (R160). -/
def State.cardClaim (q : Claim) (s : State) : State :=
  let s1 := s.returnGrants q.member
  if s1.card.claimUseless q || decide (1 ≤ s1.card.free) then s1.grantClaim q else s1.onCard (Card.wait q)

/-- A Claim is taken (R160). On a station without a card socket it goes to no block (R2). -/
def State.takeClaim (source : Node) (socket : Byte) (n : Shot) (count : Byte) (s : State) : State :=
  s.doIf s.cardStation
    (State.take .other (State.cardClaim { member := source, socket := socket, shot := n, count := count.toNat }))

/-- CLAIM_TAKEN (R160, R161). -/
def execClaimTaken (source : Node) (socket : Byte) (n : Shot) (count : Byte) (s : State) : Host.Outcome State Fault Refusal :=
  s.event (State.takeClaim source socket n count)

/-! ## The Segment in hand (R157, R158) -/

/-- The close fields of a slot record (R157). -/
def Slot.closeFields (x : Slot) : CloseFields :=
  { tileSum := x.tileSum.getD 0#16, flags := x.flags, outcome := x.outcome.getD .unobserved,
    skew := clampSkew (x.skew.getD 0) }

/-- The Segment of a shot at its send cursor (R157). -/
def State.segmentAt (e : Entry) (x : Slot) (s : State) : SegmentBody :=
  let len := min (segmentBytes s.settings) (tileBytes s.settings - e.cursor)
  let payload := ((s.packedTile e.slot).drop e.cursor).take len
  { shot := e.shot, tile := s.self.setWidth 8, offset := BitVec.ofNat 32 e.cursor, sum := recorded (sumBytes payload),
    openFlag := e.cursor == 0,
    close := if e.cursor + len = tileBytes s.settings then some x.closeFields else none,
    payload := payload }

/-- Every target of an entry is Sending with at least one grant held (R157). -/
def Entry.targetsReady (e : Entry) : Bool :=
  e.parts.all fun p => !p.target || (p.transfer == .sending && decide (1 ≤ p.grants))

/-- The Transfer Unit's bulk frame, where it has one to build (R157). -/
def State.buildSegment (s : State) : Option Frame :=
  match s.transfer.current with
  | none => none
  | some n =>
    match s.entry? n, s.slot? n with
    | some e, some x =>
      if e.hasTarget && e.targetsReady then some { dst := 15#4, msg := .segment (s.segmentAt e x) } else none
    | _, _ => none

/-- The Develop Engine's bulk frame: the Seam at the head of the owed list, in Configuring and Ready (R123, R124). -/
def State.buildSeam (s : State) : Option Frame :=
  match s.develop.owed with
  | [] => none
  | (n, d) :: _ =>
    match s.slot? n with
    | none => none
    | some x =>
      if s.running then some { dst := 15#4, msg := .seam n d (s.band x (s.slotIndex n) d) } else none

/-- The bulk frame in hand, built first where there is none: a Seam ahead of a Segment (R15). -/
def State.buildBulk (s : State) : State :=
  match s.link.bulk with
  | some _ => s
  | none =>
    match s.buildSeam with
    | some f => s.onLink fun l => { l with bulk := some { frame := f, spoils := 0, cancelled := false } }
    | none =>
      match s.buildSegment with
      | some f => s.onLink fun l => { l with bulk := some { frame := f, spoils := 0, cancelled := false } }
      | none => s

/-- A target gives up one grant (R158). -/
def Part.spend (p : Part) : Part := if p.target && decide (1 ≤ p.grants) then { p with grants := p.grants - 1 } else p

/-- Every target becomes Closed (R158). -/
def Part.closeTarget (p : Part) : Part := if p.target then { p with transfer := .closed } else p

/-- The Segment in hand went out (R158). -/
def State.segmentSent (b : SegmentBody) (cancelled : Bool) (s : State) : State :=
  let s1 := s.updEntry b.shot (Entry.mapParts Part.spend)
  if cancelled then s1.claimTargets b.shot
  else
    let s2 := s1.updEntry b.shot fun e => { e with cursor := e.cursor + b.payload.length }
    if b.close.isSome then (s2.updEntry b.shot (Entry.mapParts Part.closeTarget)).endPassIfDone b.shot
    else s2.claimTargets b.shot

/-- The Link Interface tells the builder that the bulk frame in hand went out (R125, R158). -/
def State.bulkSent (b : Bulk) (s : State) : State :=
  match b.frame.msg with
  | .seam n d _ => s.onDevelop fun v => { v with owed := v.owed.erase (n, d) }
  | .segment g => s.segmentSent g b.cancelled
  | _ => s

end Sys2Proof.Machine
end

