-- ==== Sys2Proof/Machine/CardSocket.lean ====
section
/-! DEFINITION. The Card Controller's commands (chapters 8 and 9): SEGMENT_TAKEN, the completions and errors of card writes,
and the events of the card socket. -/

namespace Sys2Proof.Machine

/-! ## Taking a Segment (R162-R165) -/

/-- A member's progress in a placement list entry changes. -/
def State.updProgress (n : Shot) (m : Node) (f : Progress → Progress) (s : State) : State :=
  s.onCard (Card.updPlaced n (Placed.updProgress m f))

/-- A Segment spends one of its member's grants (R162). -/
def Card.spendGrant (m : Node) (c : Card) : Card :=
  { c with grants := updFirst (·.member == m) (fun g => { g with unfilled := g.unfilled - 1 }) c.grants }

/-- The length rules of R162: the reasons for which a Segment at the expected offset is discarded. -/
def badLength (st : Settings) (b : SegmentBody) : Bool :=
  let stop := b.offset.toNat + b.payload.length
  (b.payload.length != segmentBytes st && b.close.isNone) || decide (tileBytes st < stop)
    || (b.close.isSome && stop != tileBytes st) || (b.close.isNone && stop == tileBytes st)

/-- The position of a member in a placement list entry's member set (R136, R163). -/
def Placed.position (m : Node) (p : Placed) : Nat := p.progress.findIdx (·.member == m)

/-- The first of the blocks that a Segment's payload goes to (R163). -/
def Placed.blockOf (st : Settings) (m : Node) (offset : Nat) (p : Placed) : Nat :=
  p.firstBlock + 1 + p.position m * tileBlocks st + offset / 512

/-- The block writes of a filled buffer (R141, R163). -/
def blockWrite (st : Settings) (m : Node) (p : Placed) (b : SegmentBody) : Write :=
  { kind := .block, shot := p.shot, frameNo := p.frameNo, address := blockAddress (p.blockOf st m b.offset.toNat),
    data := padBlock b.payload, cancelled := false }

/-- A failure of a member's tile (R165); where the entry leaves the placement list, the sleep test is made (R183). -/
def State.failTile (p : Placed) (m : Progress) (reason : RedoReason) (s : State) : State :=
  if m.redos < Config.redoLimit then
    match s.card.letter with
    | none => s
    | some k =>
      (s.updProgress p.shot m.member fun q => { q with redos := q.redos + 1 }).broadcast
        (.redo p.shot (m.member.setWidth 8) k reason)
  else (s.unplaceSumFailure p).sleepTest

/-- An accepted Segment that carries the close flag: the close fields are recorded, and the tile closes or fails (R164). -/
def State.closeTile (p : Placed) (m : Progress) (running : Word16) (c : CloseFields) (s : State) : State :=
  let s1 := s.updProgress p.shot m.member fun q => { q with close := some c }
  if running = c.tileSum then (s1.updProgress p.shot m.member fun q => { q with closed := true }).commitTest p.shot
  else s1.failTile p m .tileSum

/-- A Segment is accepted into a buffer (R163). -/
def State.acceptSegment (p : Placed) (m : Progress) (b : SegmentBody) (s : State) : State :=
  let s1 := s.onCard fun c =>
    { Card.updPlaced p.shot (fun q => { q with unwritten := q.unwritten + 1 }) c with
      writes := c.writes ++ [blockWrite s.settings m.member p b] }
  let s2 := s1.updProgress p.shot m.member fun q =>
    { q with expected := m.expected + b.payload.length, running := onesAdd m.running b.sum }
  match b.close with
  | none => s2
  | some c => s2.closeTile p m (onesAdd m.running b.sum) c

/-- The segment sum of a payload as the buffer holds it agrees with the field (R163). -/
def segmentSumOk (b : SegmentBody) : Bool := b.sum != 0#16 && recorded (sumBytes b.payload) == b.sum

/-- A Segment that has spent its grant is discarded, restarts its member, or is checked (R162, R163). -/
def State.judgeSegment (p : Placed) (m : Progress) (b : SegmentBody) (s : State) : State :=
  if p.phase = .committing ∨ m.closed = true then s.serve
  else
    let restarts := b.openFlag && b.offset == 0#32 && m.expected != 0
    let m1 := if restarts then m.restart else m
    let s1 := s.doIf restarts (State.updProgress p.shot m.member Progress.restart)
    if b.offset.toNat ≠ m1.expected ∨ badLength s.settings b = true then s1.serve
    else if segmentSumOk b then s1.acceptSegment p m1 b
    else (s1.failTile p m1 .segmentSum).serve

/-- The Card Controller takes a Segment (R162). -/
def State.cardSegment (source : Node) (b : SegmentBody) (s : State) : State :=
  match s.card.placed? b.shot, s.card.grant? source with
  | some p, some g =>
    match p.progress? source with
    | none => s
    | some m =>
      if b.tile = source.setWidth 8 ∧ g.shot = b.shot ∧ 0 < g.unfilled then
        (s.onCard (Card.spendGrant source)).judgeSegment p m b
      else s
  | _, _ => s

/-- A Segment is taken (R162). On a station without a card socket it goes to no block (R2). -/
def State.takeSegment (source : Node) (body : SegmentBody) (s : State) : State :=
  s.doIf s.cardStation (State.take .other (State.cardSegment source body))

/-- SEGMENT_TAKEN (R162-R165). -/
def execSegmentTaken (source : Node) (body : SegmentBody) (s : State) : Host.Outcome State Fault Refusal :=
  s.event (State.takeSegment source body)

/-! ## Completions of card writes (R141, R166, R169, R149) -/

/-- Do `f` when the write at the head of the queue, which the card has begun, satisfies `p`: it takes effect on the card and
leaves the queue first (R141). -/
def State.completeWrite (p : Write → Bool) (f : Write → State → State) (s : State) : State :=
  match s.card.writes with
  | [] => s
  | w :: rest =>
    if p w then (f w (s.onCard fun c => { Card.perform w c with writes := rest })).ejectTest else s

/-- A buffer's block writes have completed (R166). -/
def State.blockWritten (w : Write) (s : State) : State :=
  if w.cancelled then s
  else
    ((s.onCard (Card.updPlaced w.shot fun q => { q with unwritten := q.unwritten - 1 })).serve).commitTest w.shot

/-- CARD_BLOCK_WRITE_COMPLETE (R166). -/
def execCardBlockWriteComplete (s : State) : Host.Outcome State Fault Refusal :=
  s.event (State.completeWrite (·.kind == .block) State.blockWritten)

/-- HEADER_WRITE_COMPLETE (R141, R169): the header is on the card. -/
def execHeaderWriteComplete (s : State) : Host.Outcome State Fault Refusal :=
  s.event (State.completeWrite (·.kind == .header) fun _ t => t)

/-- The file sum that an index write carries. -/
def Write.fileSum? (w : Write) : Option Word16 :=
  match w.kind with
  | .index f => some f
  | _ => none

/-- A Shot index entry has been written: the shot is committed, and with its entry off the placement list the sleep test is
made (R169, R183). -/
def State.indexWritten (w : Write) (s : State) : State :=
  match w.fileSum?, s.card.letter with
  | some f, some k =>
    if w.cancelled then s
    else
      let s1 := s.broadcast (.commit w.shot k (BitVec.ofNat 16 w.frameNo) f)
      let s2 := s1.onCard fun c => Card.dropGrants w.shot { c with placements := c.placements.eraseP (·.shot == w.shot) }
      (s2.serve.raise (.shotCommitted w.shot (some k) (BitVec.ofNat 16 w.frameNo) f)).sleepTest
  | _, _ => s

/-- INDEX_WRITE_COMPLETE (R169). -/
def execIndexWriteComplete (s : State) : Host.Outcome State Fault Refusal :=
  s.event (State.completeWrite (·.fileSum?.isSome) State.indexWritten)

/-- A Void entry has been written (R149, step 5). -/
def State.voidWritten (w : Write) (s : State) : State :=
  match s.card.letter with
  | none => s
  | some k => s.broadcast (.unplace w.shot k .discarded)

/-- VOID_WRITE_COMPLETE (R149). -/
def execVoidWriteComplete (s : State) : Host.Outcome State Fault Refusal :=
  s.event (State.completeWrite (·.kind == .void) State.voidWritten)

/-- A write is under way: of the queue, or of a format (R139, R141). -/
def State.writing (s : State) : Bool :=
  ((s.card.state == .ready || s.card.state == .ejecting) && !s.card.writes.isEmpty) || s.card.state == .formatting

/-- A write error makes the card Failed (R143), and the sleep test is made (R183). -/
def State.writeError (s : State) : State :=
  s.doIf s.writing fun t => ((t.changeCard .failed none).dropAll .cardFailed).sleepTest

/-- CARD_WRITE_ERROR (R143). -/
def execCardWriteError (s : State) : Host.Outcome State Fault Refusal := s.event State.writeError

/-! ## The card socket (R135, R137, R142, R186) -/

/-- A card is inserted: it wakes a sleeping card station, and its mount begins (R137, R186). The interface reports an insertion
only while no card is present (R135). -/
def State.insertCard (m : Medium) (s : State) : State :=
  if s.cardStation && s.card.medium.isNone then
    let s1 := s.onCard fun c => { c with medium := some m }
    if s.power.state = .sleep then s1.wakeLocal .card
    else s1.doIf (s.card.state == .empty) State.beginMount
  else s

/-- CARD_INSERTED (R135, R137, R186). -/
def execCardInserted (card : Medium) (s : State) : Host.Outcome State Fault Refusal := s.event (State.insertCard card)

/-- The last index read has completed (R137, R138, R147). -/
def State.mountDone (s : State) : State :=
  match s.card.medium with
  | none => s
  | some m =>
    if s.card.state = .mounting then
      (s.changeCard (s.mountOutcome m).1 (s.mountOutcome m).2).rePlace
    else s

/-- MOUNT_READ_COMPLETE (R137). -/
def execMountReadComplete (s : State) : Host.Outcome State Fault Refusal := s.event State.mountDone

/-- A read error during the mount (R137, R143). -/
def State.mountError (s : State) : State := s.doIf (s.card.state == .mounting) (State.changeCard .failed none)

/-- MOUNT_READ_ERROR (R137). -/
def execMountReadError (s : State) : Host.Outcome State Fault Refusal := s.event State.mountError

/-- A removal (R142), after which the sleep test is made (R183); one in Sleep finds the card state Empty and wakes nothing
(R186). -/
def State.removeCard (s : State) : State :=
  if s.card.medium.isSome then
    (s.onCard fun c => { c with medium := none }).doIf (s.card.state != .empty)
      fun t => ((t.changeCard .empty none).dropAll .removed).sleepTest
  else s

/-- CARD_REMOVED (R142). -/
def execCardRemoved (s : State) : Host.Outcome State Fault Refusal := s.event State.removeCard

/-! ## Format (R139) -/

/-- The bytes of a card that a format has cleared and labelled (R139, R196). -/
def formatBytes (identity : Word32) (blocks : Nat) (m : Memory) : Memory :=
  ((m.clear (blockAddress 1) (64 * Config.blockBytes)).writeBytes 0 (labelBytes labelMagic identity blocks))

/-- The last write of a format has completed (R139, R147). -/
def State.formatDone (s : State) : State :=
  match s.card.medium, s.card.roll with
  | some m, some r =>
    if s.card.state = .formatting then
      ((s.onCard fun c => { c with medium := some { m with bytes := formatBytes r.identity r.blocks m.bytes } }).changeCard .ready
        (some r)).rePlace
    else s
  | _, _ => s

/-- FORMAT_COMPLETE (R139). -/
def execFormatComplete (s : State) : Host.Outcome State Fault Refusal := s.event State.formatDone

end Sys2Proof.Machine
end

