-- ==== Sys2Proof/Machine/Requests.lean ====
section
/-! DEFINITION. The requests (chapter 10) with their answers: how a Request is settled (R173), what each does (R32, R35, R54,
R55, R71, R90, R91, R106, R109, R130, R139, R140, R182, R188), and the Status report (R175, R176). -/

namespace Sys2Proof.Machine

/-! ## Answers (R172-R174) -/

/-- What an Answer says. -/
structure Reply where
  result : Result
  reason : Option Reason
  data : List Byte
  deriving DecidableEq, Repr

def Reply.done : Reply := { result := .done, reason := none, data := [] }
def Reply.doneWith (data : List Byte) : Reply := { result := .done, reason := none, data := data }
def Reply.report (data : List Byte) : Reply := { result := .data, reason := none, data := data }
def Reply.refused (r : Reason) : Reply := { result := .refused, reason := some r, data := [] }

/-- What a request does: the state after it, and its answer. -/
abbrev Action := State → State × Reply

/-- An action that changes nothing. -/
def refuse (r : Reason) : Action := fun s => (s, .refused r)

/-- The Answer is queued after the owning block has acted (R172). -/
def State.answer (h : ReqHeader) (code : Byte) (r : State × Reply) : State :=
  r.1.queue 7#4 (.answer h.tag code r.2.result r.2.reason r.2.data)

/-- The codes a station in Configuring refuses (R36, R173). -/
def captureCodes : List Byte := [0x10#8, 0x11#8, 0x12#8, 0x13#8, 0x14#8, 0x15#8, 0x32#8]

/-- Status (R175). -/
def statusCode : Byte := 0x30#8

/-- The rows of R173 before the owning block: why a Request is refused, if it is. -/
def settleRequest (st : StationState) (code : Byte) (readable : Bool) : Option Reason :=
  if st = .excluded then some .excluded
  else if st = .duplicate ∧ code ≠ statusCode then some .duplicate
  else if !readable then some .badValue
  else if st = .rolling ∧ code ≠ statusCode then some .badState
  else if st = .configuring ∧ captureCodes.contains code then some .badState
  else if st = .ready ∧ (code = 0x01#8 ∨ code = 0x02#8) then some .locked
  else none

/-- The requests after whose Answer the sleep test is made: a Sleep that enters Doze, and a Discard that frees a slot (R182,
R183). -/
def State.testsSleep (code : Byte) (r : Reply) (s : State) : Bool :=
  r.result == .done && (code == 0x21#8 || (code == 0x32#8 && s.power.state == .active))

/-- A Request is settled and answered (R172, R173), and the sleep test made where it follows (R182, R183). -/
def State.settle (h : ReqHeader) (code : Byte) (readable : Bool) (act : Action) (s : State) : State :=
  match settleRequest s.member.state code readable with
  | some r => State.answer h code (s, .refused r)
  | none => (State.answer h code (act s)).doIf (s.testsSleep code (act s).2) State.sleepTest

/-- A Request is taken (R26, R172, R173). -/
def State.request (h : ReqHeader) (code : Byte) (act : Action) (s : State) : State :=
  s.take .request (State.settle h code true act)

/-! ## Set and Begin (R32-R35) -/

/-- A Set answered Done clears the retained-settings flag (R28). -/
def State.reconfigured (s : State) : State := s.onMember fun m => { m with retainedValid := false }

/-- A Set of DefectEntry (R34, R108). -/
def setDefect (value : Word32) : Action := fun s =>
  let row := value.toNat / 65536
  let column := value.toNat % 65536
  if s.settings.tileRows ≤ row ∨ s.settings.tileColumns ≤ column then (s, .refused .badValue)
  else if !s.dark.holds row column && s.dark.full then (s, .refused .full)
  else ((s.onDark (Dark.insert row column .fixed)).reconfigured, .done)

/-- Every entry of the Defect Table lies inside a tile size (R34). -/
def Dark.inside (st : Settings) (d : Dark) : Bool :=
  d.defects.all fun e => decide (e.row < st.tileRows) && decide (e.column < st.tileColumns)

/-- The items of the tile size. -/
def sizeItem (item : Byte) : Bool := item == 0x02#8 || item == 0x03#8

/-- Two settings have the same tile size. -/
def sameSize (a b : Settings) : Bool := a.tileRows == b.tileRows && a.tileColumns == b.tileColumns

/-- After a change of the tile size the ring is emptied and the dark slot is invalid (R34, R96). -/
def State.resized (s : State) : State := s.invalidateDark.emptyRing

/-- A Set (R32, R34). -/
def actSet (toAll : Bool) (item : Byte) (value : Word32) : Action := fun s =>
  if item = defectItem then setDefect value s
  else
    match s.settings.put item value.toNat with
    | none => (s, .refused .badValue)
    | some st =>
      if !toAll && !stationScope item then (s, .refused .badValue)
      else if sizeItem item && !s.dark.inside st then (s, .refused .badValue)
      else
        (((s.onMember fun m => { m with settings := st }).reconfigured).doIf (!sameSize s.settings st) State.resized, .done)

/-- SET (R32). -/
def execSetItem (h : ReqHeader) (item : Byte) (value : Word32) (s : State) : Host.Outcome State Fault Refusal :=
  s.event (State.request h 0x01#8 (actSet h.toAll item value))

/-- The number of members a grid shape asks for (R35). -/
def GridShape.members (g : GridShape) : Nat := g.columns * g.rows

/-- The number of the first check of R35 that fails, or none. -/
def beginFailure (m : Membership) : Option Nat :=
  let cards := (m.table.filter (·.fitted.card)).length
  match m.settings.gridShape with
  | none => some 1
  | some g =>
    if m.table.length ≠ g.members then some 2
    else if m.table.map (·.number.toNat) ≠ List.range m.table.length then some 3
    else if cards < 1 ∨ 2 < cards then some 4
    else if m.settings.storageMode ≠ .single ∧ cards ≠ 2 then some 5
    else if 1 < (m.table.filter (·.fitted.release)).length then some 6
    else none

/-- A successful Begin: Ready, with the retained configuration set (R28, R35). -/
def Membership.begin (m : Membership) : Membership :=
  { m with state := .ready, retainedValid := true, retained := m.table.map fun e => (e.number, e.serial) }

/-- Begin (R35). -/
def actBegin : Action := fun s =>
  match beginFailure s.member with
  | some k => (s, { result := .refused, reason := some .badValue, data := [BitVec.ofNat 8 k] })
  | none => (((s.onMember Membership.begin).onCapture fun c => { c with state := .disarmed }).enterReady, .done)

/-- BEGIN (R35). -/
def execBeginConf (h : ReqHeader) (s : State) : Host.Outcome State Fault Refusal := s.event (State.request h 0x02#8 actBegin)

/-! ## Capture requests (R54, R55, R71, R106) -/

/-- Halted, or with halt-pending set: Arm is refused (R54). -/
def Capture.haltedOrPending (c : Capture) : Bool := c.state == .halted || c.haltPending

/-- Armed from Disarmed or Halted: the bounce count is set to 0 (R51, R54). -/
def State.becomeArmed (s : State) : State :=
  (s.onCapture fun c => { c with state := .armed }).onSync fun y => { y with bounces := 0 }

/-- Arm (R54); taken in Doze it returns the station to Active, but where it is refused, which changes nothing (R174, R185;
log 19). -/
def actArm : Action := fun s =>
  if s.capture.haltedOrPending then (s, .refused .badState)
  else
    match s.capture.state with
    | .disarmed => (s.leaveDoze.becomeArmed, .done)
    | .armed => (s.leaveDoze, .done)
    | _ => (s.leaveDoze.onCapture fun c => { c with disarmPending := false }, .done)

/-- ARM (R54, R185). -/
def execArm (h : ReqHeader) (s : State) : Host.Outcome State Fault Refusal := s.event (State.request h 0x10#8 actArm)

/-- Disarm (R54). -/
def actDisarm : Action := fun s =>
  (s.cancelRelease.onCapture fun c =>
    if c.state.working then { c with disarmPending := true, haltPending := false } else { c with state := .disarmed }, .done)

/-- DISARM (R54). -/
def execDisarm (h : ReqHeader) (s : State) : Host.Outcome State Fault Refusal := s.event (State.request h 0x11#8 actDisarm)

/-- Resume (R54). MODEL'S CHOICE (log 57): taken in Doze at a station that a Refuse with policy Halt made Halted there, it makes
the station Armed and leaves it in Doze, since R185 does not name Resume. -/
def actResume : Action := fun s =>
  if s.capture.state = .halted then (s.becomeArmed, .done)
  else if s.capture.haltPending then (s.onCapture fun c => { c with haltPending := false }, .done)
  else (s, .refused .badState)

/-- RESUME (R54). -/
def execResume (h : ReqHeader) (s : State) : Host.Outcome State Fault Refusal := s.event (State.request h 0x12#8 actResume)

/-- The pending release becomes a target, and the alarm is armed with it; it compares at once (R48, R71). -/
def State.armRelease (t : Time) (s : State) : State :=
  ((s.onCapture fun c => { c with pendingRelease := some t }).onClock fun c => { c with alarm := some t }).testAlarm

/-- Release (R71). -/
def actRelease (t : Time) : Action := fun s =>
  if !s.member.straps.fitted.release then (s, .refused .notMember)
  else if s.capture.state ≠ .armed then (s, .refused .badState)
  else if s.clock.linkTime.toNat + Config.releaseAhead < t.toNat then (s, .refused .badValue)
  else (s.armRelease t, .doneWith [flagByte (decide (t ≤ s.clock.linkTime))])

/-- RELEASE (R71). -/
def execRelease (h : ReqHeader) (t : Time) (s : State) : Host.Outcome State Fault Refusal :=
  s.event (State.request h 0x13#8 (actRelease t))

/-- Exposure (R55). -/
def actExposure (shutter : Word32) : Action := fun s =>
  if 100 ≤ shutter.toNat ∧ shutter.toNat ≤ 1000000 then (s.onCapture fun c => { c with shutter := shutter.toNat }, .done)
  else (s, .refused .badValue)

/-- EXPOSURE (R55). -/
def execExposure (h : ReqHeader) (shutter : Word32) (s : State) : Host.Outcome State Fault Refusal :=
  s.event (State.request h 0x14#8 (actExposure shutter))

/-- TakeDark (R106). -/
def actTakeDark (duration : Word32) : Action := fun s =>
  if s.capture.state ≠ .armed then (s, .refused .badState)
  else if duration.toNat < 1 ∨ 3600000 < duration.toNat then (s, .refused .badValue)
  else (s.startDark 0#32 (duration.toNat * 1000), .done)

/-- TAKEDARK (R106). -/
def execTakeDark (h : ReqHeader) (duration : Word32) (s : State) : Host.Outcome State Fault Refusal :=
  s.event (State.request h 0x15#8 (actTakeDark duration))

/-! ## Ring, defects, statistics (R90, R91, R109, R130) -/

/-- Keep (R90). -/
def actKeep (n : Shot) : Action := fun s =>
  match s.entry? n, s.slot? n with
  | some _, some x =>
    if x.tag = .held then ((s.updSlot n fun y => { y with tag := .developed }).chooseTile, .done)
    else (s, .refused .badState)
  | _, _ => (s, .refused .notFound)

/-- KEEP (R90). -/
def execKeep (h : ReqHeader) (n : Shot) (s : State) : Host.Outcome State Fault Refusal :=
  s.event (State.request h 0x20#8 (actKeep n))

/-- Discard (R91). -/
def actDiscard (toAll : Bool) (n : Shot) : Action := fun s =>
  if !toAll then (s, .refused .badValue)
  else
    match s.entry? n, s.slot? n with
    | some _, some x => if x.tag.settled then (s.freeSlot n, .done) else (s, .refused .busy)
    | _, _ => (s, .refused .notFound)

/-- DISCARD (R91). -/
def execDiscard (h : ReqHeader) (n : Shot) (s : State) : Host.Outcome State Fault Refusal :=
  s.event (State.request h 0x21#8 (actDiscard h.toAll n))

/-- ForgetHot (R109). -/
def actForgetHot : Action := fun s =>
  if s.ring.slots.any (fun o => o.any (·.tag == .developing)) || s.dark.capture.any (·.phase == .scanning) then
    (s, .refused .busy)
  else (s.onDark fun d => { d with defects := d.defects.filter (·.origin != .hot), overflow := 0 }, .done)

/-- FORGETHOT (R109). -/
def execForgetHot (h : ReqHeader) (s : State) : Host.Outcome State Fault Refusal := s.event (State.request h 0x22#8 actForgetHot)

/-- Histogram (R130). -/
def actHistogram (n : Shot) : Action := fun s =>
  match s.develop.stats with
  | .histogram m bins =>
    if m = n ∧ n ≠ 0#32 then (s, .report (beBytes 4 n.toNat ++ bins.flatMap (beBytes 4))) else (s, .refused .noData)
  | _ => (s, .refused .noData)

/-- HISTOGRAM (R130). -/
def execHistogram (h : ReqHeader) (n : Shot) (s : State) : Host.Outcome State Fault Refusal :=
  s.event (State.request h 0x23#8 (actHistogram n))

/-! ## Format and Eject (R139, R140) -/

/-- Whether a request names this station's socket; a byte that is no listed code names none (log 45). -/
def State.namesSocket (socket : Byte) (s : State) : Bool := s.card.letter.any fun k => socketCode k == socket

/-- The roll identity a format gives: the low 32 bits of link time, 0 written as 1 (R139). -/
def formatIdentity (t : Time) : Word32 := if t.setWidth 32 = 0#32 then 1#32 else t.setWidth 32

/-- The block count a format records (R139). -/
def formatBlocks (m : Medium) : Nat := min m.capacity 4294967295

/-- A format begins: it first writes a label whose magic value is 0 (R139; log 12), with the other fields of the label that ends
the format (MODEL'S CHOICE, log 51). The cursors kept for the format in hand are the 0 and 65 of the roll it makes, from here on
(MODEL'S CHOICE, log 52). -/
def State.beginFormat (s : State) : State :=
  match s.card.medium with
  | none => s
  | some m =>
    let identity := formatIdentity s.clock.linkTime
    (s.onCard fun c =>
      { c with medium := some { m with bytes := m.bytes.writeBytes 0 (labelBytes 0 identity (formatBlocks m)) } }).changeCard
      .formatting (some { identity := identity, blocks := formatBlocks m, index := 0, write := Config.firstDataBlock })

/-- Format (R139). -/
def actFormat (socket : Byte) : Action := fun s =>
  if !s.namesSocket socket then (s, .refused .notMember)
  else
    match s.card.state with
    | .empty => (s, .refused .noCard)
    | .released => (s, .refused .noCard)
    | .failed => (s, .refused .noCard)
    | .mounting => (s, .refused .busy)
    | .formatting => (s, .refused .busy)
    | .ejecting => (s, .refused .busy)
    | .unformatted => (s.beginFormat, .done)
    | .ready => if s.card.placements.isEmpty && s.card.writes.isEmpty then (s.beginFormat, .done) else (s, .refused .busy)

/-- FORMAT (R139). -/
def execFormat (h : ReqHeader) (socket : Byte) (s : State) : Host.Outcome State Fault Refusal :=
  s.event (State.request h 0x24#8 (actFormat socket))

/-- Eject (R140). -/
def actEject (socket : Byte) : Action := fun s =>
  if !s.namesSocket socket then (s, .refused .notMember)
  else
    match s.card.state with
    | .empty => (s, .refused .noCard)
    | .failed => (s, .refused .noCard)
    | .mounting => (s, .refused .busy)
    | .formatting => (s, .refused .busy)
    | .ejecting => (s, .done)
    | .released => (s, .done)
    | .unformatted => (s.changeCard .released none, .done)
    | .ready => ((s.changeCard .ejecting s.card.roll).ejectTest, .done)

/-- EJECT (R140). -/
def execEject (h : ReqHeader) (socket : Byte) (s : State) : Host.Outcome State Fault Refusal :=
  s.event (State.request h 0x25#8 (actEject socket))

/-! ## Status (R175, R176, R195) -/

def stationStateCode : StationState → Byte
  | .rolling => 0#8
  | .configuring => 1#8
  | .ready => 2#8
  | .excluded => 3#8
  | .duplicate => 4#8

def powerStateCode : PowerState → Byte
  | .active => 0#8
  | .doze => 1#8
  | .sleep => 2#8

def captureStateCode : CaptureState → Byte
  | .disarmed => 0#8
  | .armed => 1#8
  | .exposing => 2#8
  | .reading => 3#8
  | .darkExposing => 4#8
  | .darkReading => 5#8
  | .halted => 6#8

/-- The tag of a slot, 0 for Empty (R195). -/
def tagCode : Option Tag → Byte
  | none => 0#8
  | some .exposing => 1#8
  | some .reading => 2#8
  | some .raw => 3#8
  | some .developing => 4#8
  | some .held => 5#8
  | some .developed => 6#8

/-- The level of a class, by its place in class order (R177). -/
def Settings.level (st : Settings) (i : Nat) : Nat := st.noticeLevels.getD i 0

/-- The level-0 pending flags: bit c - 1 for the class of order c (R176, R195). -/
def State.quietFlags (s : State) : Nat :=
  ((List.range 11).map fun i =>
    if (s.notices.records.getD i none).isSome && s.settings.level i == 0 then 2 ^ i else 0).sum

/-- The shot numbers of the roster in ring order, filled out to eight with 0 (R82, R195). -/
def State.rosterShots (s : State) : List Nat :=
  ((s.ring.inOrder.map fun (x : Slot) => x.shot.toNat) ++ List.replicate 8 0).take 8

/-- The Status report (R175, R195). -/
def State.report (s : State) : List Byte :=
  let c := if s.cardStation then s.card.reported else (0#32, 0, 0)
  [s.self.setWidth 8] ++ beBytes 4 s.member.serial.toNat
    ++ [fittedByte s.member.straps.fitted, stationStateCode s.member.state, optSocketCode s.card.letter]
  ++ [flagByte s.link.detached] ++ beBytes 4 s.link.spoiled ++ beBytes 4 s.link.retries ++ beBytes 4 s.link.malformed
  ++ [powerStateCode s.power.state, flagByte s.power.sleepPending]
  ++ [captureStateCode s.capture.state, flagByte s.capture.disarmPending, flagByte s.capture.haltPending]
    ++ beBytes 4 s.capture.current.toNat ++ beBytes 8 (s.capture.pendingRelease.getD 0#64).toNat
  ++ (s.ring.slots.map fun o => tagCode (o.map (·.tag))) ++ [BitVec.ofNat 8 s.ring.top] ++ beBytes 4 s.ring.next.toNat
  ++ [BitVec.ofNat 8 s.ring.roster.length] ++ s.rosterShots.flatMap (beBytes 4)
  ++ [flagByte s.dark.valid] ++ beBytes 4 (s.dark.duration.getD 0) ++ beBytes 8 (s.dark.captureEnd.getD 0#64).toNat
  ++ beBytes 2 s.dark.defects.length ++ beBytes 2 s.dark.overflow ++ beBytes 2 s.develop.late ++ beBytes 2 s.develop.overrun
  ++ [cardStateCode s.card.state] ++ beBytes 4 c.1.toNat ++ beBytes 2 c.2.1 ++ beBytes 4 c.2.2
  ++ beBytes 2 s.quietFlags ++ [maskOf s.memberNumbers]

/-- The records of the classes at level 0 are cleared (R176). -/
def Notices.clearQuiet (levels : List Nat) (n : Notices) : Notices :=
  { n with records := List.zipWith (fun r l => if l = 0 then none else r) n.records levels }

/-- Status (R175, R176). -/
def actStatus : Action := fun s => (s.onNotices (Notices.clearQuiet s.settings.noticeLevels), .report s.report)

/-- STATUS (R175). -/
def execStatus (h : ReqHeader) (s : State) : Host.Outcome State Fault Refusal := s.event (State.request h statusCode actStatus)

/-! ## Power (R182, R188) -/

/-- DumpWake (R188). -/
def actDumpWake : Action := fun s =>
  match s.develop.stats with
  | .wakeRecord bytes => (s.onDevelop fun d => { d with stats := .invalid }, .report bytes)
  | _ => (s, .refused .noData)

/-- DUMPWAKE (R188). -/
def execDumpWake (h : ReqHeader) (s : State) : Host.Outcome State Fault Refusal := s.event (State.request h 0x31#8 actDumpWake)

/-- Sleep (R182); the test of R183 follows the Answer (`State.settle`). -/
def actSleep : Action := fun s => (s.doIf (s.power.state == .active) State.enterDoze, .done)

/-- SLEEP (R182). -/
def execSleep (h : ReqHeader) (s : State) : Host.Outcome State Fault Refusal := s.event (State.request h 0x32#8 actSleep)

/-! ## Any Request -/

/-- A code that is not in the table of 10.1, or arguments of another length, are answered BadValue in their row (R173). -/
def State.unreadable (h : ReqHeader) (code : Byte) (s : State) : State :=
  s.take .request (State.settle h code false (refuse .badValue))

/-- REQUEST_UNKNOWN_CODE (R173). -/
def execRequestUnknownCode (h : ReqHeader) (code : Byte) (s : State) : Host.Outcome State Fault Refusal :=
  s.event (State.unreadable h code)

/-- What a readable request does. -/
def Req.action (toAll : Bool) : Req → Action
  | .setItem item value => actSet toAll item value
  | .beginConf => actBegin
  | .arm => actArm
  | .disarm => actDisarm
  | .resume => actResume
  | .release t => actRelease t
  | .exposure t => actExposure t
  | .takeDark d => actTakeDark d
  | .keep n => actKeep n
  | .discard n => actDiscard toAll n
  | .forgetHot => actForgetHot
  | .histogram n => actHistogram n
  | .format k => actFormat k
  | .eject k => actEject k
  | .status => actStatus
  | .dumpWake => actDumpWake
  | .sleep => actSleep
  | .unreadable => refuse .badValue

/-- A Request frame is taken; one whose source is not the panel processor is disregarded (R172). -/
def State.takeRequest (source : Node) (toAll : Bool) (tag code : Byte) (args : List Byte) (s : State) : State :=
  if source = panelNode then
    match Req.read code args with
    | .unreadable => s.unreadable { tag := tag, toAll := toAll } code
    | r => s.request { tag := tag, toAll := toAll } code (Req.action toAll r)
  else s

end Sys2Proof.Machine
end

