-- ==== Sys2Proof/Machine/RollCall.lean ====
section
/-! DEFINITION. The roll call's commands (chapter 2): ROLL_TAKEN, RESTART_TAKEN and
START. -/

namespace Sys2Proof.Machine

/-! ## Rolls (R24, R29) -/

/-- A Roll's fields. -/
structure RollFields where
  source : Node
  station : Byte
  serial : Word32
  fitted : Fitted
  next : Shot
  rejoin : Bool
  deriving DecidableEq, Repr

/-- The check of R24: a Roll that fails it is disregarded. -/
def RollFields.ok (r : RollFields) : Bool :=
  r.station == r.source.setWidth 8 && decide (r.station.toNat ≤ 5) && r.serial != 0#32

/-- A Roll is entered in the member table, which stays in station-number order (R24). -/
def enterRoll (r : RollFields) : List Member → List Member
  | [] => [{ number := r.source, serial := r.serial, fitted := r.fitted, duplicated := false }]
  | m :: ms =>
    if r.source < m.number then
      { number := r.source, serial := r.serial, fitted := r.fitted, duplicated := false } :: m :: ms
    else if r.source = m.number then
      (if r.serial = m.serial then { m with fitted := r.fitted } else { m with duplicated := true }) :: ms
    else m :: enterRoll r ms

/-- The station's own Roll, taken back by loopback (R23; log 25). -/
def State.isOwnRoll (r : RollFields) (s : State) : Bool := r.source == s.self && r.serial == s.member.serial

/-- A Roll taken in Rolling (R23, R24): it is entered, the highest shot number heard rises, and the roll timer is started by
the own Roll and restarted by any later one. -/
def State.rollIn (r : RollFields) (s : State) : State :=
  let s1 := s.onMember fun m =>
    { m with table := enterRoll r m.table, highest := if m.highest < r.next then r.next else m.highest,
             ownRollOut := m.ownRollOut || s.isOwnRoll r }
  s1.doIf s1.member.ownRollOut (State.loadTimer .roll Config.rollWindow)

/-- A Roll of the station's own. -/
def isRoll : Msg → Bool
  | .roll .. => true
  | _ => false

/-- A Roll taken in Configuring or Ready (R29). -/
def State.rollHeard (r : RollFields) (s : State) : State :=
  if s.member.table.any (fun m => m.number == r.source && m.serial == r.serial) then
    s.doIf (r.rejoin && !s.link.controlMsgs.any isRoll) fun t => t.broadcast (t.ownRoll false)
  else s.raise (.stranger r.station r.serial r.fitted)

/-- What becomes of a Roll that passes the check of R24, by the station state (R22, R24, R29). -/
def State.meetRoll (r : RollFields) (s : State) : State :=
  match s.member.state with
  | .rolling => s.rollIn r
  | .configuring => s.rollHeard r
  | .ready => s.rollHeard r
  | .excluded => s
  | .duplicate => s

/-- A Roll is taken: one that fails the check of R24 changes nothing (R24). -/
def State.takeRoll (r : RollFields) (s : State) : State :=
  if s.power.state = .sleep ∨ r.ok = false then s else s.meetRoll r

/-- ROLL_TAKEN (R24, R29). -/
def execRollTaken (source : Node) (station : Byte) (serial : Word32) (fitted : Fitted) (next : Shot) (rejoin : Bool)
    (s : State) : Host.Outcome State Fault Refusal :=
  s.event (State.takeRoll
    { source := source, station := station, serial := serial, fitted := fitted, next := next, rejoin := rejoin })

/-! ## Restart (R31 and each block's Restart handling) -/

/-- The Link Interface at a Restart (R19): the queues and what is held are discarded, Detached is cleared, and the link is
free. -/
def Link.restart (l : Link) : Link :=
  { l with
    urgent := [], control := [], urgentHeld := [], controlHeld := [], rollHeld := [], bulk := none, detached := false
    phase := .free, frameStart := none }

/-- The Membership Unit acts on the reconfigure flag (R31). -/
def Membership.restart (reconfigure : Bool) (m : Membership) : Membership :=
  if reconfigure then { m with state := .rolling, settings := {}, retainedValid := false } else { m with state := .rolling }

/-- A placement list entry kept at a Restart: the progress of a Filling entry starts again (R150). -/
def Placed.restart (p : Placed) : Placed :=
  if p.phase = .filling then { p with progress := p.progress.map Progress.restart, unwritten := 0 }
  else { p with unwritten := 0 }

/-- The segment buffers, the grants and the waiting claims at a Restart (R150). -/
def Card.clearBuffers (c : Card) : Card :=
  { c with writes := cancelWrites (·.kind == .block) c.writes, grants := [], waiting := [] }

/-- The placements kept at a Restart (R150). -/
def Card.restart (c : Card) : Card := { c with placements := c.placements.map Placed.restart }

/-- The Develop Engine at a Restart, but for the refilling of the owed list (R93, R132). -/
def State.developRestart (s : State) : State :=
  match s.develop.job with
  | none => s.onDevelop fun d => { d with owed := [], store := [] }
  | some j =>
    (s.stopJob.updSlot j.shot fun x => { x with tag := if x.tag = .developing then .raw else x.tag }).onDevelop fun d =>
      { d with owed := [], store := [] }

/-- The owed list is refilled with the bands of the Held and Developed shots, in ring order (R132). -/
def State.refillOwed (s : State) : State :=
  s.onDevelop fun d =>
    { d with owed := (s.ring.inOrder.filter fun x => x.tag == .held || x.tag == .developed).foldl
               (fun l x => addOwed x.shot s.facing l) d.owed }

/-- The Capture Controller's timers and the seam timer at a Restart (R47, R73). -/
def Timers.restart (t : Timers) : Timers := { t.haltCapture with seam := t.seam.halt }

/-- The Capture Controller at a Restart, but for the slots it has freed (R73). -/
def State.captureRestart (reconfigure : Bool) (s : State) : State :=
  ((s.abandonDark.cancelRelease).onClock fun c => { c with timers := c.timers.restart }).onCapture fun c =>
    { c with state := .disarmed, exposure := none, quiet := [], disarmPending := false, haltPending := false,
             shutter := if reconfigure then 8000 else c.shutter }

/-- The shots whose slots are Exposing or Reading. -/
def State.unreadShots (s : State) : List Shot :=
  ((s.ring.slots.filterMap id).filter fun (x : Slot) => x.tag == .exposing || x.tag == .reading).map (·.shot)

/-- A Restart addressed to the station alone has its card station send a Redo for each member of each entry kept in Filling
(R171). -/
def State.redoFilling (s : State) : State :=
  match s.card.letter with
  | none => s
  | some k =>
    (s.card.placements.filter (·.phase == .filling)).foldl (fun t p =>
      p.progress.foldl (fun u m => u.broadcast (.redo p.shot (m.member.setWidth 8) k .restarted)) t) s

/-- The Ring Manager and the Transfer Unit at a Restart: transfers start again, and the slots Exposing or Reading are freed
(R93, R171). -/
def State.ringRestart (s : State) : State :=
  let s1 := (s.onTransfer fun t => { t with current := none }).onRing fun r => { r with roster := r.roster.map Entry.resetTransfer }
  s1.unreadShots.foldl (fun t n => t.freeSlot n) s1

/-- A Restart is handled: every block makes its Restart handling, and a new roll call begins (R19, R31). A placement that goes with
its slot (R93) is voided with the close fields recorded so far, before the progress of the others starts again (R149, R150); the
emptying after a changed tile size follows the Restart handling of every block (R34). The Redos of R171 name the entries kept in
Filling: those that the emptying voids are not among them (R150; log 28). -/
def State.restart (toAll reconfigure : Bool) (s : State) : State :=
  let s1 := ((s.leaveDoze.onLink Link.restart).onNotices fun n => { n with records := List.replicate 11 none }).onMember
    (Membership.restart reconfigure)
  let s2 := ((s1.onCard Card.clearBuffers).developRestart.captureRestart reconfigure).ringRestart
  let s3 := ((s2.onCard Card.restart).refillOwed).doIf (!sameSize s.settings s1.settings) State.resized
  (s3.doIf (!toAll) State.redoFilling).setupRollCall (!toAll)

/-- A Restart is taken; a station strapped 6 or 7 disregards it, and a station in Sleep does not take it (R20, R31). -/
def State.takeRestart (toAll reconfigure : Bool) (s : State) : State :=
  if s.power.state = .sleep ∨ s.strapInvalid = true then s else s.restart toAll reconfigure

/-- RESTART_TAKEN (R31). -/
def execRestartTaken (toAll reconfigure : Bool) (s : State) : Host.Outcome State Fault Refusal :=
  s.event (State.takeRestart toAll reconfigure)

/-! ## Start (R21) -/

/-- The station just after the straps and the serial are read: every block as after Start, the card in the socket, and the
model's queue, as they were. -/
def State.fresh (straps : Straps) (serial : Word32) (linkBusy : Bool) (s : State) : State :=
  { member := { straps := straps, serial := serial }
    link := { phase := if linkBusy then .hearing false else .free }
    card := { medium := s.card.medium }
    pending := s.pending }

/-- Start: every block takes its after-Start values, a card present is mounted, and the roll call begins, or the station
strapped 6 or 7 is Excluded (R21, R23, R151). -/
def State.start (straps : Straps) (serial : Word32) (linkBusy : Bool) (s : State) : State :=
  let s1 := (s.fresh straps serial linkBusy).mountIfPresent
  if s1.strapInvalid then s1.onMember fun m => { m with state := .excluded } else s1.setupRollCall false

/-- START (R21). -/
def execStart (straps : Straps) (serial : Word32) (linkBusy : Bool) (s : State) : Host.Outcome State Fault Refusal :=
  .next (s.start straps serial linkBusy)

end Sys2Proof.Machine
end

