-- ==== Sys2Proof/Machine/Link.lean ====
section
/-! DEFINITION. The Link Interface's commands (chapter 1) with the delivery of frames to the blocks (R2, R3), and the
admission of Notices (R14, R178). -/

namespace Sys2Proof.Machine

/-! ## Delivery (R2, R3) -/

/-- A frame's fields are taken by the block or blocks that own its kind (R2); the times handed over with the frame are its
frame-start time (R38). -/
def State.deliverMsg (source : Node) (toAll : Bool) (frameStart : Time) (msg : Msg) (s : State) : State :=
  match msg with
  | .roll a u f n r => s.takeRoll { source := source, station := a, serial := u, fitted := f, next := n, rejoin := r }
  | .mark t => s.takeMark t frameStart
  | .openShot n t => s.take .capture (State.captureOpen source n t)
  | .closeShot n t l => s.take .capture (State.captureClose n t l)
  | .refuse n r p => s.take .capture (State.captureRefuse source n r p)
  | .readDone n k d => s.take .capture (State.captureReadDone source n k d)
  | .place n k o => s.take .other (State.blocksPlace source n k o)
  | .unplace n k _ => s.take .other (State.blocksUnplace source n k)
  | .claim k n c => s.takeClaim source k n c
  | .grant _ k n c _ => s.take .other (State.transferGrant k n c)
  | .redo n m _ _ => s.take .other fun t => (t.cardRedo n m).transferRedo n m
  | .commit n k _ _ => s.take .other (State.blocksCommit n k)
  | .request tag code args => s.takeRequest source toAll tag code args
  | .answer .. => s
  | .notice .. => s
  | .restart r => s.takeRestart toAll r
  | .wake m c => s.takeWake source m c
  | .seam n d band => s.take .other (State.engineSeam source n d band)
  | .segment b => s.takeSegment source b

/-- Kinds that the test of R26 does not look at when a block disregards their body: the Membership Unit's, the Power
Controller's, and those of no block at this station. -/
def State.passesOver (kind : Byte) (s : State) : Bool :=
  kind == 0x01#8 || kind == 0x31#8 || kind == 0x32#8 || kind == 0x38#8 || kind == 0x39#8
    || (!s.cardStation && (kind == 0x22#8 || kind == 0x41#8))

/-- A frame taken whose body holds a code that chapter 12 does not list is disregarded by its owning block; it still shows a
running back (R26, R193). -/
def State.deliverUnlisted (kind : Byte) (s : State) : State :=
  if s.passesOver kind then s else s.take .other id

/-- Kinds delivered at every station whatever their destination (R3): Place, Unplace, Redo, Commit, Seam, Segment. -/
def deliveredEverywhere (kind : Byte) : Bool :=
  kind == 0x20#8 || kind == 0x21#8 || kind == 0x24#8 || kind == 0x25#8 || kind == 0x40#8 || kind == 0x41#8

/-- The destination test (R3). A station strapped 6 or 7 has no node number that a frame could name (R21). -/
def State.addressed (f : WireFrame) (s : State) : Bool :=
  (!s.strapInvalid && f.dst == nodeDst s.self) || f.dst == 15#4 || deliveredEverywhere f.kind

/-- A frame that is not malformed is delivered (R3). -/
def State.deliver (f : WireFrame) (frameStart : Time) (s : State) : State :=
  if s.addressed f then
    match Msg.parse f.kind f.body with
    | some m => s.deliverMsg f.src (f.dst == 15#4) frameStart m
    | none => s.deliverUnlisted f.kind
  else s

/-! ## Offering a frame (R4-R6, R15, R16, R39) -/

/-- The head of a queue. -/
def headFrame (q : List Queued) : Option Frame := q.head?.map (·.frame)

/-- A Mark is stamped with link time at each offer (R39). -/
def Msg.stamp (now : Time) : Msg → Msg
  | .mark _ => .mark now
  | m => m

/-- The head of a queue is stamped. -/
def stampHead (now : Time) : List Queued → List Queued
  | [] => []
  | q :: qs => { q with frame := { q.frame with msg := Msg.stamp now q.frame.msg } } :: qs

/-- The frame a station offers, by class, once the bulk frame has been built where R4 turns to it (R4, R15, R16). -/
def State.offer (s : State) : Option (SendSource × Frame) :=
  match headFrame s.link.urgent, headFrame s.link.control, s.link.bulk with
  | some f, _, _ => some (.urgent, f)
  | none, some f, _ => some (.control, f)
  | none, none, some b => if s.capture.quiet.isEmpty then some (.bulk, b.frame) else none
  | none, none, none => none

/-- What R4 does before the choice: a Mark at the head is stamped, and a bulk frame is built where both queues are empty and
the quiet set is. -/
def State.prepareOffer (s : State) : State :=
  (s.onLink fun l =>
    { l with control := if l.urgent.isEmpty then stampHead s.clock.linkTime l.control else l.control }).doIf
    (s.link.urgent.isEmpty && s.link.control.isEmpty && s.capture.quiet.isEmpty && s.running) State.buildBulk

/-- The station may offer: the link is free, and it is neither Detached nor in Sleep (R4, R10, R20). -/
def State.mayOffer (s : State) : Bool :=
  s.link.phase == .free && !s.link.detached && s.power.state != .sleep

/-- A frame begins on the link and is heard from its start (R7, R38). -/
def State.hear (s : State) : State :=
  s.onLink fun l => { l with phase := .hearing true, frameStart := some s.clock.linkTime }

/-- The station's own frame begins on the link (R38). -/
def State.send (src : SendSource) (s : State) : State :=
  s.onLink fun l => { l with phase := .sending src false, frameStart := some s.clock.linkTime }

/-- A frame of another node begins, where the link does not already carry one heard from its start or sent (R7). -/
def State.rivalBegins (s : State) : State :=
  match s.link.phase with
  | .free => s.hear
  | .hearing false => s.hear
  | _ => s

/-- The offer at a free link with the frame, if any, that another node offers at the same moment: the frame that is not
dominated goes on, and the loser listens (R4, R5, R6; log 33). -/
def State.offerAgainst (rival : Option WireFrame) (s : State) : State :=
  match s.prepareOffer.offer with
  | none => s.prepareOffer.doIf rival.isSome State.hear
  | some (src, f) =>
    if rival.all fun g => (Frame.wire s.self f).wins g then s.prepareOffer.send src else s.prepareOffer.hear

/-- The link is free: the station offers where it may, and hears a frame that another node begins (R4, R7). -/
def State.meetFreeLink (rival : Option WireFrame) (s : State) : State :=
  if s.mayOffer then s.offerAgainst rival else s.doIf rival.isSome State.rivalBegins

/-- LINK_FREE_OFFER (R4). -/
def execLinkFreeOffer (rival : Option WireFrame) (s : State) : Host.Outcome State Fault Refusal :=
  s.event (State.meetFreeLink rival)

/-- FRAME_START (R7, R38). -/
def execFrameStart (s : State) : Host.Outcome State Fault Refusal := s.event State.rivalBegins

/-! ## The end of a frame (R7-R11) -/

/-- A link counter rises (R18). -/
def countLink (n : Nat) : Nat := satInc Config.linkCounterLimit n

/-- The station drives the spoil mark (R7, R18). -/
def Link.driveSpoil (l : Link) : Link := { l with spoiled := countLink l.spoiled }

/-- The head of a queue has been spoiled: it is kept with a retry, or discarded at the 16th spoil (R9). -/
def spoilHead : List Queued → List Queued × Bool
  | [] => ([], false)
  | q :: qs => if q.spoils + 1 < Config.spoilLimit then ({ q with spoils := q.spoils + 1 } :: qs, false) else (qs, true)

/-- A retry is counted, or the station enters Detached (R9, R10, R18). -/
def Link.afterSpoil (discarded : Bool) (l : Link) : Link :=
  if discarded then { l with detached := true } else { l with retries := countLink l.retries }

/-- The station's own frame ended with a dominant spoil mark (R9, R17). -/
def Link.ownSpoiled (src : SendSource) (l : Link) : Link :=
  match src with
  | .urgent => Link.afterSpoil (spoilHead l.urgent).2 { l with urgent := (spoilHead l.urgent).1 }
  | .control => Link.afterSpoil (spoilHead l.control).2 { l with control := (spoilHead l.control).1 }
  | .bulk =>
    match l.bulk with
    | none => l
    | some b =>
      if Config.spoilLimit ≤ b.spoils + 1 then Link.afterSpoil true { l with bulk := none }
      else if b.cancelled then { l with bulk := none }
      else Link.afterSpoil false { l with bulk := some { b with spoils := b.spoils + 1 } }

/-- A frame was discarded by every station (R8, R9); a withdrawal is no spoil for its sender (R16). -/
def Link.discardFrame (l : Link) : Link :=
  match l.phase with
  | .sending src false => Link.ownSpoiled src l
  | .sending _ true => { l with bulk := l.bulk.filter fun b => !b.cancelled }
  | _ => l

/-- The frame has ended: the link is free, and the frame-start time is dropped (R1, R38). -/
def Link.free (l : Link) : Link := { l with phase := .free, frameStart := none }

/-- The station's own frame went out: it leaves its queue, or the station's hand, and its builder is told (R9, R12, R15). -/
def State.frameSent (s : State) : State :=
  match s.link.phase with
  | .sending .urgent _ => s.onLink fun l => { l with urgent := l.urgent.tail }
  | .sending .control _ => s.onLink fun l => { l with control := l.control.tail }
  | .sending .bulk _ =>
    match s.link.bulk with
    | none => s
    | some b => (s.onLink fun l => { l with bulk := none, phase := .free }).bulkSent b
  | _ => s

/-- Whether the station withdrew the frame it was sending (R16). -/
def LinkPhase.withdrawn : LinkPhase → Bool
  | .sending _ w => w
  | _ => false

/-- Whether the station hears the frame from its start: as a listener, or as its sender (R7). -/
def LinkPhase.listening : LinkPhase → Bool
  | .hearing b => b
  | .sending .. => true
  | .free => false

/-- The station is sending its own frame. -/
def LinkPhase.sends : LinkPhase → Bool
  | .sending .. => true
  | _ => false

/-- The frame's end (R7-R11) but for the sleep test. -/
def State.judgeFrame (f : WireFrame) (otherSpoils : Bool) (s : State) : State :=
  let fault := f.faulty || s.link.phase.withdrawn
  if fault || otherSpoils then
    ((s.doIf fault (State.onLink Link.driveSpoil)).onLink Link.discardFrame).onLink Link.free
  else
    let start := s.link.frameStart.getD 0#64
    let s1 := s.frameSent.onLink Link.free
    if f.malformed then s1.onLink fun l => { l with malformed := countLink l.malformed } else s1.deliver f start

/-- The end of a frame at a station that is awake (R7-R11); where its own frame may have left a queue, the sleep test follows
(R183). -/
def State.endFrame (f : WireFrame) (otherSpoils : Bool) (s : State) : State :=
  (s.judgeFrame f otherSpoils).doIf s.link.phase.sends State.sleepTest

/-- The end of a frame in Sleep: only a Wake that is neither spoiled nor malformed is delivered (R20). -/
def State.endFrameAsleep (f : WireFrame) (otherSpoils : Bool) (s : State) : State :=
  if f.kind == 0x39#8 && !f.faulty && !otherSpoils && !f.malformed then (s.onLink Link.free).deliver f 0#64
  else s.onLink Link.free

/-- A frame on the link ends. A station that did not hear it from its start neither checks nor takes it (R7). -/
def State.frameEnds (heard : WireFrame) (otherSpoils : Bool) (s : State) : State :=
  if s.link.phase.listening then
    (if s.power.state = .sleep then s.endFrameAsleep heard otherSpoils else s.endFrame heard otherSpoils)
  else s.onLink Link.free

/-- FRAME_END (R7-R11, R20). -/
def execFrameEnd (heard : WireFrame) (otherSpoils : Bool) (s : State) : Host.Outcome State Fault Refusal :=
  s.event (State.frameEnds heard otherSpoils)

/-! ## Admission (R13, R14, R178) -/

/-- The frame held longest for a queue is admitted where the queue has room (R13). -/
def Link.admitHeld (q : Queue) (l : Link) : Link :=
  match q with
  | .urgent =>
    match l.urgentHeld with
    | [] => l
    | f :: fs =>
      if l.urgent.length < Config.urgentCapacity then
        { l with urgent := l.urgent ++ [{ frame := f, spoils := 0 }], urgentHeld := fs }
      else l
  | .control =>
    match l.controlHeld with
    | [] => l
    | f :: fs =>
      if l.control.length < Config.controlCapacity then
        { l with control := l.control ++ [{ frame := f, spoils := 0 }], controlHeld := fs }
      else l

/-- HELD_FRAME_ADMIT (R13). -/
def execHeldFrameAdmit (q : Queue) (s : State) : Host.Outcome State Fault Refusal := s.event (State.onLink (Link.admitHeld q))

/-- A record that may be given now: pending at a level 1-3 (R178). -/
def State.givable (s : State) (i : Nat) : Bool :=
  (s.notices.records.getD i none).isSome && decide (1 ≤ s.settings.level i)

/-- The record to give: the highest level, and among those the earliest in class order (R178). -/
def State.noticeChoice (s : State) : Option Nat :=
  ((List.range 11).filter s.givable).foldl (fun best i =>
    match best with
    | none => some i
    | some j => if s.settings.level j < s.settings.level i then some i else some j) none

/-- The Link Interface asks for a Notice (R14): the occupancy is below 24 and no frame is held for the control queue. -/
def Link.asksNotice (l : Link) : Bool := decide (l.control.length < Config.noticeLimit) && l.controlHeld.isEmpty

/-- A Notice is given where the Link Interface asks, in Configuring and Ready (R14, R178). -/
def State.giveNotice (s : State) : State :=
  if s.link.asksNotice && s.running && s.power.state != .sleep then
    match s.noticeChoice with
    | none => s
    | some i =>
      match s.notices.records.getD i none with
      | none => s
      | some r =>
        (s.queue 7#4 (.notice (BitVec.ofNat 8 (s.settings.level i)) (BitVec.ofNat 8 r.count) r.data)).onNotices fun n =>
          { n with records := n.records.set i none }
  else s

/-- NOTICE_ADMIT (R14, R178). -/
def execNoticeAdmit (s : State) : Host.Outcome State Fault Refusal := s.event State.giveNotice

end Sys2Proof.Machine
end

