-- ==== Sys2Proof/Machine/Dispatch.lean ====
section
/-! DEFINITION. The dispatch: one arm for each command, one direct call of its meaning. -/

namespace Sys2Proof.Machine

def exec (i : Instr) (s : State) : Host.Outcome State Fault Refusal :=
  match i with
  | .start straps serial linkBusy => Sys2Proof.Machine.execStart straps serial linkBusy s
  | .linkFreeOffer rival => Sys2Proof.Machine.execLinkFreeOffer rival s
  | .frameEnd heard otherSpoils => Sys2Proof.Machine.execFrameEnd heard otherSpoils s
  | .heldFrameAdmit queue => Sys2Proof.Machine.execHeldFrameAdmit queue s
  | .noticeAdmit => Sys2Proof.Machine.execNoticeAdmit s
  | .rollTaken source station serial fitted next rejoin => Sys2Proof.Machine.execRollTaken source station serial fitted next rejoin s
  | .rollWaitExpiry => Sys2Proof.Machine.execRollWaitExpiry s
  | .rollWindowExpiry => Sys2Proof.Machine.execRollWindowExpiry s
  | .restartTaken toAll reconfigure => Sys2Proof.Machine.execRestartTaken toAll reconfigure s
  | .markTaken source time frameStart => Sys2Proof.Machine.execMarkTaken source time frameStart s
  | .markTimerExpiry => Sys2Proof.Machine.execMarkTimerExpiry s
  | .releaseAlarmFire => Sys2Proof.Machine.execReleaseAlarmFire s
  | .releasePulseEnd => Sys2Proof.Machine.execReleasePulseEnd s
  | .syncClosingEdge => Sys2Proof.Machine.execSyncClosingEdge s
  | .syncOpeningEdge => Sys2Proof.Machine.execSyncOpeningEdge s
  | .syncWake => Sys2Proof.Machine.execSyncWake s
  | .openTaken source shot time => Sys2Proof.Machine.execOpenTaken source shot time s
  | .closeTaken source shot time limit => Sys2Proof.Machine.execCloseTaken source shot time limit s
  | .refuseTaken source shot reason policy => Sys2Proof.Machine.execRefuseTaken source shot reason policy s
  | .readDoneTaken source shot kind darkFollows => Sys2Proof.Machine.execReadDoneTaken source shot kind darkFollows s
  | .attributionExpiry => Sys2Proof.Machine.execAttributionExpiry s
  | .pulseTimerExpiry => Sys2Proof.Machine.execPulseTimerExpiry s
  | .exposureLimitExpiry => Sys2Proof.Machine.execExposureLimitExpiry s
  | .quietTimerExpiry => Sys2Proof.Machine.execQuietTimerExpiry s
  | .readoutComplete samples => Sys2Proof.Machine.execReadoutComplete samples s
  | .darkTimerExpiry => Sys2Proof.Machine.execDarkTimerExpiry s
  | .darkReadoutComplete samples => Sys2Proof.Machine.execDarkReadoutComplete samples s
  | .hotInsertion => Sys2Proof.Machine.execHotInsertion s
  | .darkScanComplete => Sys2Proof.Machine.execDarkScanComplete s
  | .placeTaken source shot socket outcome => Sys2Proof.Machine.execPlaceTaken source shot socket outcome s
  | .unplaceTaken source shot socket reason => Sys2Proof.Machine.execUnplaceTaken source shot socket reason s
  | .commitTaken source shot socket frameNo fileSum => Sys2Proof.Machine.execCommitTaken source shot socket frameNo fileSum s
  | .phaseBaseComplete => Sys2Proof.Machine.execPhaseBaseComplete s
  | .phaseInteriorComplete => Sys2Proof.Machine.execPhaseInteriorComplete s
  | .seamTimerExpiry => Sys2Proof.Machine.execSeamTimerExpiry s
  | .edgeRepairsComplete => Sys2Proof.Machine.execEdgeRepairsComplete s
  | .phaseGainComplete => Sys2Proof.Machine.execPhaseGainComplete s
  | .phaseFinishComplete => Sys2Proof.Machine.execPhaseFinishComplete s
  | .seamTaken source shot dir band => Sys2Proof.Machine.execSeamTaken source shot dir band s
  | .claimTaken source socket shot count => Sys2Proof.Machine.execClaimTaken source socket shot count s
  | .grantTaken source claimant socket shot count notPlaced => Sys2Proof.Machine.execGrantTaken source claimant socket shot count notPlaced s
  | .segmentTaken source body => Sys2Proof.Machine.execSegmentTaken source body s
  | .redoTaken source shot tile socket reason => Sys2Proof.Machine.execRedoTaken source shot tile socket reason s
  | .cardBlockWriteComplete => Sys2Proof.Machine.execCardBlockWriteComplete s
  | .headerWriteComplete => Sys2Proof.Machine.execHeaderWriteComplete s
  | .indexWriteComplete => Sys2Proof.Machine.execIndexWriteComplete s
  | .voidWriteComplete => Sys2Proof.Machine.execVoidWriteComplete s
  | .cardWriteError => Sys2Proof.Machine.execCardWriteError s
  | .cardInserted card => Sys2Proof.Machine.execCardInserted card s
  | .mountReadComplete => Sys2Proof.Machine.execMountReadComplete s
  | .mountReadError => Sys2Proof.Machine.execMountReadError s
  | .cardRemoved => Sys2Proof.Machine.execCardRemoved s
  | .formatComplete => Sys2Proof.Machine.execFormatComplete s
  | .wakeTaken source mask cause => Sys2Proof.Machine.execWakeTaken source mask cause s
  | .sleepEntry => Sys2Proof.Machine.execSleepEntry s
  | .setItem header item value => Sys2Proof.Machine.execSetItem header item value s
  | .beginConf header => Sys2Proof.Machine.execBeginConf header s
  | .arm header => Sys2Proof.Machine.execArm header s
  | .disarm header => Sys2Proof.Machine.execDisarm header s
  | .resume header => Sys2Proof.Machine.execResume header s
  | .release header time => Sys2Proof.Machine.execRelease header time s
  | .exposure header shutter => Sys2Proof.Machine.execExposure header shutter s
  | .takeDark header duration => Sys2Proof.Machine.execTakeDark header duration s
  | .keep header shot => Sys2Proof.Machine.execKeep header shot s
  | .discard header shot => Sys2Proof.Machine.execDiscard header shot s
  | .forgetHot header => Sys2Proof.Machine.execForgetHot header s
  | .histogram header shot => Sys2Proof.Machine.execHistogram header shot s
  | .format header socket => Sys2Proof.Machine.execFormat header socket s
  | .eject header socket => Sys2Proof.Machine.execEject header socket s
  | .status header => Sys2Proof.Machine.execStatus header s
  | .dumpWake header => Sys2Proof.Machine.execDumpWake header s
  | .sleep header => Sys2Proof.Machine.execSleep header s
  | .requestUnknownCode header code => Sys2Proof.Machine.execRequestUnknownCode header code s
  | .tapEdge => Sys2Proof.Machine.execTapEdge s
  | .syncSample level => Sys2Proof.Machine.execSyncSample level s
  | .frameStart => Sys2Proof.Machine.execFrameStart s

end Sys2Proof.Machine
end

