-- ==== Sys2Proof/Machine/Step.lean ====
section
/-! DEFINITION. The step: the command at the front of the queue, or, with none waiting, what the station does of itself
(log 2): an expiry or an admission that is due, else one microsecond of its local oscillator. -/

namespace Sys2Proof.Machine

/-- The expiry that is due, in the order of the table of R46, with its handling (log 6). -/
def State.dueExpiry (s : State) : Option Instr :=
  let t := s.clock.timers
  if t.roll.due then (if s.rollingWith false then some .rollWaitExpiry else some .rollWindowExpiry)
  else if t.mark.due then some .markTimerExpiry
  else if t.attribution.due then some .attributionExpiry
  else if t.pulse.due then some .pulseTimerExpiry
  else if t.exposureLimit.due then some .exposureLimitExpiry
  else if t.dark.due then some .darkTimerExpiry
  else if t.quiet.due then some .quietTimerExpiry
  else if t.seam.due then some .seamTimerExpiry
  else none

/-- The admission, or the sleep test, that is due (R13, R14, R183; log 4). -/
def State.dueAdmission (s : State) : Option Instr :=
  if !s.link.urgentHeld.isEmpty && decide (s.link.urgent.length < Config.urgentCapacity) then some (.heldFrameAdmit .urgent)
  else if !s.link.controlHeld.isEmpty && decide (s.link.control.length < Config.controlCapacity) then
    some (.heldFrameAdmit .control)
  else if s.link.asksNotice && s.running && s.power.state != .sleep && s.noticeChoice.isSome then some .noticeAdmit
  else if s.power.state == .doze && s.maySleep then some .sleepEntry
  else none

/-- What the station does of itself, where anything is due. -/
def State.dueStep (s : State) : Option Instr :=
  match s.dueExpiry with
  | some i => some i
  | none => s.dueAdmission

/-- One microsecond of the local oscillator; the tenth is a fine edge (R42). -/
def State.tick (s : State) : State := if s.clock.sinceFine < 9 then s.microsecond else s.edge

/-- The step of the block. -/
def step (s : State) : Host.Outcome State Fault Refusal :=
  match s.pending with
  | c :: rest => exec c { s with pending := rest }
  | [] =>
    match s.dueStep with
    | some i => exec i s
    | none => .next s.tick

/-- The command that a word spells is put at the front of the queue; where it spells none, nothing changes. -/
def State.withFetchWord (s : State) (nbits w : Nat) : State :=
  match decodeTableWord nbits w with
  | some c => { s with pending := c :: s.pending }
  | none => s

end Sys2Proof.Machine
end

