-- ==== Sys2Proof/Safety.lean ====
section
/-! DEFINITION. What safety means for the block: no step ends in a fault or a refusal, from any state. -/

namespace Sys2Proof.Machine

/-- The step answers a next state. -/
def State.goesOn (s : State) : Prop := ∃ t, step s = .next t

/-- A state from which some number of steps leads to another. -/
inductive State.Reaches : State → State → Prop
  | refl (s : State) : State.Reaches s s
  | tail {s t u : State} : State.Reaches s t → step t = .next u → State.Reaches s u

end Sys2Proof.Machine
end

