-- ==== Sys2Proof/Certificates/Slice0/Obligations.lean ====
section
/-! DEFINITION. The statements for the provers, with the few words they are written in. -/

namespace Sys2Proof.Machine

/-! ## Words of the statements -/

/-- Awake, and in Configuring or Ready, where every block sends and takes frames (R22). -/
abbrev State.inForce (s : State) : Prop :=
  s.power.state ≠ .sleep ∧ (s.member.state = .configuring ∨ s.member.state = .ready)

/-- The link after a block of the station has produced a frame: queued, held for room, or not sent (R12, R13, R21, R22). -/
def State.linkAfter (dst : BitVec 4) (msg : Msg) (s : State) : Link :=
  s.member.place { dst := dst, msg := msg } s.link

/-- The link after the station has answered a Request (R172). -/
def State.linkAnswering (h : ReqHeader) (code : Byte) (r : Reply) (s : State) : Link :=
  s.linkAfter 7#4 (.answer h.tag code r.result r.reason r.data)

/-- The station once it has built a bulk frame to all nodes and begun to send it (R4, R15, R38). -/
def State.offeringBulk (msg : Msg) (s : State) : State :=
  { s with link := { s.link with
      bulk := some { frame := { dst := 15#4, msg := msg }, spoils := 0, cancelled := false }
      phase := .sending .bulk false, frameStart := some s.clock.linkTime } }

/-- The frame of the station's own that is on the link. -/
def Link.offered (l : Link) : Option Msg :=
  match l.phase with
  | .sending .urgent _ => l.urgent.head?.map (·.frame.msg)
  | .sending .control _ => l.control.head?.map (·.frame.msg)
  | .sending .bulk _ => l.bulk.map (·.frame.msg)
  | _ => none

/-- The link once the frame on it has ended: free, with no frame-start time (R1, R38). -/
def Link.ended (l : Link) : Link := { l with phase := .free, frameStart := none }

/-- The command that a read request is. -/
def Req.command (h : ReqHeader) (code : Byte) : Req → Instr
  | .setItem item value => .setItem h item value
  | .beginConf => .beginConf h
  | .arm => .arm h
  | .disarm => .disarm h
  | .resume => .resume h
  | .release t => .release h t
  | .exposure t => .exposure h t
  | .takeDark d => .takeDark h d
  | .keep n => .keep h n
  | .discard n => .discard h n
  | .forgetHot => .forgetHot h
  | .histogram n => .histogram h n
  | .format k => .format h k
  | .eject k => .eject h k
  | .status => .status h
  | .dumpWake => .dumpWake h
  | .sleep => .sleep h
  | .unreadable => .requestUnknownCode h code

/-- The command that the taking of a frame is (R2); Answers, Notices and Requests of a station go to no block (R2, R172). -/
def takenAs (source : Node) (toAll : Bool) (start : Time) : Msg → Option Instr
  | .roll a u f n r => some (.rollTaken source a u f n r)
  | .mark t => some (.markTaken source t start)
  | .openShot n t => some (.openTaken source n t)
  | .closeShot n t l => some (.closeTaken source n t l)
  | .refuse n r p => some (.refuseTaken source n r p)
  | .readDone n k d => some (.readDoneTaken source n k d)
  | .place n k o => some (.placeTaken source n k o)
  | .unplace n k r => some (.unplaceTaken source n k r)
  | .claim k n c => some (.claimTaken source k n c)
  | .grant m k n c r => some (.grantTaken source m k n c r)
  | .redo n m k r => some (.redoTaken source n m k r)
  | .commit n k f u => some (.commitTaken source n k f u)
  | .request tag code args =>
    if source = panelNode then some ((Req.read code args).command { tag := tag, toAll := toAll } code) else none
  | .answer .. => none
  | .notice .. => none
  | .restart r => some (.restartTaken toAll r)
  | .wake m c => some (.wakeTaken source m c)
  | .seam n d b => some (.seamTaken source n d b)
  | .segment b => some (.segmentTaken source b)

/-- A frame that goes to no block of a station: an Answer or a Notice (R2), a Request of another node than the panel processor
(R172), or, where no roll call tests it under R26, one whose body holds a code that is not listed (R193). -/
def reachesNoBlock (f : WireFrame) (s : State) : Prop :=
  f.kind = 0x31#8 ∨ f.kind = 0x32#8 ∨ (f.kind = 0x30#8 ∧ f.src ≠ panelNode) ∨
  (Msg.parse f.kind f.body = none ∧ ¬(s.member.state = .rolling ∧ s.member.rejoin = false))

/-- The station once a frame of its own has gone out: the frame has left the head of its queue, or the station's hand with its
builder told, and the link is free (R9, R12, R15). -/
def State.ownFrameOut (s u : State) : Prop :=
  (s.link.phase = .sending .urgent false ∧ u = { s with link := { s.link.ended with urgent := s.link.urgent.tail } }) ∨
  (s.link.phase = .sending .control false ∧ u = { s with link := { s.link.ended with control := s.link.control.tail } }) ∨
  ∃ b, s.link.phase = .sending .bulk false ∧ s.link.bulk = some b ∧
    u = (State.bulkSent b { s with link := { s.link with bulk := none, phase := .free } }).onLink Link.ended

/-- The capture frames (R22). -/
def captureFrame : Instr → Bool
  | .openTaken .. => true
  | .closeTaken .. => true
  | .refuseTaken .. => true
  | .readDoneTaken .. => true
  | _ => false

/-- The frames other than Roll, Request, Restart, Mark and Wake (R22). -/
def blockFrame : Instr → Bool
  | .placeTaken .. => true
  | .unplaceTaken .. => true
  | .claimTaken .. => true
  | .grantTaken .. => true
  | .redoTaken .. => true
  | .commitTaken .. => true
  | .seamTaken .. => true
  | .segmentTaken .. => true
  | c => captureFrame c

/-- What the table of R44 makes of a channel at an edge of its tap. -/
def Timer.atEdge (continuous : Bool) (t u : Timer) : Prop :=
  (∀ n, t.request = .load n → u = { t with count := .counting n n, request := .none }) ∧
  (t.request = .stop → u = { t with count := .idle, request := .none }) ∧
  (∀ p n, t.request = .none → t.count = .counting (p + 2) n → u = { t with count := .counting (p + 1) n }) ∧
  (∀ n, t.request = .none → t.count = .counting 1 n →
    u = { t with count := if continuous then .counting n n else .idle, due := true }) ∧
  (t.request = .none → t.count = .idle → u = t)

/-- The taking of a frame, other than Roll, Restart, Wake and Request, that goes to a block of the station (R2, R26). -/
def showsBack (cardStation : Bool) : Instr → Bool
  | .markTaken .. => true
  | .openTaken .. => true
  | .closeTaken .. => true
  | .refuseTaken .. => true
  | .readDoneTaken .. => true
  | .placeTaken .. => true
  | .unplaceTaken .. => true
  | .commitTaken .. => true
  | .seamTaken .. => true
  | .grantTaken .. => true
  | .redoTaken .. => true
  | .claimTaken .. => cardStation
  | .segmentTaken .. => cardStation
  | _ => false

/-- The taking of a Mark. -/
def takesMark : Instr → Bool
  | .markTaken .. => true
  | _ => false

/-- The station once a frame has excluded it: the roll timer is stopped, and what was held or owed is discarded (R22, R26). -/
def State.excludedByFrame (s : State) : State :=
  { s with
    member := { s.member with state := .excluded }
    clock := { s.clock with timers := { s.clock.timers with roll := { s.clock.timers.roll with request := .stop } } }
    link := { s.link with rollHeld := [] }
    develop := { s.develop with owed := [] } }

/-- The expiry row that acts on a roll timer's expiry: of the wait before the own Roll is out, of the window after it. -/
def State.rollRow (s : State) : Instr := if s.member.ownRollOut then .rollWindowExpiry else .rollWaitExpiry

/-- The station after the expiry rows, each made where it is due, in the order of the table of R46. -/
def State.afterExpiries (s : State) : State :=
  [Instr.rollWaitExpiry, .rollWindowExpiry, .markTimerExpiry, .attributionExpiry, .pulseTimerExpiry, .exposureLimitExpiry,
    .darkTimerExpiry, .quietTimerExpiry, .seamTimerExpiry].foldl
    (fun t c => match exec c t with | .next u => u | _ => t) s

/-- No expiry comes before an event: none is due, or the station is in Sleep, where none is delivered (R44, R47). -/
abbrev State.calm (s : State) : Prop := s.power.state = .sleep ∨ ∀ id ∈ TimerId.all, (s.timer id).due = false

/-- START, or an expiry row: the rows that no due expiry comes before. -/
def startOrExpiry : Instr → Bool
  | .start .. => true
  | .rollWaitExpiry => true
  | .rollWindowExpiry => true
  | .markTimerExpiry => true
  | .attributionExpiry => true
  | .pulseTimerExpiry => true
  | .exposureLimitExpiry => true
  | .darkTimerExpiry => true
  | .quietTimerExpiry => true
  | .seamTimerExpiry => true
  | _ => false

/-- Awake, and in a station state in which frames other than capture frames go to their blocks: Configuring, Ready, and Rolling
with the rejoin flag (R22). -/
abbrev State.takesFrames (s : State) : Prop :=
  s.power.state ≠ .sleep ∧
    (s.member.state = .configuring ∨ s.member.state = .ready ∨ (s.member.state = .rolling ∧ s.member.rejoin = true))

/-- A frame's delivery is not held back by the roll call: awake, and either out of Rolling or rolling with the rejoin flag. -/
abbrev State.takesMarks (s : State) : Prop :=
  s.power.state ≠ .sleep ∧ (s.member.state ≠ .rolling ∨ s.member.rejoin = true)

/-- An expiry of a timer is on its way. -/
abbrev State.expires (id : TimerId) (s : State) : Prop := (s.timer id).due = true

/-- An expiry of a timer is on its way, and of no other. -/
abbrev State.expiresAlone (id : TimerId) (s : State) : Prop :=
  s.expires id ∧ ∀ other ∈ TimerId.all, other ≠ id → (s.timer other).due = false

/-- The clock once the owner of a timer has its expiry. -/
def State.clockAfter (id : TimerId) (s : State) : Clock :=
  { s.clock with timers := s.clock.timers.upd Timer.delivered id }

/-- A level change under test that the next sample of the other level accepts (R50). -/
abbrev State.maturingAwake (level : Level) (c : Candidate) (s : State) : Prop :=
  s.power.state ≠ .sleep ∧ s.member.straps.fitted.sync = true ∧ s.sync.accepted = some (Level.other level) ∧
    s.sync.candidate = some c ∧ c.interval ≤ c.samples * 10

/-- `maturingAwake` in Active. -/
abbrev State.maturing (level : Level) (c : Candidate) (s : State) : Prop :=
  s.power.state = .active ∧ s.maturingAwake level c

/-- The Power Controller once an edge has been accepted: in Doze with WakeOnSync On the station is Active again (R185). -/
def State.powerAtEdge (s : State) : Power :=
  if s.power.state = .doze ∧ s.settings.wakeOnSync = true then { s.power with state := .active, sleepPending := false }
  else s.power

/-- The Sync Input once a level has been accepted (R50). -/
def SyncInput.accept (level : Level) (y : SyncInput) : SyncInput := { y with accepted := some level, candidate := none }

/-- No sync outcome of the current shot waits for the end of its window (R60). -/
def State.noOutcomeDue (s : State) : Prop :=
  ∀ x, s.slot? s.capture.current = some x → x.outcome ≠ none ∨ (s.entry? s.capture.current).bind (·.agreedOpen) = none

/-- The table of R54 for the state that would next become Armed. -/
def Capture.settledState (c : Capture) : CaptureState :=
  if c.haltPending then .halted else if c.disarmPending then .disarmed else .armed

/-- The timers after a trigger: the attribution timer starts with 200, the quiet timer with its length (R58). -/
def State.timersAtTrigger (s : State) : Timers :=
  { s.clock.timers with
    attribution := { s.clock.timers.attribution with request := .load 200 }
    quiet := { s.clock.timers.quiet with request := .load ((2 * s.settings.exposureLimit + 4) * 10) } }

/-- The timers after an admission: beside the two of the trigger the exposure limit timer starts, and in Pulse mode the pulse timer
(R59). -/
def State.timersAtAdmission (s : State) : Timers :=
  { s.timersAtTrigger with
    exposureLimit := { s.clock.timers.exposureLimit with request := .load (s.settings.exposureLimit * 10) }
    pulse := if s.settings.syncMode = .pulse then
      { s.clock.timers.pulse with request := .load ((s.capture.shutter + 9) / 10) } else s.clock.timers.pulse }

/-- The Capture Controller after the admission of a shot: integration runs, and the exposure is in hand (R58, R59). -/
def State.captureAdmitting (n : Shot) (edge : Option Time) (start : Time) (s : State) : Capture :=
  { s.capture with
    state := .exposing, current := n, quiet := s.memberNumbers, windowEnded := false
    exposure := some { shot := n, ownEdge := edge, ownStart := start, shutter := s.capture.shutter, limit := false } }

/-- The slot record of a shot at its admission (R76). -/
def slotAdmitted (n : Shot) (start : Time) : Slot :=
  { shot := n, tag := .exposing, ownStart := start, ownEnd := none, outcome := none, skew := none, skewed := false,
    bounces := none, limit := false, dark := none, flags := {}, tileSum := none }

/-- The roster entry of a shot at its admission, in the slot after TOP (R79, R81, R87). -/
def State.entryAdmitted (n : Shot) (s : State) : Entry :=
  { shot := n, slot := (s.ring.top + 1) % 8, agreedOpen := none, openTaken := false, opener := false,
    agreedClose := none, agreedDuration := none, members := s.memberNumbers
    partA := (s.socketStation .a).map fun m => { station := m, placement := .pending, transfer := .idle, grants := 0 }
    partB := (s.socketStation .b).map fun m => { station := m, placement := .pending, transfer := .idle, grants := 0 }
    unmirrored := false, cursor := 0 }

/-- The roster entry once the first Open of its shot has been taken: it settles the opener, and gives an absent agreed open (R60);
with the agreed close present that gives the agreed duration (R62). -/
def Entry.openedBy (own : Bool) (time : Time) (e : Entry) : Entry :=
  { e with
    agreedOpen := some (e.agreedOpen.getD time), openTaken := true, opener := if e.openTaken then e.opener else own
    agreedDuration := match e.agreedOpen, e.agreedClose with
      | none, some c => some ((c.toNat : Int) - time.toNat)
      | _, _ => e.agreedDuration }

/-- The station clock at the end of integration: of the exposure limit timer and the pulse timer, what still runs is stopped
(R61). -/
def Clock.endingIntegration (c : Clock) : Clock :=
  { c with timers := { c.timers with
      exposureLimit := if c.timers.exposureLimit.running then { c.timers.exposureLimit with request := .stop }
        else c.timers.exposureLimit
      pulse := if c.timers.pulse.running then { c.timers.pulse with request := .stop } else c.timers.pulse } }

/-- The roster entry at the end of integration: an agreed open that is still absent is the own start time (R65), and with the agreed
close present it gives the agreed duration (R62). -/
def Entry.openSupplied (start : Time) (e : Entry) : Entry :=
  { e with
    agreedOpen := some (e.agreedOpen.getD start)
    agreedDuration := match e.agreedOpen, e.agreedClose with
      | none, some c => some ((c.toNat : Int) - start.toNat)
      | _, _ => e.agreedDuration }

/-- The link at a trigger: a filled quiet set withdraws a bulk frame on the link (R16, R58). -/
def State.linkAtTrigger (s : State) : Link := if s.memberNumbers = [] then s.link else s.link.withdraw

/-- The link at a trigger that has abandoned a dark capture: its ReadDone is produced first (R16, R58, R104). -/
def State.linkAbandoning (n : Shot) (s : State) : Link :=
  State.linkAtTrigger { s with link := s.linkAfter 15#4 (.readDone n .dark false) }

/-- The timers at a trigger that has abandoned a dark capture: in phase Exposing the dark timer is stopped (R58, R104). -/
def DarkCapture.timersAbandoning (k : DarkCapture) (t : Timers) : Timers :=
  { t with dark := if k.phase = .exposing then { t.dark with request := .stop } else t.dark }

/-- The slot record of a shot once its sync outcome and skew have been recorded, by the table of R60 from the own edge time; the
tile may become Developing by the test of R112. -/
def State.recordedAs (edge : Option Time) (x y : Slot) (agreed : Time) (s : State) : Prop :=
  y = { x with outcome := y.outcome, tag := y.tag, dark := y.dark, skew := some ((x.ownStart.toNat : Int) - agreed.toNat)
               skewed := decide ((s.settings.skewTolerance : Int) < |(x.ownStart.toNat : Int) - agreed.toNat|) } ∧
  (x.tag ≠ .raw → y.tag = x.tag) ∧ (x.tag = .raw → y.tag = .raw ∨ y.tag = .developing) ∧
  (edge = none → y.outcome = some .unobserved) ∧
  (∀ E, edge = some E →
    ((E.toNat : Int) - agreed.toNat < -s.settings.skewTolerance → y.outcome = some .earlier) ∧
    ((s.settings.skewTolerance : Int) < (E.toNat : Int) - agreed.toNat → y.outcome = some .later) ∧
    (-s.settings.skewTolerance ≤ (E.toNat : Int) - agreed.toNat → (E.toNat : Int) - agreed.toNat ≤ s.settings.skewTolerance →
      y.outcome = some .equal))

/-- The own edge time of the exposure in hand, where it is of the shot (R60). -/
def State.edgeFor (n : Shot) (s : State) : Option Time :=
  match s.capture.exposure with
  | some k => if k.shot = n then k.ownEdge else none
  | none => none

/-- The own edge time that a trigger finds for the current shot: none in DarkExposing and DarkReading, where the trigger abandons
the dark capture, and with it the exposure in hand, first (R58 step 1, R104 step 5). -/
def State.edgeAtTrigger (s : State) : Option Time :=
  if s.capture.state = .darkExposing ∨ s.capture.state = .darkReading then none else s.edgeFor s.capture.current

/-- What a trigger makes of the slot record of the shot that was current: its outcome is recorded, and a dark capture that the
trigger abandons leaves a shot that awaited it without a dark frame (R58, R60, R104). -/
def State.recordedAtTrigger (x y : Slot) (agreed : Time) (s : State) : Prop :=
  s.recordedAs s.edgeAtTrigger x y agreed ∧ (y.dark = x.dark ∨ (x.dark = some .awaiting ∧ y.dark = some .none))

/-- The table of R59 in the capture state that step 1 of the trigger leaves: the reason of a refusal and its policy. -/
def State.refuses (st : CaptureState) (n : Shot) (reason : RefuseReason) (policy : Policy) (s : State) : Prop :=
  (n = lastShot ∧ reason = .exhausted ∧ policy = .drop) ∨
  (n ≠ lastShot ∧
    ((st = .disarmed ∨ st = .halted) ∧ reason = .notArmed ∧ policy = .drop ∨
     (st = .exposing ∨ st = .reading) ∧ reason = .sensorBusy ∧ policy = s.settings.sensorBusyPolicy ∨
     st = .armed ∧ (s.ring.slots.getD ((s.ring.top + 1) % 8) none).isSome = true ∧ (∃ o ∈ s.ring.slots, o = none) ∧
       reason = .blocked ∧ policy = s.settings.blockedPolicy ∨
     st = .armed ∧ (s.ring.slots.getD ((s.ring.top + 1) % 8) none).isSome = true ∧ (∀ o ∈ s.ring.slots, o ≠ none) ∧
       reason = .ringFull ∧ policy = s.settings.ringFullPolicy))

/-- The station after a refused trigger of a shot: the shot is counted and is current, its window opens, the two timers start, the
quiet set is filled, and Refuse goes out (R58, R59). -/
def State.refusedAt (n : Shot) (reason : RefuseReason) (policy : Policy) (s : State) : State :=
  { s with
    capture := { s.capture with current := n, quiet := s.memberNumbers, windowEnded := false }
    ring := { s.ring with next := if n = lastShot then lastShot else n + 1#32 }
    clock := { s.clock with timers := s.timersAtTrigger }
    link := s.member.place { dst := 15#4, msg := .refuse n reason policy } s.linkAtTrigger }

/-- The notices at the end of the integration of the shot in hand: its opener raises ShotOpened (R61). -/
def State.noticesEnding (x : Exposure) (e : Entry) (ownEnd : Time) (limit : Bool) (s : State) : Notices :=
  if e.opener = true then s.notices.raise
    (.shotOpened x.shot (e.agreedOpen.getD x.ownStart) ownEnd limit (BitVec.ofNat 8 s.sync.bounces)) else s.notices

/-- The slot records other than a shot's are as they were. -/
def sameOtherSlots (n : Shot) (s t : State) : Prop := ∀ m, m ≠ n → t.slot? m = s.slot? m

/-- The roster entries other than a shot's are as they were. -/
def sameOtherEntries (n : Shot) (s t : State) : Prop := ∀ m, m ≠ n → t.entry? m = s.entry? m

/-- R82, first sentence, with the shots rising in ring order and below the next shot number (R80): each occupied slot has one
roster entry that names it, each roster entry names one occupied slot, and no shot number stands twice. -/
def State.ringOk (s : State) : Prop :=
  s.ring.slots.length = 8 ∧ s.ring.top < 8 ∧
  (∀ i x, s.ring.slots[i]? = some (some x) → ∃ e ∈ s.ring.roster, e.shot = x.shot ∧ e.slot = i) ∧
  (∀ e ∈ s.ring.roster, ∃ x, s.ring.slots[e.slot]? = some (some x) ∧ x.shot = e.shot) ∧
  (s.ring.roster.map (·.shot)).Nodup ∧
  (∀ e ∈ s.ring.roster, e.shot < s.ring.next ∨ s.ring.next = lastShot) ∧
  (∀ e ∈ s.ring.roster, e.shot ≠ lastShot)

/-- What a trigger of a shot during a dark capture leaves of it, and a refusal by the state that the settling leaves (R58, R59,
R104). MODEL'S CHOICE (log 58): what the dark slot area holds after a readout abandoned before its completion is as it was. -/
def State.abandonedAt (n : Shot) (k : DarkCapture) (s t : State) : Prop :=
  t.dark = { s.dark with capture := none } ∧ t.capture.current = n ∧
  t.capture.haltPending = false ∧ t.capture.disarmPending = false ∧
  (k.phase = .exposing → (t.timer .dark).request = .stop) ∧ t.power = s.power ∧ t.member = s.member ∧
  (∀ x, s.ringOk → k.shot ≠ 0#32 → s.slot? k.shot = some x → x.dark = some .awaiting →
    ∃ y, t.slot? k.shot = some y ∧ y.dark = some .none) ∧
  (∀ reason policy, s.refuses s.capture.settledState n reason policy →
    t.capture.state = s.capture.settledState ∧ t.capture.exposure = none ∧
    t.link = s.member.place { dst := 15#4, msg := .refuse n reason policy } (s.linkAbandoning k.shot) ∧
    (s.ringOk → t = { s with
      sync := t.sync, dark := t.dark, develop := t.develop, link := t.link
      capture := { s.capture with
        current := n, quiet := s.memberNumbers, windowEnded := false, state := s.capture.settledState, exposure := none
        haltPending := false, disarmPending := false }
      ring := { s.ring with next := if n = lastShot then lastShot else n + 1#32, slots := t.ring.slots }
      clock := { s.clock with timers := k.timersAbandoning s.timersAtTrigger } }))

/-- The socket decides the placement of a shot at its own admission: A always, B in Mirror (R145). -/
abbrev State.placesAtAdmission (s : State) : Prop :=
  s.card.letter = some .a ∨ (s.card.letter = some .b ∧ s.settings.storageMode = .mirror)

/-- The station once a trigger that has abandoned a dark capture admits its shot: slot, roster entry, exposure in hand and timers
are those of an admission, and a card station reserves in the same event, before an own edge's Open (R59, R79, R104, R145).
`e` is the roster entry as the trigger leaves it. -/
def State.admittedAfter (n : Shot) (k : DarkCapture) (edge : Option Time) (start : Time) (e : Entry) (s t : State) : Prop :=
  ∃ u v : State, u = { s with link := s.linkAbandoning k.shot } ∧
    v = (if s.placesAtAdmission then u.tryReserve (s.entryAdmitted n) else u) ∧
    t = { s with
      sync := t.sync, dark := t.dark, develop := t.develop, card := v.card, notices := v.notices
      link := match edge with
        | none => v.link
        | some c => s.member.place { dst := 15#4, msg := .openShot n c } v.link
      capture := { s.captureAdmitting n edge start with haltPending := false, disarmPending := false }
      ring := { s.ring with
        next := n + 1#32, top := (s.ring.top + 1) % 8, slots := t.ring.slots, roster := t.ring.roster }
      clock := { s.clock with timers := k.timersAbandoning s.timersAtAdmission } } ∧
    t.slot? n = some (slotAdmitted n start) ∧ t.entry? n = some e ∧ sameOtherEntries n s t

/-- R160, first row, the other way about: the claim names this station's socket and a count of 1-8, and its member's tile is
still open in an entry that is Filling. -/
def State.claimStands (member : Node) (socket : Byte) (n : Shot) (count : Nat) (s : State) : Prop :=
  (∃ k, s.card.letter = some k ∧ socketCode k = socket) ∧ 1 ≤ count ∧ count ≤ 8 ∧
    ∃ p m, s.card.placed? n = some p ∧ p.phase = .filling ∧ p.progress? member = some m ∧ m.closed = false

/-- The length rows of R162: S bytes unless the Segment closes the tile, within L, and the close flag exactly at L. -/
def State.segmentFits (b : SegmentBody) (s : State) : Bool :=
  (decide (b.payload.length = segmentBytes s.settings) || b.close.isSome)
    && decide (b.offset.toNat + b.payload.length ≤ tileBytes s.settings)
    && (b.close.isSome == decide (b.offset.toNat + b.payload.length = tileBytes s.settings))

/-- The entry once every open socket that is Sending without grants has become Claiming (R155). -/
def Entry.claiming (e : Entry) : Entry :=
  e.mapParts fun p => if p.placement = .reserved ∧ p.transfer = .sending ∧ p.grants = 0 then { p with transfer := .claiming } else p

/-- The link with the Claim of each of those sockets, A first, for 8 segments or those left (R155). -/
def State.linkClaiming (n : Shot) (e : Entry) (s : State) : Link :=
  [Socket.a, .b].foldl (fun l k => match e.part k with
    | some p => if p.placement = .reserved ∧ p.transfer = .sending ∧ p.grants = 0 then
        s.member.place { dst := nodeDst p.station, msg := .claim (socketCode k) n (BitVec.ofNat 8
          (min 8 ((tileBytes s.settings - e.cursor + segmentBytes s.settings - 1) / segmentBytes s.settings))) } l else l
    | none => l) s.link

/-- A pass begins for the current tile: the cursor is 0, every open socket that is Idle or Closed is Sending, and Claims go out
for those without grants (R154, R155). `e` is the entry as the event has left it. -/
def State.passBegun (n : Shot) (e : Entry) (s t : State) : Prop :=
  ∀ f, f = { e.mapParts (fun p => if p.placement = .reserved ∧ (p.transfer = .idle ∨ p.transfer = .closed) then
      { p with transfer := .sending } else p) with cursor := 0 } →
    t = { s with link := s.linkClaiming n f, ring := { s.ring with roster := t.ring.roster } } ∧ sameOtherEntries n s t ∧
      t.entry? n = some f.claiming

/-- A tile waits for transfer: Developed, in Ready, with an open socket that is not Closed (R153). -/
def State.awaitsTransfer (n : Shot) (s : State) : Prop :=
  s.member.state = .ready ∧ ∃ e x, s.entry? n = some e ∧ s.slot? n = some x ∧ x.tag = .developed ∧
    ∃ p ∈ e.parts, p.placement = .reserved ∧ p.transfer ≠ .closed

/-- The pass of the current tile ends: a new pass begins where a socket is open and Idle; else the cursor is 0, the tile is left,
and the lowest tile that waits becomes current with a pass of its own (R153, R154). `e` is the entry as the event has left it,
with no target. -/
def State.passEnded (n : Shot) (e : Entry) (s t : State) : Prop :=
  ((∃ p ∈ e.parts, p.placement = .reserved ∧ p.transfer = .idle) → s.passBegun n e t) ∧
  ((∀ p ∈ e.parts, ¬(p.placement = .reserved ∧ p.transfer = .idle)) →
    ∃ u : State, u = { s with transfer := { s.transfer with current := none }, ring := { s.ring with roster := u.ring.roster } } ∧
      sameOtherEntries n s u ∧ u.entry? n = some { e with cursor := 0 } ∧
      ((∀ m, ¬u.awaitsTransfer m) → t = u) ∧
      (∀ m f, u.awaitsTransfer m → (∀ k, u.awaitsTransfer k → m ≤ k) → u.entry? m = some f →
        State.passBegun m f { u with transfer := { u.transfer with current := some m } } t))

/-- The Transfer Unit's choice (R153, R154): with a current transfer tile, or with no tile that waits, nothing changes; else the
lowest shot that waits becomes current, and a pass of it begins. -/
def State.tileChosen (u t : State) : Prop :=
  (u.transfer.current ≠ none ∨ (∀ m, ¬u.awaitsTransfer m) → t = u) ∧
  (u.transfer.current = none → ∀ m f, u.awaitsTransfer m → (∀ k, u.awaitsTransfer k → m ≤ k) → u.entry? m = some f →
    State.passBegun m f { u with transfer := { u.transfer with current := some m } } t)

/-- The station after a Commit or an Unplace has taken a socket of an entry: with a target left, or where the socket was none,
nothing but the entry changes; else its pass ends (R154, R170). `p` is the socket's part before, `g` the entry after. -/
def State.socketLeft (n : Shot) (p : Part) (g : Entry) (s t : State) : Prop :=
  (p.target = false ∨ (∃ q ∈ g.parts, q.target = true) →
    t = { s with ring := { s.ring with roster := t.ring.roster } } ∧ sameOtherEntries n s t ∧ t.entry? n = some g) ∧
  (p.target = true → (∀ q ∈ g.parts, q.target = false) →
    (s.transfer.current ≠ some n → t = { s with ring := { s.ring with roster := t.ring.roster } } ∧
      sameOtherEntries n s t ∧ t.entry? n = some { g with cursor := 0 }) ∧
    (s.transfer.current = some n → State.passEnded n g { s with link := s.link.cancelBulk (Msg.isSegmentOf n) } t))

/-- The outcome flags in the close fields that an entry of the placement list has recorded. -/
def Placed.closeFlags (p : Placed) : OutcomeFlags :=
  p.progress.foldl (fun f m => match m.close with | none => f | some c => f.union c.flags) {}

/-- The Void write of a placement of a roster entry, with the outcome flags given (R149). -/
def Placed.voidRecord (flags : OutcomeFlags) (e : Entry) (p : Placed) : Write :=
  { kind := .void, shot := p.shot, frameNo := p.frameNo, address := indexAddress p.frameNo, cancelled := false
    data := indexEntryBytes 2#8 (flagsByte flags e.unmirrored) e.members.length p.shot p.firstBlock p.blocks
      (e.agreedOpen.getD 0#64) (match e.agreedDuration with | none => 0#32 | some d => durationField d) 0#16 }

/-- A shot's slot is freed: slot, entry and placement are gone, the tile is no longer current, and a Segment of it that is in hand
is cancelled (R89, R149, R170). -/
def State.freedAs (n : Shot) (s t : State) : Prop :=
  t.entry? n = none ∧ t.slot? n = none ∧ t.ring.top = s.ring.top ∧ t.ring.next = s.ring.next ∧
  t.card.placements = s.card.placements.eraseP (·.shot == n) ∧ t.transfer.current ≠ some n ∧
  (∀ b g, t.link.bulk = some b → b.frame.msg = .segment g → g.shot = n → b.cancelled = true) ∧
  t.member = s.member ∧ t.capture = s.capture ∧ t.dark = s.dark ∧ t.sync = s.sync ∧ t.power = s.power

/-- What a station but for its Transfer Unit and its Card Controller makes of the freeing of a shot's slot (R89): slot and entry
are gone, the develop job of the shot stops, with the seam timer where an edge waits, its bands and owed Seams are removed, and a Seam
or a Segment of it that is in hand is cancelled (R17, R123, R125, R128, R131, R170). -/
def State.shotGone (n : Shot) (s u : State) : Prop :=
  u.entry? n = none ∧ u.slot? n = none ∧ sameOtherEntries n s u ∧ sameOtherSlots n s u ∧
  u = { s with
        ring := { s.ring with slots := u.ring.slots, roster := u.ring.roster }
        link := (s.link.cancelBulk (Msg.isSeamOf n)).cancelBulk (Msg.isSegmentOf n)
        clock := u.clock
        develop := { s.develop with
          job := s.develop.job.filter (·.shot ≠ n), owed := s.develop.owed.filter (·.1 ≠ n)
          store := s.develop.store.filter (·.shot ≠ n) } } ∧
  (∀ j, s.develop.job = some j → j.shot = n → j.waiting = true →
    u.clock = { s.clock with timers := { s.clock.timers with seam := { s.clock.timers.seam with request := .stop } } }) ∧
  ((∀ j, s.develop.job = some j → j.shot ≠ n ∨ j.waiting = false) → u.clock = s.clock)

/-- The notice that a card with a roll, or with none, has become Ejecting: its identity and its cursors are still there (R134,
R135). -/
def Card.ejectingNotice (c : Card) : NoticeData :=
  match c.roll with
  | some r => .cardState c.letter .ejecting r.identity (BitVec.ofNat 16 r.index) (BitVec.ofNat 32 r.write)
  | none => .cardState c.letter .ejecting 0#32 0#16 0#32

/-- The station once an Ejecting card with nothing left to write or to place has become Released (R140, R135). -/
def State.ejected (s : State) : State :=
  if s.card.state = .ejecting ∧ s.card.placements = [] ∧ s.card.writes = [] then
    { s with card := { s.card with state := .released, roll := none }
             notices := s.notices.raise (.cardState s.card.letter .released 0#32 0#16 0#32) } else s

/-- The card's fields once a shot has left the placement list, but for its queued writes (R149, R165). -/
def Card.without (n : Shot) (c : Card) : Card :=
  { c with placements := c.placements.eraseP (·.shot == n), grants := c.grants.filter (·.shot != n)
           waiting := c.waiting.filter (·.shot != n) }

/-- The faults that R137 names in an index, at a position that is not Blank: an entry of no kind, an extent outside the roll, or
one that does not follow the entry before it, from which only Blank entries may part it. -/
def indexFault (limit : Nat) (index : List IndexEntry) (j : Nat) : Prop :=
  ∃ e, index[j]? = some e ∧ e.kind ≠ 0 ∧
    (2 < e.kind ∨ e.first < 65 ∨ limit < e.first + e.blocks ∨ (j = 0 ∧ e.first ≠ 65) ∨
      ∃ (i : Nat) (p : IndexEntry), i < j ∧ index[i]? = some p ∧ p.kind ≠ 0 ∧
        (∀ (h : Nat) (q : IndexEntry), i < h → h < j → index[h]? = some q → q.kind = 0) ∧
        (e.first < p.first + p.blocks ∨ (i + 1 = j ∧ e.first ≠ p.first + p.blocks)))

/-- The card in the socket once a write has reached it. -/
def Card.written (w : Write) (c : Card) : Card :=
  { c with medium := c.medium.map fun m => { m with bytes := m.bytes.writeBytes w.address w.data } }

/-- Socket B of this station takes over, in Overflow, a shot that the card station of socket A has not placed (R146): the member
that the entry's A part names (R79). -/
abbrev State.overflowsTo (source : Node) (e : Entry) (s : State) : Prop :=
  s.cardStation = true ∧ s.card.letter = some .b ∧ s.settings.storageMode = .overflow ∧ e.partA.map (·.station) = some source ∧
    e.placement? .b ≠ some .reserved ∧ e.placement? .b ≠ some .committed

/-- The table of R147, with the shots that are already Reserved or Committed on the socket left out. -/
def placesAgain (mode : StorageMode) (k : Socket) (e : Entry) : Bool :=
  decide (e.placement? k ≠ some .reserved ∧ e.placement? k ≠ some .committed ∧
    (mode = .mirror ∨ (mode = .single ∧ k = .a) ∨
      (mode = .overflow ∧ k = .a ∧ e.placement? .b ≠ some .reserved ∧ e.placement? .b ≠ some .committed) ∨
      (mode = .overflow ∧ k = .b ∧ (e.placement? .a = some .refused ∨ e.placement? .a = some .void))))

/-- The link once an Unplace has been produced for every placement and every Void write, in order (R142, R143). -/
def State.linkDropping (reason : UnplaceReason) (s : State) : Link :=
  match s.card.letter with
  | none => s.link
  | some k =>
    (s.card.placements.map (·.shot) ++ (s.card.writes.filter (·.kind == .void)).map (·.shot)).foldl
      (fun l n => s.member.place { dst := 15#4, msg := .unplace n k reason } l) s.link

/-- The working values of the positions among some of a tile that are no positions of the snapshot (R117). -/
def usable (st : Settings) (snapshot : List (Nat × Nat)) (work : List Sample) (ps : List (Nat × Nat)) : List Nat :=
  (ps.filter fun p => !snapshot.contains p).map fun p => (work.getD (p.1 * st.tileColumns + p.2) 0#14).toNat

/-- The sample of a band across an edge, by its place in the band's order, where the edge is in state Band (R119, R124). -/
def acrossEdge (edges : List Edge) (d : Direction) (i : Nat) : List Nat :=
  ((bandOf? edges d).bind fun b => b[i]?).toList.map (·.toNat)

/-- The tile of a job after the repairs of a phase: of the snapshot, the entries of one kind take the rounded mean of their
usable values; an entry with none, and every other pixel, keeps its value (R114, R117, R119). -/
def State.repairedAs (edge : Bool) (edges : List Edge) (j : Job) (s t : State) : Prop :=
  (t.area j.slot).raw = (s.area j.slot).raw ∧
  (t.area j.slot).developed.length = (s.area j.slot).developed.length ∧
  ∀ r c, r < s.settings.tileRows → c < s.settings.tileColumns →
    r * s.settings.tileColumns + c < (s.area j.slot).developed.length →
    (t.area j.slot).developed.getD (r * s.settings.tileColumns + c) 0#14 =
      if (r, c) ∈ j.snapshot ∧ isEdgeEntry s.settings s.self.toNat r c = edge ∧
          candidateValues s.settings j.snapshot (s.area j.slot).developed edges r c ≠ [] then
        repairValue (candidateValues s.settings j.snapshot (s.area j.slot).developed edges r c)
      else (s.area j.slot).developed.getD (r * s.settings.tileColumns + c) 0#14

/-- The bytes of a Status report, by offset (R175, R176, and the layout of R195): an absent part is reported as 0. -/
def State.reportedAs (b : List Byte) (s : State) : Prop :=
  b.length = 119 ∧
  b.getD 0 0#8 = s.self.setWidth 8 ∧ field b 1 4 = s.member.serial.toNat ∧
  (b.getD 5 0#8).toNat = (if s.member.straps.fitted.card then 1 else 0) + (if s.member.straps.fitted.release then 2 else 0) +
    (if s.member.straps.fitted.sync then 4 else 0) ∧
  b.getD 6 0#8 = (match s.member.state with
    | .rolling => 0#8 | .configuring => 1#8 | .ready => 2#8 | .excluded => 3#8 | .duplicate => 4#8) ∧
  b.getD 7 0#8 = (match s.card.letter with | none => 0#8 | some .a => 1#8 | some .b => 2#8) ∧
  b.getD 8 0#8 = (if s.link.detached then 1#8 else 0#8) ∧ field b 9 4 = s.link.spoiled % 4294967296 ∧
  field b 13 4 = s.link.retries % 4294967296 ∧ field b 17 4 = s.link.malformed % 4294967296 ∧
  b.getD 21 0#8 = (match s.power.state with | .active => 0#8 | .doze => 1#8 | .sleep => 2#8) ∧
  b.getD 22 0#8 = (if s.power.sleepPending then 1#8 else 0#8) ∧
  b.getD 23 0#8 = (match s.capture.state with
    | .disarmed => 0#8 | .armed => 1#8 | .exposing => 2#8 | .reading => 3#8 | .darkExposing => 4#8 | .darkReading => 5#8
    | .halted => 6#8) ∧
  b.getD 24 0#8 = (if s.capture.disarmPending then 1#8 else 0#8) ∧
  b.getD 25 0#8 = (if s.capture.haltPending then 1#8 else 0#8) ∧ field b 26 4 = s.capture.current.toNat ∧
  field b 30 8 = (match s.capture.pendingRelease with | none => 0 | some t => t.toNat) ∧
  (∀ i, i < 8 → b.getD (38 + i) 0#8 = (match s.ring.slots.getD i none with
    | none => 0#8
    | some x => match x.tag with
      | .exposing => 1#8 | .reading => 2#8 | .raw => 3#8 | .developing => 4#8 | .held => 5#8 | .developed => 6#8)) ∧
  b.getD 46 0#8 = BitVec.ofNat 8 s.ring.top ∧ field b 47 4 = s.ring.next.toNat ∧
  b.getD 51 0#8 = BitVec.ofNat 8 s.ring.roster.length ∧
  (∀ i, i < 8 → field b (52 + 4 * i) 4 = (s.ring.inOrder.map fun x => x.shot.toNat).getD i 0) ∧
  b.getD 84 0#8 = (if s.dark.valid then 1#8 else 0#8) ∧
  field b 85 4 = (match s.dark.duration with | none => 0 | some d => d % 4294967296) ∧
  field b 89 8 = (match s.dark.captureEnd with | none => 0 | some t => t.toNat) ∧
  field b 97 2 = s.dark.defects.length % 65536 ∧ field b 99 2 = s.dark.overflow % 65536 ∧
  field b 101 2 = s.develop.late % 65536 ∧ field b 103 2 = s.develop.overrun % 65536 ∧
  b.getD 105 0#8 = (match s.card.state with
    | .empty => 0#8 | .mounting => 1#8 | .unformatted => 2#8 | .ready => 3#8 | .formatting => 4#8 | .ejecting => 5#8
    | .released => 6#8 | .failed => 7#8) ∧
  (∀ r, s.cardStation = true → s.card.roll = some r →
    s.card.state = .ready ∨ s.card.state = .ejecting ∨ s.card.state = .formatting →
    field b 106 4 = (if s.card.state = .formatting then 0 else r.identity.toNat) ∧ field b 110 2 = r.index % 65536 ∧
      field b 112 4 = r.write % 4294967296) ∧
  (s.cardStation = false ∨ s.card.roll = none ∨
      (s.card.state ≠ .ready ∧ s.card.state ≠ .ejecting ∧ s.card.state ≠ .formatting) →
    field b 106 4 = 0 ∧ field b 110 2 = 0 ∧ field b 112 4 = 0) ∧
  (∀ i, i < 16 → (field b 116 2).testBit i =
    (decide (i < 11) && (s.notices.records.getD i none).isSome && decide (s.settings.noticeLevels.getD i 0 = 0))) ∧
  (∀ n : Node, (b.getD 118 0#8).getLsbD n.toNat = decide (n ∈ s.memberNumbers))

/-- The six checks of R35. -/
def Membership.passes (m : Membership) : Nat → Prop
  | 1 => m.settings.gridShape ≠ none
  | 2 => ∀ g, m.settings.gridShape = some g →
      m.table.length = (match g with | .g2x1 => 2 | .g2x2 => 4 | .g3x2 => 6)
  | 3 => ∀ (i : Nat) (e : Member), m.table[i]? = some e → e.number.toNat = i
  | 4 => 1 ≤ (m.table.filter (·.fitted.card)).length ∧ (m.table.filter (·.fitted.card)).length ≤ 2
  | 5 => m.settings.storageMode = .single ∨ (m.table.filter (·.fitted.card)).length = 2
  | 6 => (m.table.filter (·.fitted.release)).length ≤ 1
  | _ => True

/-- The Power Controller once Arm has been taken: a station in Doze is Active again (R185). -/
def State.powerAtArm (s : State) : Power :=
  if s.power.state = .doze then { s.power with state := .active, sleepPending := false } else s.power

/-- What every wake from Sleep leaves (R187). -/
def State.wokenAs (cause : WakeCause) (record : List Byte) (s t : State) : Prop :=
  t.power = { state := .active, sleepPending := false, latched := none, wakeCause := some cause, candidate := none } ∧
  t.develop = { s.develop with stats := .wakeRecord record } ∧
  t.member = { s.member with state := .rolling, table := [], highest := s.ring.next, ownRollOut := false, rejoin := true } ∧
  t.link.urgent = [] ∧ t.link.bulk = none ∧ t.link.detached = s.link.detached ∧
  (t.timer .mark).request = .load 100 ∧
  (s.self.toNat ≠ 0 → (t.timer .roll).request = .load s.self.toNat) ∧
  t.clock.linkTime = s.clock.linkTime ∧
  t.sync = { s.sync with accepted := none, candidate := none } ∧
  t.notices.records.getD 9 none = some { data := .woke cause s.clock.linkTime, count := 1 } ∧
  t.ring = s.ring ∧ t.dark = s.dark ∧ t.capture = s.capture ∧ t.transfer = s.transfer ∧ t.pending = s.pending

/-- The Card Controller at a wake by a Frame or a sync edge: the card that is in the socket begins its mount, and CardState is
pending (R135, R151, R187); with none, or without a socket, nothing changes. -/
def State.mountsAtWake (s t : State) : Prop :=
  (s.cardStation = true → s.card.medium ≠ none →
    t.card = { s.card with state := .mounting, roll := none } ∧
    t.notices.records.getD 5 none = some { data := .cardState s.card.letter .mounting 0#32 0#16 0#32, count := 1 }) ∧
  (s.cardStation = false ∨ s.card.medium = none → t.card = s.card ∧ t.notices.records.getD 5 none = none)

/-- The Roll of a station numbered 0, whose wait is over when it enters Rolling (R23). -/
def State.rollAtEntry (rejoin : Bool) (s : State) : List Queued :=
  if s.self = 0#3 then
    [{ frame := { dst := 15#4, msg := .roll 0#8 s.member.serial s.member.straps.fitted s.ring.next rejoin }, spoils := 0 }]
  else []

/-- The timers after a Restart: the roll timer counts the wait, the Capture Controller's timers and the seam timer are stopped, and
the mark timer runs on (R23, R47, R73, R132). -/
def State.timersAtRestart (s : State) : Timers :=
  { s.clock.timers with
    roll := { s.clock.timers.roll with request := if s.self = 0#3 then .stop else .load s.self.toNat }
    attribution := { s.clock.timers.attribution with request := .stop }
    pulse := { s.clock.timers.pulse with request := .stop }
    exposureLimit := { s.clock.timers.exposureLimit with request := .stop }
    dark := { s.clock.timers.dark with request := .stop }
    quiet := { s.clock.timers.quiet with request := .stop }
    seam := { s.clock.timers.seam with request := .stop } }

/-- The owed Seams after a Restart: in ring order, for each Held or Developed shot, each neighbour-facing edge in order (R132). -/
def State.bandsOwed (s : State) : List (Shot × Direction) :=
  (s.ring.inOrder.filter fun x => x.tag == .held || x.tag == .developed).flatMap fun x =>
    ([Direction.up, .down, .left, .right].filter fun d => (neighbour? s.settings.gridShape s.self.toNat d).isSome).map
      fun d => (x.shot, d)

/-- A Restart frees the slots that are Exposing or Reading, and keeps every other shot (R93). -/
def State.keepsShot (n : Shot) (s : State) : Bool := (s.slot? n).all fun x => x.tag != .exposing && x.tag != .reading

/-- A placement list entry that a Restart keeps: in Filling every member's tile starts again, with the redo counts kept (R150). -/
def Placed.begunAgain (p : Placed) : Placed :=
  { p with
    unwritten := 0
    progress := if p.phase = .filling then
      p.progress.map fun m => { m with expected := 0, running := 0#16, closed := false, close := none } else p.progress }

/-- The Redos of the entries that a Restart keeps in Filling, in list order and member-set order (R171). -/
def State.redosHeld (k : Socket) (s : State) : List Frame :=
  (s.card.placements.filter fun p => s.keepsShot p.shot && p.phase == .filling).flatMap fun p =>
    p.progress.map fun m => { dst := 15#4, msg := .redo p.shot (m.member.setWidth 8) k .restarted }

/-- The ring and the roster after a Restart that keeps the tile size: a shot Exposing or Reading is gone; each other keeps its
record, but that the tile of the current job is Raw again, and the shot that awaited the dark capture in hand has no dark frame;
its entry keeps all but the transfer parts (R93, R105, R132). -/
def State.ringRestarted (s t : State) : Prop :=
  ∀ n x e, s.slot? n = some x → s.entry? n = some e →
    (s.keepsShot n = false → t.slot? n = none ∧ t.entry? n = none) ∧
    (s.keepsShot n = true →
      t.entry? n = some { (e.mapParts fun p => { p with transfer := .idle, grants := 0 }) with cursor := 0 } ∧
      ∃ y, t.slot? n = some y ∧ y = { x with tag := y.tag, dark := y.dark } ∧
        (x.tag = .developing ∧ s.develop.job.map (·.shot) = some n → y.tag = .raw) ∧
        (x.tag ≠ .developing ∨ s.develop.job.map (·.shot) ≠ some n → y.tag = x.tag) ∧
        (x.dark = some .awaiting ∧ n ≠ 0#32 ∧ s.dark.capture.map (·.shot) = some n → y.dark = some .none) ∧
        (x.dark ≠ some .awaiting ∨ s.dark.capture.map (·.shot) ≠ some n → y.dark = x.dark))

/-- The control queue after a wake by a local event: Wake to 15, before the station enters Rolling (R187). -/
def State.wakeQueued (cause : WakeFrameCause) (s t : State) : Prop :=
  s.member.state = .ready → s.self ≠ 6#3 → s.self ≠ 7#3 →
    t.link.control = { frame := { dst := 15#4, msg := .wake 0x3F#8 cause }, spoils := 0 } :: s.rollAtEntry true

/-- A body that a station may take: an Answer or a Notice goes to no block, and a Request's arguments, a band and a payload
have a length that R194 and R195 allow. -/
def takenBody : Msg → Bool
  | .request _ _ args => decide (args.length ≤ 8)
  | .answer .. => false
  | .notice .. => false
  | .seam _ _ band => bandLengthOk band.length
  | .segment b => payloadLengthOk b.payload.length
  | _ => true

/-- The ranges of R33 and R177 for the settings in force. -/
def Settings.inRange (st : Settings) : Prop :=
  (1024 ≤ st.tileColumns ∧ st.tileColumns ≤ 8192 ∧ st.tileColumns % 16 = 0) ∧
  (1024 ≤ st.tileRows ∧ st.tileRows ≤ 8192 ∧ st.tileRows % 16 = 0) ∧
  (100 ≤ st.debounce ∧ st.debounce ≤ 2000 ∧ st.debounce % 100 = 0) ∧ (50 ≤ st.skewTolerance ∧ st.skewTolerance ≤ 1000) ∧
  (1 ≤ st.exposureLimit ∧ st.exposureLimit ≤ 3600) ∧ (∀ t, st.darkThreshold = some t → 500 ≤ t ∧ t ≤ 60000) ∧
  (60 ≤ st.darkAgeLimit ∧ st.darkAgeLimit ≤ 3600) ∧ (1 ≤ st.hotThreshold ∧ st.hotThreshold ≤ 16383) ∧ st.blackLevel ≤ 1023 ∧
  (2048 ≤ st.flatGain ∧ st.flatGain ≤ 8192) ∧ (50 ≤ st.seamTimeout ∧ st.seamTimeout ≤ 2000) ∧
  (8 ≤ st.segmentSize ∧ st.segmentSize ≤ 64 ∧ st.segmentSize % 8 = 0) ∧
  (st.noticeLevels.length = 11 ∧ ∀ l ∈ st.noticeLevels, l ≤ 3)

/-- A channel's count and the length of its pending request fit the timer's 16 or 32 bits (R45). -/
def Timer.fits (id : TimerId) (t : Timer) : Prop :=
  (∀ n, t.request = .load n → 1 ≤ n ∧ n ≤ id.longest) ∧
  (∀ p n, t.count = .counting p n → 1 ≤ p ∧ p ≤ n ∧ n ≤ id.longest)

/-- The capacities of R12, R75, R111, R127, R159 and R177, the ranges of R33, R45 and R55, and the canonical form of the card's
bytes. -/
def State.withinCapacity (s : State) : Prop :=
  (∀ m, s.card.medium = some m → m.bytes.wf = true) ∧
  s.link.urgent.length ≤ 8 ∧ s.link.control.length ≤ 32 ∧
  s.card.unfilled + s.card.filled ≤ 32 ∧
  s.ring.slots.length = 8 ∧ s.ring.areas.length = 8 ∧ s.ring.top < 8 ∧
  s.develop.store.length ≤ 8 ∧ s.dark.defects.length ≤ 1024 ∧
  s.notices.records.length = 11 ∧ s.settings.inRange ∧ 100 ≤ s.capture.shutter ∧ s.capture.shutter ≤ 1000000 ∧
  ∀ id, (s.timer id).fits id

/-- `ringOk`, with what keeps it: the shot numbers rise around the ring from the oldest (R80), a roll call does not lower the next shot number, and while it
runs, as in Sleep, the station is Disarmed with no dark capture in hand. Each entry of the placement list has a shot of its own,
which the roster holds (R148, R149). -/
def State.shotsInStep (s : State) : Prop :=
  s.ringOk ∧ (s.ring.inOrder.Pairwise fun a b => a.shot < b.shot) ∧ (s.card.placements.map (·.shot)).Nodup ∧ (∀ p ∈ s.card.placements, ∃ e ∈ s.ring.roster, e.shot = p.shot) ∧
    (s.member.state = .rolling → s.ring.next ≤ s.member.highest) ∧
    (s.member.state = .rolling ∨ s.power.state = .sleep → s.capture.state = .disarmed ∧ s.dark.capture = none)

end Sys2Proof.Machine

open Sys2Proof Sys2Proof.Machine

/-! ## The step and reset -/

/-- A step runs the command at the front of the queue on the state with the queue's rest. -/
def Obligations.StepRunsTheFrontCommand : Prop :=
  ∀ (c : Instr) (rest : List Instr) (s : State), s.pending = c :: rest → step s = exec c { s with pending := rest }

/-- MODEL'S CHOICE (log 2, log 4, log 6): with no command waiting, the station makes what is due of itself, else its local
oscillator counts one microsecond, the tenth of which is a tap edge. -/
def Obligations.StepOnAnEmptyQueue : Prop :=
  ∀ s : State, s.pending = [] →
    (∀ c, s.dueStep = some c → step s = exec c s) ∧
    (s.dueStep = none → 9 ≤ s.clock.sinceFine → step s = exec .tapEdge s) ∧
    (s.dueStep = none → s.clock.sinceFine < 9 →
      (∀ T, s.clock.alarm = some T → s.clock.linkTime.toNat + 1 < T.toNat) →
      ∃ time, time.toNat = min (s.clock.linkTime.toNat + 1) (2 ^ 64 - 1) ∧
        step s = .next { s with clock := { s.clock with linkTime := time, sinceFine := s.clock.sinceFine + 1 } })

/-- Every command runs, and none touches the queue of commands. -/
def Obligations.EveryCommandGoesOn : Prop :=
  ∀ (c : Instr) (s : State), ∃ t, exec c s = .next t ∧ t.pending = s.pending

/-- The machine after reset is the station right after START with the model's straps and serial (log 1) and no card, whatever
state the reset line found. -/
def Obligations.ResetIsTheStateAfterStart : Prop :=
  ∀ s : State, s.card.medium = none → s.pending = [] → exec (.start resetStraps resetSerial false) s = .next State.reset

/-- START at a station strapped 0-5 with no card in its socket, or without a socket, leaves every block as after Start; the
roll timer counts the station's number, or the Roll of station 0 is queued at once (R21, R23, R45).
START with a card in the socket of a card station begins its mount beside the same roll call; a station strapped 6 or 7 enters
Excluded and queues nothing (R21, R151). MODEL'S CHOICE (log 53): the mount's notice CardState is pending after the clearing. -/
def Obligations.StartBeginsARollCall : Prop :=
  (∀ (straps : Straps) (serial : Word32) (busy : Bool) (s : State),
     straps.number ≠ 6#3 → straps.number ≠ 7#3 → (straps.fitted.card = false ∨ s.card.medium = none) →
     exec (.start straps serial busy) s = .next
       { member := { straps := straps, serial := serial }
         link := {
           phase := if busy then .hearing false else .free
           control := if straps.number = 0#3 then
             [{ frame := { dst := 15#4, msg := .roll 0#8 serial straps.fitted 1#32 false }, spoils := 0 }] else [] }
         clock := { timers := { roll := {
           request := if straps.number = 0#3 then .stop else .load straps.number.toNat } } }
         card := { medium := s.card.medium }
         pending := s.pending }) ∧
  (∀ (straps : Straps) (serial : Word32) (busy : Bool) (s : State),
     (straps.number ≠ 6#3 → straps.number ≠ 7#3 → straps.fitted.card = true → s.card.medium ≠ none →
       ∃ t, exec (.start straps serial busy) s = .next t ∧ t.card = { medium := s.card.medium, state := .mounting } ∧
         t.member = { straps := straps, serial := serial } ∧
         t.notices.records = (List.replicate 11 none).set 5
           (some { data := .cardState none .mounting 0#32 0#16 0#32, count := 1 }) ∧
         t.link = {
           phase := if busy then .hearing false else .free
           control := if straps.number = 0#3 then
             [{ frame := { dst := 15#4, msg := .roll 0#8 serial straps.fitted 1#32 false }, spoils := 0 }] else [] } ∧
         t.clock = { timers := { roll := {
           request := if straps.number = 0#3 then .stop else .load straps.number.toNat } } } ∧
         t = { t with ring := {}, dark := {}, develop := {}, transfer := {}, sync := {}, capture := {}, power := {},
                      pending := s.pending }) ∧
     (straps.number = 6#3 ∨ straps.number = 7#3 →
       ∃ t, exec (.start straps serial busy) s = .next t ∧ t.member.state = .excluded ∧
         t.link = { phase := if busy then .hearing false else .free } ∧ t.clock = {}))

/-! ## The link (chapter 1) -/

/-- At a free link the head of the urgent queue is offered, else the head of the control queue, a Mark stamped with link time,
else the bulk frame in hand where the quiet set is empty; Detached, asleep or at a link in use, the station offers nothing.
With no bulk frame in hand, a station in Configuring or Ready builds the Seam at the head of its owed list, its band the raw
samples less their base (R123, R124), else the Segment at its send cursor where every target is Sending with a grant (R157),
and offers it (R15). MODEL'S CHOICE (log 13): a sample that an area does not hold reads as 0. -/
def Obligations.OfferTakesTheHighestClass : Prop :=
  ∀ s : State, s.calm →
    (s.link.phase ≠ .free ∨ s.link.detached = true ∨ s.power.state = .sleep → exec (.linkFreeOffer none) s = .next s) ∧
    (s.link.phase = .free → s.link.detached = false → s.power.state ≠ .sleep →
      (∀ q qs, s.link.urgent = q :: qs →
        exec (.linkFreeOffer none) s = .next
          { s with link := { s.link with phase := .sending .urgent false, frameStart := some s.clock.linkTime } }) ∧
      (∀ q qs, s.link.urgent = [] → s.link.control = q :: qs →
        exec (.linkFreeOffer none) s = .next
          { s with link := { s.link with
              phase := .sending .control false
              frameStart := some s.clock.linkTime
              control := { q with frame := { q.frame with msg := match q.frame.msg with
                | .mark _ => .mark s.clock.linkTime
                | m => m } } :: qs } }) ∧
      (∀ b, s.link.urgent = [] → s.link.control = [] → s.capture.quiet = [] → s.link.bulk = some b →
        exec (.linkFreeOffer none) s = .next
          { s with link := { s.link with phase := .sending .bulk false, frameStart := some s.clock.linkTime } }) ∧
      (s.link.urgent = [] → s.link.control = [] → s.capture.quiet ≠ [] → exec (.linkFreeOffer none) s = .next s) ∧
      (s.link.urgent = [] → s.link.control = [] → s.capture.quiet = [] → s.link.bulk = none →
        (s.member.state ≠ .configuring → s.member.state ≠ .ready → exec (.linkFreeOffer none) s = .next s) ∧
        (∀ n d owed x, s.inForce → s.develop.owed = (n, d) :: owed → s.slot? n = some x →
          ∃ band, exec (.linkFreeOffer none) s = .next (s.offeringBulk (.seam n d band)) ∧
            band.length = (bandPositions s.settings d).length ∧
            ∀ i p, (bandPositions s.settings d)[i]? = some p → (band.getD i 0#16).toNat =
              ((s.area (s.slotIndex n)).raw.getD p 0#14).toNat -
                (if x.dark = some .used ∧ s.dark.valid = true then (s.dark.samples.getD p 0#14).toNat
                 else s.settings.blackLevel % 16384)) ∧
        (∀ n e x, s.inForce → s.develop.owed = [] → s.transfer.current = some n → s.entry? n = some e → s.slot? n = some x →
          ((∃ p ∈ e.parts, p.target = true) → (∀ p ∈ e.parts, p.target = true → p.transfer = .sending ∧ 1 ≤ p.grants) →
            ∃ g, exec (.linkFreeOffer none) s = .next (s.offeringBulk (.segment g)) ∧
              g.shot = e.shot ∧ g.tile = s.self.setWidth 8 ∧ g.offset = BitVec.ofNat 32 e.cursor ∧
              g.openFlag = decide (e.cursor = 0) ∧
              g.payload = ((s.packedTile e.slot).drop e.cursor).take
                (min (segmentBytes s.settings) (tileBytes s.settings - e.cursor)) ∧
              g.sum = recorded (sumBytes g.payload) ∧
              (g.close.isSome = true ↔
                e.cursor + min (segmentBytes s.settings) (tileBytes s.settings - e.cursor) = tileBytes s.settings) ∧
              (∀ c, g.close = some c → ∀ sum o k, x.tileSum = some sum → x.outcome = some o → x.skew = some k →
                -2147483648 ≤ k → k ≤ 2147483647 →
                c.tileSum = sum ∧ c.flags = x.flags ∧ c.outcome = o ∧ c.skew.toInt = k)) ∧
          ((∀ p ∈ e.parts, p.target = false) ∨ (∃ p ∈ e.parts, p.target = true ∧ (p.transfer ≠ .sending ∨ p.grants = 0)) →
            exec (.linkFreeOffer none) s = .next s)) ∧
        (s.develop.owed = [] → s.transfer.current = none → exec (.linkFreeOffer none) s = .next s)))

/-- Against a frame that another node offers at the same moment, the lower class wins, and of one class the lower source; the
loser keeps its frame, a Mark with the time of that offer, and listens. This holds for the head of either queue and for a bulk
frame, in hand or built for the offer; a station that would offer nothing hears the other's frame.
A frame that begins on a free link, or after one that was not heard from its start, is heard from its start, and its
frame-start time is the link time; a frame that is already heard or sent goes on. -/
def Obligations.ArbitrationAndFrameStart : Prop :=
  (∀ (g : WireFrame) (q : Queued) (qs : List Queued) (s : State),
     s.calm → s.link.phase = .free → s.link.detached = false → s.power.state ≠ .sleep → s.link.urgent = q :: qs →
     ((q.frame.msg.cls < g.cls ∨ (q.frame.msg.cls = g.cls ∧ s.self < g.src)) →
       exec (.linkFreeOffer (some g)) s = .next
         { s with link := { s.link with phase := .sending .urgent false, frameStart := some s.clock.linkTime } }) ∧
     ((g.cls < q.frame.msg.cls ∨ (q.frame.msg.cls = g.cls ∧ g.src < s.self)) →
       exec (.linkFreeOffer (some g)) s = .next
         { s with link := { s.link with phase := .hearing true, frameStart := some s.clock.linkTime } })) ∧
  (∀ (g : WireFrame) (q : Queued) (qs : List Queued) (m : Msg) (l : Link) (s : State),
     s.calm → s.link.phase = .free → s.link.detached = false → s.power.state ≠ .sleep → s.link.urgent = [] → s.link.control = q :: qs →
     m = (match q.frame.msg with | .mark _ => .mark s.clock.linkTime | m => m) →
     l = { s.link with frameStart := some s.clock.linkTime, control := { q with frame := { q.frame with msg := m } } :: qs } →
     ((m.cls < g.cls ∨ (m.cls = g.cls ∧ s.self < g.src)) →
       exec (.linkFreeOffer (some g)) s = .next { s with link := { l with phase := .sending .control false } }) ∧
     ((g.cls < m.cls ∨ (m.cls = g.cls ∧ g.src < s.self)) →
       exec (.linkFreeOffer (some g)) s = .next { s with link := { l with phase := .hearing true } })) ∧
  (∀ (g : WireFrame) (b : Bulk) (s : State),
     s.calm → s.link.phase = .free → s.link.detached = false → s.power.state ≠ .sleep → s.link.urgent = [] → s.link.control = [] →
     s.capture.quiet = [] → s.link.bulk = some b →
     ((b.frame.msg.cls < g.cls ∨ (b.frame.msg.cls = g.cls ∧ s.self < g.src)) →
       exec (.linkFreeOffer (some g)) s = .next
         { s with link := { s.link with phase := .sending .bulk false, frameStart := some s.clock.linkTime } }) ∧
     ((g.cls < b.frame.msg.cls ∨ (b.frame.msg.cls = g.cls ∧ g.src < s.self)) →
       exec (.linkFreeOffer (some g)) s = .next
         { s with link := { s.link with phase := .hearing true, frameStart := some s.clock.linkTime } })) ∧
  (∀ (g : WireFrame) (s u : State),
     s.calm → s.link.phase = .free → s.link.detached = false → s.power.state ≠ .sleep → exec (.linkFreeOffer none) s = .next u →
     (∀ m, u.link.offered = some m →
       ((m.cls < g.cls ∨ (m.cls = g.cls ∧ s.self < g.src)) → exec (.linkFreeOffer (some g)) s = .next u) ∧
       ((g.cls < m.cls ∨ (m.cls = g.cls ∧ g.src < s.self)) →
         exec (.linkFreeOffer (some g)) s = .next { u with link := { u.link with phase := .hearing true } })) ∧
     (u.link.offered = none → exec (.linkFreeOffer (some g)) s = .next
       { u with link := { u.link with phase := .hearing true, frameStart := some s.clock.linkTime } })) ∧
  (∀ s : State, s.calm →
     (s.link.phase = .free ∨ s.link.phase = .hearing false →
       exec .frameStart s = .next
         { s with link := { s.link with phase := .hearing true, frameStart := some s.clock.linkTime } }) ∧
     (s.link.phase ≠ .free → s.link.phase ≠ .hearing false → exec .frameStart s = .next s))

/-- At a listener: a faulty frame is spoiled and counted, a frame another station spoils is dropped uncounted, a malformed
frame is dropped and counted, a frame for another node, or one that goes to no block, or whose body holds a code that is not listed
(R193), changes nothing else, and a frame not heard from its start is not judged; a sleeping station takes none but a good Wake.
A station strapped 6 or 7 has no node number that a frame could name (R3, R21). At the sender an own frame that goes out malformed
is counted, and one that no own block takes, such as an Answer or a Notice to node 7, or a Claim or a Grant to another station,
reaches none; either has left its queue or the station's hand as sent (R11, R12), and the sleep test (R183) follows. The five faults
of R7. -/
def Obligations.BadFramesReachNoBlock : Prop :=
  (∀ (f : WireFrame) (others : Bool) (s : State), s.calm →
     (s.link.phase = .hearing false ∨ s.link.phase = .free →
       exec (.frameEnd f others) s = .next { s with link := s.link.ended }) ∧
     (s.link.phase = .hearing true → s.power.state ≠ .sleep →
       (f.faulty = true → exec (.frameEnd f others) s = .next
         { s with link := { s.link.ended with spoiled := satInc 4294967295 s.link.spoiled } }) ∧
       (f.faulty = false → exec (.frameEnd f true) s = .next { s with link := s.link.ended }) ∧
       (f.faulty = false → f.malformed = true → exec (.frameEnd f false) s = .next
         { s with link := { s.link.ended with malformed := satInc 4294967295 s.link.malformed } }) ∧
       (f.faulty = false → f.malformed = false → f.dst ≠ nodeDst s.self ∨ s.self = 6#3 ∨ s.self = 7#3 → f.dst ≠ 15#4 →
         f.kind ∉ [0x20#8, 0x21#8, 0x24#8, 0x25#8, 0x40#8, 0x41#8] →
         exec (.frameEnd f false) s = .next { s with link := s.link.ended }) ∧
       (f.faulty = false → f.malformed = false → reachesNoBlock f s →
         exec (.frameEnd f false) s = .next { s with link := s.link.ended })) ∧
     (s.link.phase = .hearing true → s.power.state = .sleep →
       f.kind ≠ 0x39#8 ∨ f.faulty = true ∨ others = true ∨ f.malformed = true →
       exec (.frameEnd f others) s = .next { s with link := s.link.ended })) ∧
  (∀ (f : WireFrame) (s u : State), s.calm → s.power.state ≠ .sleep → s.ownFrameOut u → f.faulty = false →
     (f.malformed = true → exec (.frameEnd f false) s = .next (State.sleepTest
       { u with link := { u.link with malformed := satInc 4294967295 u.link.malformed } })) ∧
     (f.malformed = false →
       ((f.dst ≠ nodeDst s.self ∨ s.self = 6#3 ∨ s.self = 7#3) ∧ f.dst ≠ 15#4 ∧
         f.kind ∉ [0x20#8, 0x21#8, 0x24#8, 0x25#8, 0x40#8, 0x41#8]) ∨ reachesNoBlock f s →
       exec (.frameEnd f false) s = .next u.sleepTest)) ∧
  (∀ f : WireFrame, f.faulty = true ↔
     f.body.length ≠ f.len.toNat ∨ 65600 < f.len.toNat ∨ f.sum = none ∨ f.sum = some 0#16
       ∨ (∃ w, f.sum = some w ∧ w ≠ frameSum f.dst f.kind f.len f.body))

/-- The spoil count of the station's own frame, which another station spoils, or the sender itself, where it finds a fault in the
frame as any listener does (R7, R9): at counts 1 to 15 it stays at the head of its queue with a retry counted, and at 16 it is
discarded and the station is Detached. A sender that finds the fault drives the spoil mark, and counts a frame spoiled beside the
spoil of its own frame (R18). A bulk frame that the station withdraws ends spoiled, stays in hand unless it was cancelled, and is
charged no spoil (R16, R17). The sleep test (R183, `SleepPassesThroughDoze`) follows. -/
def Obligations.OwnFrameSpoilsAreCounted : Prop :=
  (∀ (f : WireFrame) (others : Bool) (n : Nat) (s : State), s.calm → s.power.state ≠ .sleep → f.faulty = true ∨ others = true →
    n = (if f.faulty = true then satInc 4294967295 s.link.spoiled else s.link.spoiled) →
    (∀ q qs, s.link.phase = .sending .urgent false → s.link.urgent = q :: qs →
      (q.spoils < 15 → exec (.frameEnd f others) s = .next (State.sleepTest
        { s with link := { s.link.ended with
            urgent := { q with spoils := q.spoils + 1 } :: qs
            retries := satInc 4294967295 s.link.retries
            spoiled := n } })) ∧
      (15 ≤ q.spoils → exec (.frameEnd f others) s = .next (State.sleepTest
        { s with link := { s.link.ended with urgent := qs, detached := true, spoiled := n } }))) ∧
    (∀ q qs, s.link.phase = .sending .control false → s.link.control = q :: qs →
      (q.spoils < 15 → exec (.frameEnd f others) s = .next (State.sleepTest
        { s with link := { s.link.ended with
            control := { q with spoils := q.spoils + 1 } :: qs
            retries := satInc 4294967295 s.link.retries
            spoiled := n } })) ∧
      (15 ≤ q.spoils → exec (.frameEnd f others) s = .next (State.sleepTest
        { s with link := { s.link.ended with control := qs, detached := true, spoiled := n } }))) ∧
    (∀ b, s.link.phase = .sending .bulk false → s.link.bulk = some b →
      (b.spoils < 15 → b.cancelled = false → exec (.frameEnd f others) s = .next (State.sleepTest
        { s with link := { s.link.ended with
            bulk := some { b with spoils := b.spoils + 1 }
            retries := satInc 4294967295 s.link.retries
            spoiled := n } })) ∧
      (b.spoils < 15 → b.cancelled = true → exec (.frameEnd f others) s = .next (State.sleepTest
        { s with link := { s.link.ended with bulk := none, spoiled := n } })) ∧
      (15 ≤ b.spoils → exec (.frameEnd f others) s = .next (State.sleepTest
        { s with link := { s.link.ended with bulk := none, detached := true, spoiled := n } })))) ∧
  (∀ (f : WireFrame) (others : Bool) (b : Bulk) (s : State), s.calm → s.power.state ≠ .sleep → s.link.phase = .sending .bulk true →
    s.link.bulk = some b →
    exec (.frameEnd f others) s = .next (State.sleepTest
      { s with link := { s.link.ended with
          bulk := if b.cancelled then none else some b
          spoiled := satInc 4294967295 s.link.spoiled } }))

/-- A good frame, heard or sent, that is addressed to the station is taken: the command of its kind runs on the state with the
link free, and with the sender's frame gone from its queue or its hand; the sleep test follows at the sender (R183). A sleeping
station takes a Wake alone. MODEL'S INFERENCE (log 3): the X_TAKEN row of a frame is made in the event of its end. -/
def Obligations.FrameEndRunsTheTakenCommand : Prop :=
  ∀ (f : WireFrame) (m : Msg) (c : Instr) (s : State),
    s.calm → f.faulty = false → f.malformed = false →
    ((f.dst = nodeDst s.self ∧ s.self ≠ 6#3 ∧ s.self ≠ 7#3) ∨ f.dst = 15#4 ∨
      f.kind ∈ [0x20#8, 0x21#8, 0x24#8, 0x25#8, 0x40#8, 0x41#8]) →
    Msg.parse f.kind f.body = some m →
    (s.power.state ≠ .sleep → takenAs f.src (f.dst == 15#4) (s.link.frameStart.getD 0#64) m = some c →
      (s.link.phase = .hearing true → exec (.frameEnd f false) s = exec c { s with link := s.link.ended }) ∧
      (s.link.phase = .sending .urgent false →
        ∃ t : State, exec c { s with link := { s.link.ended with urgent := s.link.urgent.tail } } = .next t ∧
          exec (.frameEnd f false) s = .next t.sleepTest) ∧
      (s.link.phase = .sending .control false →
        ∃ t : State, exec c { s with link := { s.link.ended with control := s.link.control.tail } } = .next t ∧
          exec (.frameEnd f false) s = .next t.sleepTest) ∧
      (∀ b, s.link.phase = .sending .bulk false → s.link.bulk = some b →
        ∃ t, exec c ((State.bulkSent b { s with link := { s.link with bulk := none, phase := .free } }).onLink Link.ended) =
            .next t ∧
          exec (.frameEnd f false) s = .next t.sleepTest)) ∧
    (s.power.state = .sleep → s.link.phase = .hearing true →
      (f.kind = 0x39#8 → takenAs f.src (f.dst == 15#4) 0#64 m = some c →
        exec (.frameEnd f false) s = exec c { s with link := s.link.ended }) ∧
      (f.kind ≠ 0x39#8 → exec (.frameEnd f false) s = .next { s with link := s.link.ended }))

/-- When room appears the frame held longest for a queue is admitted; the others stay held in their order. -/
def Obligations.HeldFramesAreAdmittedInOrder : Prop :=
  ∀ (f : Frame) (fs : List Frame) (s : State), s.calm →
    (s.link.urgentHeld = f :: fs →
      exec (.heldFrameAdmit .urgent) s = .next (if s.link.urgent.length < 8 then
        { s with link := { s.link with urgent := s.link.urgent ++ [{ frame := f, spoils := 0 }], urgentHeld := fs } } else s)) ∧
    (s.link.controlHeld = f :: fs →
      exec (.heldFrameAdmit .control) s = .next (if s.link.control.length < 32 then
        { s with link := { s.link with control := s.link.control ++ [{ frame := f, spoils := 0 }], controlHeld := fs } } else s))

/-- Where the Link Interface asks for a Notice, with fewer than 24 control entries and nothing held for them, a station in
Configuring or Ready gives the pending record of the highest level, and among those of that level the one earliest in class order:
the Notice, with its class, level, count and data, joins the control queue to node 7, and the record is clear. In Rolling, Excluded
and Duplicate, and when no record of a class at level 1 to 3 is pending, none is given, and the records stay as they are. -/
def Obligations.NoticeOfTheHighestLevelIsGiven : Prop :=
  (∀ (i : Nat) (r : NoticeRecord) (s : State),
    s.inForce → s.calm → s.link.control.length < 24 → s.link.controlHeld = [] →
    i < 11 → s.notices.records.getD i none = some r → 1 ≤ s.settings.noticeLevels.getD i 0 →
    (∀ j, j < 11 → (s.notices.records.getD j none).isSome → 1 ≤ s.settings.noticeLevels.getD j 0 →
      s.settings.noticeLevels.getD j 0 < s.settings.noticeLevels.getD i 0
        ∨ (s.settings.noticeLevels.getD j 0 = s.settings.noticeLevels.getD i 0 ∧ i ≤ j)) →
    exec .noticeAdmit s = .next
      { s with
        link := s.linkAfter 7#4 (.notice (BitVec.ofNat 8 (s.settings.noticeLevels.getD i 0)) (BitVec.ofNat 8 r.count) r.data)
        notices := { s.notices with records := s.notices.records.set i none } }) ∧
  (∀ s : State, s.calm →
    (s.member.state = .rolling ∨ s.member.state = .excluded ∨ s.member.state = .duplicate → exec .noticeAdmit s = .next s) ∧
    ((∀ j, j < 11 → (s.notices.records.getD j none).isSome → s.settings.noticeLevels.getD j 0 = 0) →
      exec .noticeAdmit s = .next s))

/-! ## Roll call (chapter 2) -/

/-- A Roll taken in Rolling that passes the check of R24 is entered in the member table by its station number, raises the
highest shot number heard, and restarts the roll window once the station's own Roll is out; one that fails it changes nothing.
An expiry of the roll timer whose edge lies before the Roll is delivered, before it (R44).
MODEL'S INFERENCE (log 25): a Roll of the station's own number and serial is its own, and sets the mark; (log 34) such an expiry is
a due mark that the Roll finds. -/
def Obligations.RollTakenInRollingIsEntered : Prop :=
  ∀ (source : Node) (station : Byte) (serial : Word32) (fitted : Fitted) (next : Shot) (rejoin : Bool) (s : State),
    s.power.state ≠ .sleep → s.member.state = .rolling →
    (s.calm → station ≠ source.setWidth 8 ∨ 5 < station.toNat ∨ serial = 0#32 →
      exec (.rollTaken source station serial fitted next rejoin) s = .next s) ∧
    (station = source.setWidth 8 → station.toNat ≤ 5 → serial ≠ 0#32 → (s.timer .roll).due = true →
      ∀ u, exec s.rollRow s = .next u →
        exec (.rollTaken source station serial fitted next rejoin) s =
          exec (.rollTaken source station serial fitted next rejoin) u) ∧
    (station = source.setWidth 8 → station.toNat ≤ 5 → serial ≠ 0#32 → s.calm →
      s.member.table.Pairwise (fun a b => a.number < b.number) →
      ∃ table : List Member,
        table.Pairwise (fun a b => a.number < b.number) ∧
        (∀ m, m.number ≠ source → (m ∈ table ↔ m ∈ s.member.table)) ∧
        (∀ m ∈ s.member.table, m.number = source →
          (if m.serial = serial then { m with fitted := fitted } else { m with duplicated := true }) ∈ table) ∧
        ((∀ m ∈ s.member.table, m.number ≠ source) →
          { number := source, serial := serial, fitted := fitted, duplicated := false } ∈ table) ∧
        ((s.member.ownRollOut = true ∨ (source = s.self ∧ serial = s.member.serial)) →
          exec (.rollTaken source station serial fitted next rejoin) s = .next
            { s with
              member := { s.member with table := table, ownRollOut := true,
                                        highest := if s.member.highest < next then next else s.member.highest }
              clock := { s.clock with timers := { s.clock.timers with
                roll := { s.clock.timers.roll with request := .load 150 } } } }) ∧
        (s.member.ownRollOut = false → ¬(source = s.self ∧ serial = s.member.serial) →
          exec (.rollTaken source station serial fitted next rejoin) s = .next
            { s with member := { s.member with table := table,
                                               highest := if s.member.highest < next then next else s.member.highest } }))

/-- A Roll that passes the check of R24, taken in Configuring or Ready: a rejoining member is answered with the station's own
Roll unless one is queued or held, another member's Roll has no effect, and a stranger's raises notice Stranger. In Excluded and
Duplicate it is disregarded, and so is every frame other than Request, Restart, Mark and Wake; a station rolling with the rejoin flag
disregards Open, Close, Refuse and ReadDone (R22). -/
def Obligations.RollTakenByARunningStation : Prop :=
  (∀ (c : Instr) (s : State), s.calm →
    (s.member.state = .excluded ∨ s.member.state = .duplicate → blockFrame c = true → exec c s = .next s) ∧
    (s.member.state = .rolling → s.member.rejoin = true → captureFrame c = true → exec c s = .next s)) ∧
  ∀ (source : Node) (serial : Word32) (fitted : Fitted) (next : Shot) (rejoin : Bool) (s : State),
    s.calm → source.toNat ≤ 5 → serial ≠ 0#32 →
    (s.member.state = .excluded ∨ s.member.state = .duplicate →
      exec (.rollTaken source (source.setWidth 8) serial fitted next rejoin) s = .next s) ∧
    (s.inForce →
      ((∃ m ∈ s.member.table, m.number = source ∧ m.serial = serial) → rejoin = true →
        (∀ m ∈ s.link.controlMsgs, isRoll m = false) →
        exec (.rollTaken source (source.setWidth 8) serial fitted next rejoin) s = .next
          { s with
            link := s.linkAfter 15#4
              (.roll (s.self.setWidth 8) s.member.serial s.member.straps.fitted s.ring.next false) }) ∧
      ((∃ m ∈ s.member.table, m.number = source ∧ m.serial = serial) →
        (rejoin = false ∨ ∃ m ∈ s.link.controlMsgs, isRoll m = true) →
        exec (.rollTaken source (source.setWidth 8) serial fitted next rejoin) s = .next s) ∧
      ((∀ m ∈ s.member.table, m.number = source → m.serial ≠ serial) →
        exec (.rollTaken source (source.setWidth 8) serial fitted next rejoin) s = .next
          { s with notices := s.notices.raise (.stranger (source.setWidth 8) serial fitted) }))

/-- The end of the roll window ends the roll call: the next shot number becomes the highest heard; a duplicated number makes
the station Duplicate; an unchanged retained table returns it to Ready and Disarmed; a changed one empties the ring and makes it
Configuring; and with nothing retained it becomes Configuring.
The end of the wait queues the station's Roll with its next shot number; without an expiry on its way nothing happens.
A frame taken other than Roll, Restart and Wake, rolling without the rejoin flag: with the own Roll out and another station
heard the roll call ends at once, as the window's end ends it, and the frame is handled in the state that results; else the
station is Excluded, and of frames a Mark alone is still taken (R26; a Request: `RequestsAreSettledByTheStationState`). An expiry
of the roll timer whose edge lies before the frame is delivered, before it (R44).
MODEL'S CHOICE (log 6; log 42): an expiry row acts where an expiry is due; another station is one of another number; MODEL'S
INFERENCE (log 34): an expiry that is due comes before the frame. -/
def Obligations.RollTimerQueuesTheRollAndEndsTheRollCall : Prop :=
  (∀ s : State, s.member.state = .rolling → s.member.ownRollOut = true → (s.timer .roll).due = true →
     ((∃ m ∈ s.member.table, m.duplicated = true) →
       exec .rollWindowExpiry s = .next
         { s with
           clock := s.clockAfter .roll
           member := { s.member with state := .duplicate }
           ring := { s.ring with next := s.member.highest }
           link := { s.link with rollHeld := [] }
           develop := { s.develop with owed := [] } }) ∧
     ((∀ m ∈ s.member.table, m.duplicated = false) → s.member.retainedValid = false →
       ∃ t, exec .rollWindowExpiry s = .next t ∧
         t = { s with
               clock := s.clockAfter .roll
               member := { s.member with state := .configuring }
               ring := { s.ring with next := s.member.highest }
               card := { s.card with letter := t.card.letter }
               link := s.link.flushRollHeld } ∧
         (s.cardStation = false → t.card.letter = s.card.letter) ∧
         (s.cardStation = true → t.card.letter = some
           (if ∃ m ∈ s.member.table, m.fitted.card = true ∧ m.number < s.self then .b else .a))) ∧
     ((∀ m ∈ s.member.table, m.duplicated = false) → s.member.retainedValid = true →
       s.member.table.map (fun m => (m.number, m.serial)) = s.member.retained →
       ∃ t, exec .rollWindowExpiry s = .next t ∧ t.member = { s.member with state := .ready } ∧
         t.capture = { s.capture with state := .disarmed } ∧ t.ring.next = s.member.highest ∧ t.ring.top = s.ring.top ∧
         t.clock = s.clockAfter .roll ∧ t.dark = s.dark ∧ t.sync = s.sync ∧ t.power = s.power) ∧
     ((∀ m ∈ s.member.table, m.duplicated = false) → s.member.retainedValid = true →
       s.member.table.map (fun m => (m.number, m.serial)) ≠ s.member.retained → s.ringOk →
       ∃ t, exec .rollWindowExpiry s = .next t ∧ t.member = { s.member with state := .configuring, retainedValid := false } ∧
         t.ring.next = s.member.highest ∧ t.ring.top = s.ring.top ∧ t.ring.roster = [] ∧
         t.ring.slots = List.replicate 8 none ∧ t.capture = s.capture ∧ t.dark = s.dark ∧ t.sync = s.sync ∧
         t.power = s.power) ∧
     exec .rollWindowExpiry s = .next (State.endRollCall { s with clock := s.clockAfter .roll })) ∧
  (∀ (c : Instr) (s : State), showsBack s.cardStation c = true → s.power.state ≠ .sleep → s.member.state = .rolling →
     s.member.rejoin = false →
     ((s.timer .roll).due = true → ∀ u, exec s.rollRow s = .next u → exec c s = exec c u) ∧
     (s.calm → s.member.ownRollOut = true → (∃ m ∈ s.member.table, m.number ≠ s.self) →
       exec c s = exec c s.endRollCall) ∧
     (s.calm → s.member.ownRollOut = false ∨ (∀ m ∈ s.member.table, m.number = s.self) →
       (takesMark c = false → exec c s = .next s.excludedByFrame) ∧
       (takesMark c = true → exec c s = exec c s.excludedByFrame))) ∧
  (∀ s : State, s.member.state = .rolling → s.member.ownRollOut = false →
     exec .rollWaitExpiry s = .next (if (s.timer .roll).due then
       { s with
         clock := s.clockAfter .roll
         link := s.linkAfter 15#4
           (.roll (s.self.setWidth 8) s.member.serial s.member.straps.fitted s.ring.next s.member.rejoin) } else s))

/-- A Restart begins a new roll call: the member table is empty, the roll timer counts the station's number, or the Roll of
station 0 is queued at once (R23, R45), and every queue, every frame held, and every notice is gone (R19, R31, R180). Capture is
Disarmed with its timers stopped (R47, R73), a dark capture is abandoned without a ReadDone (R105), the Developing tile is Raw
again and the owed Seams are those of the Held and Developed shots (R132), and each transfer part and each Filling placement
starts again (R93, R150, R171); addressed to the station alone, its card station holds a Redo for each member of each entry kept
in Filling (R171). A station strapped 6 or 7, or asleep, does not take it. An expiry whose edge lies before the Restart is
delivered, before it (R44): of several, in the order of the table of R46. The placement of a slot freed because it was Exposing or
Reading is voided with the outcome flags recorded so far (R93, R149); where the Restart changes the tile size, the emptying of the
ring follows, and a Filling placement is voided when its close fields are absent again (R34, R150).
MODEL'S INFERENCE (log 34): such an expiry is a due mark that the Restart finds; MODEL'S CHOICE (log 6): the order of several;
(log 28): no Redo names an entry that the emptying voids; (log 58): the dark slot area is as it was. -/
def Obligations.RestartBeginsANewRollCall : Prop :=
  ∀ (toAll reconfigure : Bool) (s : State),
    (s.calm → s.power.state = .sleep ∨ s.self = 6#3 ∨ s.self = 7#3 → exec (.restartTaken toAll reconfigure) s = .next s) ∧
    (s.power.state ≠ .sleep → s.self ≠ 6#3 → s.self ≠ 7#3 → s.afterExpiries.calm →
      exec (.restartTaken toAll reconfigure) s = exec (.restartTaken toAll reconfigure) s.afterExpiries) ∧
    (s.power.state ≠ .sleep → s.self ≠ 6#3 → s.self ≠ 7#3 → s.calm →
      ∃ t, exec (.restartTaken toAll reconfigure) s = .next t ∧
        t = { s with
          member := { s.member with
            state := .rolling, rejoin := !toAll, ownRollOut := false, table := [], highest := s.ring.next
            settings := if reconfigure then {} else s.member.settings
            retainedValid := if reconfigure then false else s.member.retainedValid }
          capture := { s.capture with
            state := .disarmed, exposure := none, quiet := [], disarmPending := false, haltPending := false
            pendingRelease := none, shutter := if reconfigure then 8000 else s.capture.shutter }
          clock := { s.clock with alarm := none, timers := s.timersAtRestart }
          link := { s.link with
            urgent := [], control := s.rollAtEntry (!toAll), urgentHeld := [], controlHeld := [], rollHeld := t.link.rollHeld
            bulk := none, detached := false, phase := .free, frameStart := none }
          notices := { records := List.replicate 11 none }
          develop := { s.develop with job := none, store := [], owed := t.develop.owed }
          dark := { s.dark with capture := none, valid := t.dark.valid }
          transfer := { current := none }
          ring := { s.ring with slots := t.ring.slots, roster := t.ring.roster }
          card := { s.card with grants := [], waiting := [], placements := t.card.placements, writes := t.card.writes }
          power := { s.power with
            state := .active, sleepPending := if s.power.state = .doze then false else s.power.sleepPending } } ∧
        (∀ w ∈ t.card.writes, w.kind = .block → w.cancelled = true) ∧
        (toAll = true ∨ s.card.letter = none → t.link.rollHeld = []) ∧
        (s.ringOk → t.develop.owed = if reconfigure then [] else s.bandsOwed) ∧
        (∀ (e : Entry) (p : Placed) (x : Slot), s.ringOk → s.slot? e.shot = some x → x.tag = .exposing ∨ x.tag = .reading →
          s.entry? e.shot = some e → s.card.placed? e.shot = some p → p.voidRecord p.closeFlags e ∈ t.card.writes) ∧
        (reconfigure = false ∨ (s.settings.tileRows = 3072 ∧ s.settings.tileColumns = 4096) → s.ringOk →
          t.dark.valid = s.dark.valid ∧ s.ringRestarted t ∧
          (∀ w ∈ s.card.writes, w.kind ≠ .block → s.keepsShot w.shot = true → w ∈ t.card.writes) ∧
          ((s.card.placements.map (·.shot)).Nodup →
            t.card.placements = (s.card.placements.filter fun p => s.keepsShot p.shot).map Placed.begunAgain ∧
            (∀ k, toAll = false → s.card.letter = some k → t.link.rollHeld = s.redosHeld k))) ∧
        (reconfigure = true → s.settings.tileRows ≠ 3072 ∨ s.settings.tileColumns ≠ 4096 → s.ringOk →
          t.ring.roster = [] ∧ (∀ o ∈ t.ring.slots, o = none) ∧ t.dark.valid = false ∧
          ((s.card.placements.map (·.shot)).Nodup → (∀ p ∈ s.card.placements, s.entry? p.shot ≠ none) →
            t.card.placements = [] ∧ t.link.rollHeld = []) ∧
          ∀ (e : Entry) (p : Placed) (x : Slot), s.slot? e.shot = some x → x.tag ≠ .exposing → x.tag ≠ .reading →
            s.entry? e.shot = some e → s.card.placed? e.shot = some p →
            p.voidRecord (if p.phase = .filling then {} else p.closeFlags) e ∈ t.card.writes))

/-! ## The Station Clock (chapter 3) -/

/-- A Mark taken steps link time forward by what its time is ahead of the frame-start time, and restarts the mark timer; a step
that reaches the target of the armed alarm fires it.
At an expiry of the mark timer one Mark is queued in Configuring and Ready where none of the station's own waits; in any
other case the expiry queues nothing. -/
def Obligations.MarksKeepTheBackOnOneTime : Prop :=
  (∀ (source : Node) (time start : Time) (s : State), s.takesMarks → s.calm →
     (time ≤ start →
       exec (.markTaken source time start) s = .next
         { s with clock := { s.clock with timers := { s.clock.timers with
             mark := { s.clock.timers.mark with request := .load 100 } } } }) ∧
     (start < time →
       ∃ now : Time, now.toNat = min (s.clock.linkTime.toNat + (time.toNat - start.toNat)) (2 ^ 64 - 1) ∧
         ((∀ T, s.clock.alarm = some T → now < T) →
           exec (.markTaken source time start) s = .next
             { s with clock := { s.clock with
                 linkTime := now
                 timers := { s.clock.timers with mark := { s.clock.timers.mark with request := .load 100 } } } }) ∧
         (∀ T, s.clock.alarm = some T → T ≤ now →
           exec (.markTaken source time start) s = .next
             { s with
               clock := { s.clock with
                 linkTime := now, alarm := none, pulse := some 0
                 timers := { s.clock.timers with mark := { s.clock.timers.mark with request := .load 100 } } }
               capture := { s.capture with pendingRelease := none } }))) ∧
  (∀ s : State, (s.timer .mark).due = true →
     ((s.member.state = .configuring ∨ s.member.state = .ready) → (∀ m ∈ s.link.controlMsgs, isMark m = false) →
       exec .markTimerExpiry s = .next
         { s with clock := s.clockAfter .mark, link := s.linkAfter 15#4 (.mark 0#64) }) ∧
     ((s.member.state ≠ .configuring ∧ s.member.state ≠ .ready) ∨ (∃ m ∈ s.link.controlMsgs, isMark m = true) →
       exec .markTimerExpiry s = .next { s with clock := s.clockAfter .mark }))

/-- At a fine edge every channel of a tap that has its edge acts by the table of R44 and every other channel keeps its state;
every 100th fine edge is a milli edge, every 100th milli edge a coarse edge; the release pulse counts the fine edge, and ends at its
2000th.
The three reported states, which of them run (R43), and a start: a Load request, or with length 0 an expiry at once and a Stop
request (R45). MODEL'S CHOICE (log 5, log 6): TAP_EDGE first counts link time up to the edge, and an expiry is a due mark. -/
def Obligations.TapEdgeDrivesTheChannels : Prop :=
  (∀ (t : Timer) (n : Nat),
     (n ≠ 0 → t.load n = { t with request := .load n }) ∧ t.load 0 = { t with request := .stop, due := true } ∧
     (∀ l, t.request = .load l → t.reported = .starting) ∧
     (∀ p l, t.request = .none ∨ t.request = .stop → t.count = .counting p l → t.reported = .running) ∧
     (t.request = .none ∨ t.request = .stop → t.count = .idle → t.reported = .idle) ∧
     (t.running = true ↔ t.reported ≠ .idle)) ∧
  (∀ (c : Instr) (s : State), startOrExpiry c = false → s.power.state ≠ .sleep → s.afterExpiries.calm →
     exec c s = exec c s.afterExpiries) ∧
  ∀ s : State, s.calm → s.clock.sinceFine < 10 →
    (∀ T, s.clock.alarm = some T → s.clock.linkTime.toNat + (10 - s.clock.sinceFine) < T.toNat) →
    ∃ c : Clock, exec .tapEdge s = .next { s with clock := c } ∧
      c.linkTime.toNat = min (s.clock.linkTime.toNat + (10 - s.clock.sinceFine)) (2 ^ 64 - 1) ∧
      c.sinceFine = 0 ∧ c.alarm = s.clock.alarm ∧
      c.pulse = (s.clock.pulse.bind fun n => if n + 1 < 2000 then some (n + 1) else none) ∧
      (∀ id ∈ [TimerId.attribution, .pulse, .dark], Timer.atEdge false (s.timer id) (c.timers.get id)) ∧
      (s.clock.sinceMilli + 1 < 100 → c.sinceMilli = s.clock.sinceMilli + 1 ∧ c.sinceCoarse = s.clock.sinceCoarse ∧
        ∀ id ∈ [TimerId.roll, .mark, .seam, .exposureLimit, .quiet], c.timers.get id = s.timer id) ∧
      (100 ≤ s.clock.sinceMilli + 1 → c.sinceMilli = 0 ∧
        Timer.atEdge false (s.timer .roll) c.timers.roll ∧ Timer.atEdge true (s.timer .mark) c.timers.mark ∧
        Timer.atEdge false (s.timer .seam) c.timers.seam ∧
        (s.clock.sinceCoarse + 1 < 100 → c.sinceCoarse = s.clock.sinceCoarse + 1 ∧
          c.timers.exposureLimit = s.timer .exposureLimit ∧ c.timers.quiet = s.timer .quiet) ∧
        (100 ≤ s.clock.sinceCoarse + 1 → c.sinceCoarse = 0 ∧
          Timer.atEdge false (s.timer .exposureLimit) c.timers.exposureLimit ∧
          Timer.atEdge false (s.timer .quiet) c.timers.quiet))

/-- The armed alarm fires once link time has reached its target: it is disarmed, the pulse starts, and no release is pending.
The output returns to its inactive level at the 2000th fine edge of the pulse, and at no other: that edge, with all that it does
(`TapEdgeDrivesTheChannels`), is the row of the pulse's end.
MODEL'S CHOICE (log 7, log 8): link time counts on to a target that lies before the next edge; without an alarm, or at another
edge, the row has no effect. -/
def Obligations.ReleaseAlarmAndPulse : Prop :=
  ∀ s : State, s.calm →
    (∀ T, s.clock.alarm = some T → T ≤ s.clock.linkTime →
      exec .releaseAlarmFire s = .next
        { s with clock := { s.clock with alarm := none, pulse := some 0 }
                 capture := { s.capture with pendingRelease := none } }) ∧
    (∀ T, s.clock.alarm = some T → s.clock.linkTime < T →
      T.toNat - s.clock.linkTime.toNat < 10 - s.clock.sinceFine →
      exec .releaseAlarmFire s = .next
        { s with clock := { s.clock with
                   linkTime := T, alarm := none, pulse := some 0
                   sinceFine := s.clock.sinceFine + (T.toNat - s.clock.linkTime.toNat) }
                 capture := { s.capture with pendingRelease := none } }) ∧
    (s.clock.alarm = none → exec .releaseAlarmFire s = .next s) ∧
    (s.clock.pulse = some 1999 → exec .releasePulseEnd s = exec .tapEdge s ∧
      ((∀ T, s.clock.alarm = some T → s.clock.linkTime.toNat + (10 - s.clock.sinceFine) < T.toNat) →
        s.clock.sinceFine < 10 → ∃ c : Clock, exec .releasePulseEnd s = .next { s with clock := c } ∧ c.pulse = none)) ∧
    (s.clock.pulse ≠ some 1999 → exec .releasePulseEnd s = .next s)

/-! ## The Sync Input and capture (chapter 4) -/

/-- A sample of the sync pin on an awake station wired for sync: the first sample sets the accepted level; a return to it rejects
the candidate and counts a bounce; a differing level begins a candidate, continues it before its interval is over, and is then
accepted as an edge. A station not wired takes no sample.
MODEL'S CHOICE (log 9): the Debounce interval is measured by the samples counted, 10 us each. -/
def Obligations.SyncSamplesAreDebounced : Prop :=
  ∀ (level : Level) (s : State), s.calm →
    (s.member.straps.fitted.sync = false → exec (.syncSample level) s = .next s) ∧
    (s.member.straps.fitted.sync = true → s.power.state ≠ .sleep →
      (s.sync.accepted = none →
        exec (.syncSample level) s = .next { s with sync := s.sync.accept level }) ∧
      (s.sync.accepted = some level → s.sync.candidate = none → exec (.syncSample level) s = .next s) ∧
      (∀ c, s.sync.accepted = some level → s.sync.candidate = some c →
        exec (.syncSample level) s = .next
          { s with sync := { s.sync with candidate := none, bounces := satInc 255 s.sync.bounces } }) ∧
      (s.sync.accepted = some (Level.other level) → s.sync.candidate = none →
        exec (.syncSample level) s = .next
          { s with sync := { s.sync with
              candidate := some { since := s.clock.linkTime, samples := 1, interval := s.settings.debounce } } }) ∧
      (∀ c, s.sync.accepted = some (Level.other level) → s.sync.candidate = some c → c.samples * 10 < c.interval →
        exec (.syncSample level) s = .next
          { s with sync := { s.sync with candidate := some { c with samples := c.samples + 1 } } }) ∧
      (∀ c, s.sync.accepted = some (Level.other level) → s.sync.candidate = some c → c.interval ≤ c.samples * 10 →
        exec (.syncSample level) s = exec
          (if level = s.settings.syncPolarity.closedLevel then .syncClosingEdge else .syncOpeningEdge) s))

/-- A closing edge inside the attribution window, or while the station exposes, is an observation: it gives the exposure in hand
of that shot its own edge time, once, and before the outcome is recorded. A station Disarmed or Halted ignores it.
In Doze with WakeOnSync On an accepted edge of either kind returns the station to Active, and triggers nothing; an opening edge
where no integration in Follow mode is in hand has no other effect (R56, R185).
MODEL'S INFERENCE (log 39): in Doze an edge is an observation as in Active. -/
def Obligations.ClosingEdgeIsAnObservation : Prop :=
  (∀ (c : Candidate) (s : State), s.maturingAwake s.settings.syncPolarity.openLevel c → s.calm →
    s.capture.exposure = none ∨ s.capture.state ≠ .exposing ∨ s.settings.syncMode ≠ .follow →
    exec .syncOpeningEdge s = .next
      { s with sync := s.sync.accept s.settings.syncPolarity.openLevel, power := s.powerAtEdge }) ∧
  ∀ (c : Candidate) (s : State), s.maturingAwake s.settings.syncPolarity.closedLevel c → s.calm →
    (s.power.state = .doze → s.settings.wakeOnSync = true → (s.timer .attribution).running = false →
      s.capture.state ≠ .exposing →
      exec .syncClosingEdge s = .next
        { s with sync := s.sync.accept s.settings.syncPolarity.closedLevel
                 power := { s.power with state := .active, sleepPending := false } }) ∧
    (∀ x y, s.capture.exposure = some x → x.ownEdge = none → s.slot? x.shot = some y → y.outcome = none →
      (((s.timer .attribution).running = true ∧ x.shot = s.capture.current) ∨
        ((s.timer .attribution).running = false ∧ s.capture.state = .exposing)) →
      exec .syncClosingEdge s = .next
        { s with sync := s.sync.accept s.settings.syncPolarity.closedLevel, power := s.powerAtEdge
                 capture := { s.capture with exposure := some { x with ownEdge := some c.since } } }) ∧
    ((s.timer .attribution).running = true →
      (s.capture.exposure = none ∨ ∃ x, s.capture.exposure = some x ∧ (x.shot ≠ s.capture.current ∨ x.ownEdge ≠ none)) →
      exec .syncClosingEdge s = .next
        { s with sync := s.sync.accept s.settings.syncPolarity.closedLevel, power := s.powerAtEdge }) ∧
    ((s.timer .attribution).running = false → s.capture.state = .disarmed ∨ s.capture.state = .halted →
      exec .syncClosingEdge s = .next
        { s with sync := s.sync.accept s.settings.syncPolarity.closedLevel, power := s.powerAtEdge })

/-- A closing edge at an Armed station outside the attribution window triggers the next shot: the shot takes the slot after TOP
and a roster entry, integration starts, the attribution, quiet and exposure limit timers start, the quiet set is every member, and
Open goes out. A card station decides its placement in the same event: `ReservationFollowsTheTable` gives its card, notices and
Place; at every other station card and notices are as they were. -/
def Obligations.ClosingEdgeTriggersAShot : Prop :=
  ∀ (c : Candidate) (s : State), s.maturing s.settings.syncPolarity.closedLevel c →
    (s.timer .attribution).running = false → s.calm → s.capture.state = .armed → s.noOutcomeDue →
    s.ring.next ≠ lastShot → 0 < s.settings.exposureLimit → 0 < s.capture.shutter →
    s.ring.slots.getD ((s.ring.top + 1) % 8) none = none →
    ∃ t, exec .syncClosingEdge s = .next t ∧
      t = { s with
        sync := s.sync.accept s.settings.syncPolarity.closedLevel
        capture := s.captureAdmitting s.ring.next (some c.since) c.since
        ring := { s.ring with
          next := s.ring.next + 1#32
          top := (s.ring.top + 1) % 8
          slots := s.ring.slots.set ((s.ring.top + 1) % 8) (some (slotAdmitted s.ring.next c.since))
          roster := s.ring.roster ++ [s.entryAdmitted s.ring.next] }
        clock := { s.clock with timers := s.timersAtAdmission }
        link := t.link, card := t.card, notices := t.notices } ∧
      (¬s.placesAtAdmission → t.card = s.card ∧ t.notices = s.notices ∧
        t.link = s.member.place { dst := 15#4, msg := .openShot s.ring.next c.since } s.linkAtTrigger)

/-- An Open of the next shot number or above, at an Armed station that does not know the shot, triggers it: the shot takes the
slot after TOP and a roster entry, integration starts at the link time, the Open's time is the agreed open, and the station is the
opener where the Open is its own. A card station decides its placement in the same event (`ReservationFollowsTheTable`); at every
other station card and notices are as they were. -/
def Obligations.OpenTriggersItsShot : Prop :=
  ∀ (source : Node) (n : Shot) (time : Time) (s : State), s.inForce →
    s.ring.next ≤ n → n ≠ lastShot → s.calm → s.capture.state = .armed → s.noOutcomeDue → s.ringOk →
    0 < s.settings.exposureLimit → 0 < s.capture.shutter →
    s.ring.slots.getD ((s.ring.top + 1) % 8) none = none →
    ∃ t, exec (.openTaken source n time) s = .next t ∧
      t = { s with
        capture := s.captureAdmitting n none s.clock.linkTime
        ring := { s.ring with
          next := n + 1#32
          top := (s.ring.top + 1) % 8
          slots := s.ring.slots.set ((s.ring.top + 1) % 8) (some (slotAdmitted n s.clock.linkTime))
          roster := s.ring.roster ++
            [{ s.entryAdmitted n with agreedOpen := some time, openTaken := true, opener := source == s.self }] }
        clock := { s.clock with timers := s.timersAtAdmission }
        link := t.link, card := t.card, notices := t.notices } ∧
      (¬s.placesAtAdmission → t.card = s.card ∧ t.notices = s.notices ∧ t.link = s.linkAtTrigger)

/-- The reasons of a refused trigger, in their order, with their policies: FFFFFFFFh is Exhausted, a Disarmed or Halted station
answers NotArmed, one Exposing or Reading SensorBusy, and an Armed one RingFull or Blocked by the ring. The trigger still counts
the shot, restarts the two timers and fills the quiet set, and takes no slot. This holds of a trigger by an Open, and of one by an
own closing edge, which triggers in Armed and in Reading (R56; in the dark states: `TriggerAbandonsADarkCapture`). -/
def Obligations.RefusedTriggersTakeNoSlot : Prop :=
  (∀ (source : Node) (n : Shot) (time : Time) (reason : RefuseReason) (policy : Policy) (s : State), s.inForce → s.calm →
    s.ring.next ≤ n → (n = lastShot → s.capture.current ≠ lastShot) → s.noOutcomeDue → s.entry? n = none →
    s.slot? n = none → s.capture.state ≠ .darkExposing → s.capture.state ≠ .darkReading →
    s.refuses s.capture.state n reason policy →
    exec (.openTaken source n time) s = .next (s.refusedAt n reason policy)) ∧
  (∀ (c : Candidate) (reason : RefuseReason) (policy : Policy) (s : State),
    s.maturing s.settings.syncPolarity.closedLevel c → s.calm → (s.timer .attribution).running = false →
    s.capture.state = .armed ∨ s.capture.state = .reading → s.noOutcomeDue → s.refuses s.capture.state s.ring.next reason policy →
    exec .syncClosingEdge s = .next
      { s.refusedAt s.ring.next reason policy with sync := s.sync.accept s.settings.syncPolarity.closedLevel })

/-- A trigger during a dark capture, by an Open or by an own closing edge, first abandons it: no dark capture is in hand, its
timer is stopped during the integration, a shot that awaited it has no dark frame, and its ReadDone of kind Dark goes out; a
pending flag that takes effect is cleared. The trigger then goes on from the state that the settling leaves: Disarmed, Halted, the
last number, or the ring refuse it, and no exposure begins; else the shot is admitted as at an Armed station, with its slot,
roster entry, exposure in hand and timers, and the reservation of a card station (R59, R104, R145).
MODEL'S INFERENCE (log 18): both pending flags are clear after the settling, also where both were set; MODEL'S CHOICE (log 44):
that ReadDone has its dark-follows flag clear; MODEL'S CHOICE (log 58): the dark slot area is as it was. -/
def Obligations.TriggerAbandonsADarkCapture : Prop :=
  (∀ (source : Node) (n : Shot) (time : Time) (k : DarkCapture) (s : State), s.inForce → s.calm →
    s.ring.next ≤ n → (n = lastShot → s.capture.current ≠ lastShot) →
    (s.capture.state = .darkExposing ∨ s.capture.state = .darkReading) → s.dark.capture = some k →
    ∃ t, exec (.openTaken source n time) s = .next t ∧ s.abandonedAt n k t ∧ t.sync = s.sync ∧
      (n ≠ lastShot → s.capture.settledState = .armed → s.ring.slots.getD ((s.ring.top + 1) % 8) none = none →
        s.ringOk → 0 < s.settings.exposureLimit → 0 < s.capture.shutter →
        s.admittedAfter n k none s.clock.linkTime
          { s.entryAdmitted n with agreedOpen := some time, openTaken := true, opener := source == s.self } t)) ∧
  (∀ (c : Candidate) (k : DarkCapture) (s : State), s.maturing s.settings.syncPolarity.closedLevel c → s.calm →
    (s.timer .attribution).running = false → (s.capture.state = .darkExposing ∨ s.capture.state = .darkReading) →
    s.dark.capture = some k →
    ∃ t, exec .syncClosingEdge s = .next t ∧ s.abandonedAt s.ring.next k t ∧
      t.sync = s.sync.accept s.settings.syncPolarity.closedLevel ∧
      (s.ring.next ≠ lastShot → s.capture.settledState = .armed → s.ring.slots.getD ((s.ring.top + 1) % 8) none = none →
        s.ringOk → 0 < s.settings.exposureLimit → 0 < s.capture.shutter →
        s.admittedAfter s.ring.next k (some c.since) c.since (s.entryAdmitted s.ring.next) t))

/-- An opening edge in Follow mode, a first Close, the pulse timer and the exposure limit end the integration of the shot in hand
with the own end time of their rule; the exposure limit timer and the pulse timer are stopped if still running. An agreed open
that is then absent is the own start time (R65); a first Close gives the agreed close, and with the agreed open the agreed
duration (R62), in Pulse mode the shutter time gives it (R63). At its end the opener of the shot, and no other station, raises
ShotOpened with the agreed open, the own end time, the limit flag and the bounce count (R61). In Doze the edge is taken too
(R185). A first Open of a shot whose integration has ended settles its opener, and gives an absent agreed open, with the agreed
duration where the agreed close is present (R60, R62).
MODEL'S INFERENCE (log 17): an opener so settled raises ShotOpened at that Open. MODEL'S INFERENCE (log 39): in Doze an opening
edge ends the integration as in Active. -/
def Obligations.IntegrationEndsByItsRule : Prop :=
  (∀ (x : Exposure) (r : Slot) (e : Entry) (s : State), s.inForce → s.ringOk →
    s.capture.state = .exposing → s.capture.exposure = some x → s.slot? x.shot = some r → s.entry? x.shot = some e →
    (∀ (c : Candidate), s.calm → s.maturingAwake s.settings.syncPolarity.openLevel c → s.settings.syncMode = .follow →
      ∃ t, exec .syncOpeningEdge s = .next t ∧ t.capture = { s.capture with state := .reading } ∧
        t.sync = { accepted := some s.settings.syncPolarity.openLevel, candidate := none, bounces := 0 } ∧
        (∃ q, t.slot? x.shot = some q ∧ q.tag = .reading ∧ q.ownStart = x.ownStart ∧ q.ownEnd = some c.since ∧
          q.limit = x.limit ∧ q.bounces = some s.sync.bounces) ∧
        t.entry? x.shot = some (e.openSupplied x.ownStart) ∧ sameOtherEntries x.shot s t ∧
        t.clock = s.clock.endingIntegration ∧
        t.link = (if e.agreedClose = none then s.linkAfter 15#4 (.closeShot x.shot c.since false) else s.link) ∧
        t.notices = s.noticesEnding x e c.since x.limit ∧
        t.dark = s.dark ∧ t.card = s.card ∧ t.member = s.member ∧ t.power = s.powerAtEdge) ∧
    (∀ (source : Node) (time : Time) (limit : Bool), s.calm → s.settings.syncMode = .follow → e.agreedClose = none →
      ∃ t, exec (.closeTaken source x.shot time limit) s = .next t ∧
        t.capture = { s.capture with state := .reading, exposure := some { x with limit := x.limit || limit } } ∧
        t.sync = { s.sync with bounces := 0 } ∧
        (∃ q, t.slot? x.shot = some q ∧ q.tag = .reading ∧ q.ownStart = x.ownStart ∧ q.ownEnd = some s.clock.linkTime ∧
          q.limit = (x.limit || limit) ∧ q.bounces = some s.sync.bounces) ∧
        t.entry? x.shot = some { e with
          agreedOpen := some (e.agreedOpen.getD x.ownStart), agreedClose := some time
          agreedDuration := some ((time.toNat : Int) - (e.agreedOpen.getD x.ownStart).toNat) } ∧
        sameOtherEntries x.shot s t ∧ t.clock = s.clock.endingIntegration ∧
        t.notices = s.noticesEnding x e s.clock.linkTime (x.limit || limit) ∧
        t.link = s.link ∧ t.dark = s.dark ∧ t.card = s.card ∧ t.member = s.member ∧ t.power = s.power) ∧
    (s.expires .pulse → s.settings.syncMode = .pulse → e.agreedClose = none →
      ∃ t, exec .pulseTimerExpiry s = .next t ∧ t.capture = { s.capture with state := .reading } ∧
        t.sync = { s.sync with bounces := 0 } ∧
        (∃ q, t.slot? x.shot = some q ∧ q.tag = .reading ∧ q.ownStart = x.ownStart ∧ q.ownEnd = some s.clock.linkTime ∧
          q.limit = x.limit ∧ q.bounces = some s.sync.bounces) ∧
        t.entry? x.shot = some { e.openSupplied x.ownStart with agreedDuration := some (x.shutter : Int) } ∧
        sameOtherEntries x.shot s t ∧ t.clock = (s.clockAfter .pulse).endingIntegration ∧
        t.notices = s.noticesEnding x e s.clock.linkTime x.limit ∧
        t.link = s.link ∧ t.dark = s.dark ∧ t.card = s.card ∧ t.member = s.member ∧ t.power = s.power) ∧
    (s.expires .exposureLimit →
      ∃ t, exec .exposureLimitExpiry s = .next t ∧
        t.capture = { s.capture with state := .reading, exposure := some { x with limit := true } } ∧
        t.sync = { s.sync with bounces := 0 } ∧
        (∃ q, t.slot? x.shot = some q ∧ q.tag = .reading ∧ q.ownStart = x.ownStart ∧ q.ownEnd = some s.clock.linkTime ∧
          q.limit = true ∧ q.bounces = some s.sync.bounces) ∧
        (s.settings.syncMode = .follow → t.entry? x.shot = some (e.openSupplied x.ownStart)) ∧
        (s.settings.syncMode = .pulse → e.agreedClose = none →
          t.entry? x.shot = some { e.openSupplied x.ownStart with agreedDuration := some (x.shutter : Int) }) ∧
        sameOtherEntries x.shot s t ∧ t.clock = (s.clockAfter .exposureLimit).endingIntegration ∧
        t.link = (if s.settings.syncMode = .follow ∧ e.agreedClose = none then
          s.linkAfter 15#4 (.closeShot x.shot s.clock.linkTime true) else s.link) ∧
        t.notices = s.noticesEnding x e s.clock.linkTime true ∧
        t.dark = s.dark ∧ t.card = s.card ∧ t.member = s.member ∧ t.power = s.power)) ∧
  (∀ (source : Node) (n : Shot) (time E : Time) (e : Entry) (r : Slot) (s : State), s.inForce → s.calm → s.ringOk →
    n < s.ring.next → s.entry? n = some e → s.slot? n = some r → r.ownEnd = some E → e.openTaken = false →
    ∃ t, exec (.openTaken source n time) s = .next t ∧ t.entry? n = some (e.openedBy (source == s.self) time) ∧
      t.notices = (if source = s.self then s.notices.raise
        (.shotOpened n (e.agreedOpen.getD time) E r.limit (BitVec.ofNat 8 (r.bounces.getD 0))) else s.notices) ∧
      t = { s with ring := t.ring, notices := t.notices, develop := t.develop } ∧ sameOtherEntries n s t)

/-- A Close of a shot the station does not expose: in Follow mode a first one gives the agreed close, the agreed duration where
the agreed open is present, and the limit flag of the slot record; a later one, one for a shot not in the roster, and any in
Pulse mode change nothing. -/
def Obligations.CloseGivesTheAgreedClose : Prop :=
  ∀ (source : Node) (n : Shot) (time : Time) (limit : Bool) (s : State), s.inForce → s.calm →
    (s.capture.state ≠ .exposing ∨ ∀ x, s.capture.exposure = some x → x.shot ≠ n) →
    (s.settings.syncMode = .pulse ∨ s.entry? n = none → exec (.closeTaken source n time limit) s = .next s) ∧
    (∀ e, s.entry? n = some e → s.settings.syncMode = .follow →
      ∃ t, exec (.closeTaken source n time limit) s = .next t ∧ t = { s with ring := t.ring } ∧
        t.ring = { s.ring with slots := t.ring.slots, roster := t.ring.roster } ∧
        sameOtherSlots n s t ∧ sameOtherEntries n s t ∧
        t.slot? n = (s.slot? n).map (fun x => { x with limit := x.limit || (limit && e.agreedClose.isNone) }) ∧
        t.entry? n = some (match e.agreedClose, e.agreedOpen with
          | some _, _ => e
          | none, none => { e with agreedClose := some time }
          | none, some o => { e with agreedClose := some time
                                     agreedDuration := some ((time.toNat : Int) - o.toNat) }))

/-- A Refuse of a shot below the next shot number drops it: integration or readout of it is abandoned with its slot and entry, the
quiet set is emptied where it is the current shot, the station's own Refuse raises ShotDropped, and with policy Halt an Armed or
Disarmed station halts, one at work sets halt-pending, and one whose exposure was dropped is Halted. A Refuse of the shot that a
dark capture serves leaves its slot, and the dark capture runs on (R92, R105). A Refuse at or above the next shot number is first
a trigger that takes no slot (R57, R58); during a dark capture that trigger abandons it, with its ReadDone, and the drop meets the
settled state (R58 step 1, R104). The sleep test (R183) follows.
MODEL'S INFERENCE (log 18): a settling leaves both pending flags clear; (log 56): halt-pending is set in the dark capture of the
refused shot itself too; MODEL'S CHOICE (log 43): a station in Configuring is Halted too; (log 44): the ReadDone of an abandoned
dark capture has its dark-follows flag clear; (log 58): the dark slot area is then as it was. -/
def Obligations.RefuseDropsItsShot : Prop :=
  ∀ (source : Node) (n : Shot) (reason : RefuseReason) (policy : Policy) (s : State), s.inForce → s.calm →
    (n < s.ring.next ∨ (n = lastShot ∧ s.capture.current = lastShot) →
     (∀ x, s.capture.exposure = some x → x.shot = n →
      (s.capture.state = .exposing ∨ s.capture.state = .reading) → s.ringOk →
      (∃ y, s.slot? n = some y ∧ (y.tag = .exposing ∨ y.tag = .reading)) →
      ∃ t : State, exec (.refuseTaken source n reason policy) s = .next t.sleepTest ∧
        (policy = .drop → t.capture = { s.capture with
          state := s.capture.settledState, haltPending := false, disarmPending := false, exposure := none
          quiet := if n = s.capture.current then [] else s.capture.quiet }) ∧
        (policy = .halt → t.clock.alarm = none ∧ t.capture = { s.capture with
          state := .halted, haltPending := false, disarmPending := false, exposure := none, pendingRelease := none
          quiet := if n = s.capture.current then [] else s.capture.quiet }) ∧
        t.slot? n = none ∧ t.entry? n = none ∧ t.ring.top = s.ring.top ∧ t.ring.next = s.ring.next ∧
        t.sync = s.sync ∧ t.dark = s.dark ∧ t.power = s.power ∧ t.member = s.member) ∧
     ((∀ x, s.capture.exposure = some x → x.shot = n → s.capture.state ≠ .exposing ∧ s.capture.state ≠ .reading) →
      (∀ y, s.slot? n = some y → y.tag ≠ .exposing ∧ y.tag ≠ .reading) →
      (policy = .drop → exec (.refuseTaken source n reason policy) s = .next (State.sleepTest
        { s with
          capture := { s.capture with quiet := if n = s.capture.current then [] else s.capture.quiet }
          clock := if n = s.capture.current then { s.clock with timers := { s.clock.timers with
            quiet := { s.clock.timers.quiet with request := .stop } } } else s.clock
          notices := if source = s.self then s.notices.raise (.shotDropped n reason .drop) else s.notices })) ∧
      (policy = .halt → ∃ t : State, exec (.refuseTaken source n reason policy) s = .next t.sleepTest ∧
        t = { s with capture := t.capture, clock := t.clock, notices := t.notices } ∧
        t.capture = { s.capture with
          quiet := if n = s.capture.current then [] else s.capture.quiet
          pendingRelease := none
          state := if s.capture.state = .armed ∨ s.capture.state = .disarmed then .halted else s.capture.state
          disarmPending := if s.capture.state = .armed ∨ s.capture.state = .disarmed then false
            else s.capture.disarmPending
          haltPending := if s.capture.state.working then true else s.capture.haltPending } ∧
        t.clock.alarm = none ∧ t.clock.linkTime = s.clock.linkTime ∧
        t.notices = (if source = s.self then
          (s.notices.raise (.shotDropped n reason .halt)).raise (.halted n reason) else s.notices)))) ∧
    (s.ring.next ≤ n → (n = lastShot → s.capture.current ≠ lastShot) → s.noOutcomeDue →
      s.capture.state ≠ .darkExposing → s.capture.state ≠ .darkReading →
      exec (.refuseTaken source n reason policy) s = exec (.refuseTaken source n reason policy)
        { s with
          capture := { s.capture with current := n, quiet := s.memberNumbers, windowEnded := false }
          ring := { s.ring with next := if n = lastShot then lastShot else n + 1#32 }
          clock := { s.clock with timers := s.timersAtTrigger }
          link := s.linkAtTrigger }) ∧
    (∀ k, s.ring.next ≤ n → (n = lastShot → s.capture.current ≠ lastShot) → s.ringOk →
      (s.capture.state = .darkExposing ∨ s.capture.state = .darkReading) → s.dark.capture = some k →
      ∃ t : State, exec (.refuseTaken source n reason policy) s = .next t.sleepTest ∧
        t = { s with
          dark := { s.dark with capture := none }
          develop := t.develop
          ring := { s.ring with next := if n = lastShot then lastShot else n + 1#32, slots := t.ring.slots }
          capture := { s.capture with
            current := n, quiet := [], windowEnded := false, exposure := none, haltPending := false, disarmPending := false
            state := if policy = .halt then .halted else s.capture.settledState
            pendingRelease := if policy = .halt then none else s.capture.pendingRelease }
          clock := { s.clock with
            alarm := if policy = .halt then none else s.clock.alarm
            timers := { k.timersAbandoning s.timersAtTrigger with quiet := { s.clock.timers.quiet with request := .stop } } }
          link := s.linkAbandoning k.shot
          notices := if source = s.self then
            (if policy = .halt then (s.notices.raise (.shotDropped n reason policy)).raise (.halted n reason)
              else s.notices.raise (.shotDropped n reason policy)) else s.notices } ∧
        (∀ x, k.shot ≠ 0#32 → s.slot? k.shot = some x → x.dark = some .awaiting →
          ∃ y, t.slot? k.shot = some y ∧ y.dark = some .none))

/-- A ReadDone of the current shot that no dark readout follows removes its source from the quiet set; the removal that empties
the set stops the quiet timer; any other ReadDone changes nothing.
The quiet timer's expiry empties the quiet set and raises QuietTimeout with the members that were still in it, and without an
expiry on its way nothing happens. An expiry whose edge lies before a ReadDone, a Refuse or a trigger is delivered, before it
(R44). MODEL'S CHOICE (log 6): such an expiry is a due mark that the event finds. -/
def Obligations.QuietSetIsEmptied : Prop :=
  (∀ (source : Node) (n : Shot) (kind : ReadKind) (follows : Bool) (s : State), s.inForce → s.calm →
     (n ≠ s.capture.current ∨ (kind = .regular ∧ follows = true) ∨ source ∉ s.capture.quiet →
       exec (.readDoneTaken source n kind follows) s = .next s) ∧
     (n = s.capture.current → (kind = .dark ∨ follows = false) → source ∈ s.capture.quiet → source ∈ s.memberNumbers →
       exec (.readDoneTaken source n kind follows) s = .next
         { s with
           capture := { s.capture with quiet := s.capture.quiet.filter (· ≠ source) }
           clock := if s.capture.quiet.filter (· ≠ source) = [] then { s.clock with timers := { s.clock.timers with
             quiet := { s.clock.timers.quiet with request := .stop } } } else s.clock })) ∧
  (∀ s : State,
     ((s.timer .quiet).due = false → exec .quietTimerExpiry s = .next s) ∧
     ((s.timer .quiet).due = true → exec .quietTimerExpiry s = .next
       { s with
         clock := s.clockAfter .quiet
         capture := { s.capture with quiet := [] }
         notices := s.notices.raise (.quietTimeout s.capture.current s.capture.quiet) })) ∧
  (∀ s u : State, s.expiresAlone .quiet → exec .quietTimerExpiry s = .next u →
     (∀ (source : Node) (n : Shot) (kind : ReadKind) (follows : Bool), s.inForce →
       exec (.readDoneTaken source n kind follows) s = exec (.readDoneTaken source n kind follows) u) ∧
     (∀ (source : Node) (n : Shot) (reason : RefuseReason) (policy : Policy), s.inForce →
       exec (.refuseTaken source n reason policy) s = exec (.refuseTaken source n reason policy) u) ∧
     (∀ (source : Node) (n : Shot) (time : Time), s.inForce → s.ring.next ≤ n → (n = lastShot → s.capture.current ≠ lastShot) →
       exec (.openTaken source n time) s = exec (.openTaken source n time) u) ∧
     (∀ c : Candidate, s.maturing s.settings.syncPolarity.closedLevel c → (s.timer .attribution).running = false →
       s.capture.state ≠ .exposing → s.capture.state ≠ .disarmed → s.capture.state ≠ .halted →
       exec .syncClosingEdge s = exec .syncClosingEdge u))

/-- At the end of its attribution window, with the agreed open present, a shot's sync outcome, skew and Skewed flag are recorded
by the table of R60; a shot that has lost its slot or has no agreed open is left. The develop test of R112 follows, which may
start the job of a Raw tile. A later trigger, by an Open, a Refuse or an own closing edge, takes the place of the window's end; in
DarkExposing and DarkReading the outcome it records is Unobserved, since the exposure in hand is cleared first (R58, R104). Where
the agreed open is absent at the end of the window, the outcome is recorded at the first Open of the shot; an Open taken inside
the window records none, and one taken while the agreed open is present changes no slot record. An Open that gives the agreed open
gives the agreed duration too, where the agreed close is present (R62).
MODEL'S INFERENCE (log 29): the outcome is Unobserved where the exposure in hand is absent or of another shot; (log 55): the
window's end is the expiry or a later trigger, not the stopping of the timer. -/
def Obligations.SyncOutcomeIsRecordedOnce : Prop :=
  (∀ (x : Slot) (a : Time) (s : State), s.calm → s.ringOk → s.slot? s.capture.current = some x → x.outcome = none →
    (s.entry? s.capture.current).bind (·.agreedOpen) = some a →
    (∀ source n time, s.inForce → s.ring.next ≤ n → (n = lastShot → s.capture.current ≠ lastShot) →
      ∃ t y, exec (.openTaken source n time) s = .next t ∧ t.slot? s.capture.current = some y ∧ s.recordedAtTrigger x y a) ∧
    (∀ source n reason policy, s.inForce → s.ring.next ≤ n → (n = lastShot → s.capture.current ≠ lastShot) →
      ∃ (t : State) (y : Slot), exec (.refuseTaken source n reason policy) s = .next t.sleepTest ∧
        t.slot? s.capture.current = some y ∧ s.recordedAtTrigger x y a) ∧
    (∀ c, s.maturing s.settings.syncPolarity.closedLevel c → (s.timer .attribution).running = false →
      s.capture.state = .armed ∨ s.capture.state = .reading ∨ s.capture.state = .darkExposing ∨
        s.capture.state = .darkReading →
      ∃ t y, exec .syncClosingEdge s = .next t ∧ t.slot? s.capture.current = some y ∧ s.recordedAtTrigger x y a)) ∧
  (∀ (source : Node) (n : Shot) (time : Time) (x : Slot) (e : Entry) (s : State), s.inForce → s.calm → s.ringOk →
    n < s.ring.next → s.slot? n = some x → s.entry? n = some e →
    (e.agreedOpen = none → x.outcome = none → n ≠ s.capture.current ∨ s.capture.windowEnded = true →
      ∃ t y, exec (.openTaken source n time) s = .next t ∧ t.slot? n = some y ∧ s.recordedAs (s.edgeFor n) x y time ∧
        y.dark = x.dark ∧ t.entry? n = some (e.openedBy (source == s.self) time)) ∧
    (e.agreedOpen = none → x.outcome = none → n = s.capture.current → s.capture.windowEnded = false →
      ∃ t, exec (.openTaken source n time) s = .next t ∧ t.slot? n = some x ∧
        t.entry? n = some (e.openedBy (source == s.self) time)) ∧
    (e.agreedOpen ≠ none →
      ∃ t, exec (.openTaken source n time) s = .next t ∧ t.slot? n = some x ∧ t.develop = s.develop ∧
        t.entry? n = some (e.openedBy (source == s.self) time) ∧ (e.openTaken = true → t = s))) ∧
  ∀ s : State, s.expires .attribution →
    (s.slot? s.capture.current = none ∨ (s.entry? s.capture.current).bind (·.agreedOpen) = none →
      exec .attributionExpiry s = .next
        { s with clock := s.clockAfter .attribution, capture := { s.capture with windowEnded := true } }) ∧
    (∀ x e a, s.slot? s.capture.current = some x → s.entry? s.capture.current = some e → e.agreedOpen = some a →
      (x.outcome ≠ none → exec .attributionExpiry s = .next
        { s with clock := s.clockAfter .attribution, capture := { s.capture with windowEnded := true } }) ∧
      (x.outcome = none → s.ringOk →
        ∃ t y, exec .attributionExpiry s = .next t ∧ t.slot? s.capture.current = some y ∧
          s.recordedAs (s.edgeFor s.capture.current) x y a ∧ y.dark = x.dark ∧
          t = { s with clock := s.clockAfter .attribution, capture := { s.capture with windowEnded := true }
                       ring := t.ring, develop := t.develop } ∧
          t.ring.roster = s.ring.roster ∧ t.ring.next = s.ring.next ∧
          t.ring.top = s.ring.top))

/-- The sensor tile port by the capture state (R53): idle, flushed, integrating into or read out into the slot of the shot in
hand, or the same with the dark slot. A readout completes: the samples are in the slot, the tile is Raw (or its job has
started), its dark status is decided by R97 and R98, and ReadDone goes out. An Awaiting shot begins a dark capture; else the
exposure in hand ends and the station is Armed, or as a pending flag directs. In Follow mode an absent agreed close is first
supplied from the own end time (R65); a shot with a Committed part and none Reserved is freed (R88). The sleep test follows.
MODEL'S INFERENCE (log 18): a settling leaves both pending flags clear; (log 27): a shot freed at its retagging to Raw has no dark
status decided and no dark capture, and its ReadDone has dark-follows clear; MODEL'S CHOICE (log 14): samples of any length are
kept as given; log 8: no effect where the port is asked for no such readout. -/
def Obligations.ReadoutCompletes : Prop :=
  (∀ s : State,
     (s.capture.state = .disarmed ∨ s.capture.state = .halted → s.port = .idle) ∧ (s.capture.state = .armed → s.port = .flush) ∧
     (∀ x e, s.ringOk → s.capture.exposure = some x → s.entry? x.shot = some e →
       (s.capture.state = .exposing → s.port = .integrate (.area e.slot)) ∧
       (s.capture.state = .reading → s.port = .readOut (.area e.slot))) ∧
     (s.capture.state = .darkExposing → s.port = .integrate .darkSlot) ∧
     (∀ k, s.capture.state = .darkReading → s.dark.capture = some k → k.phase = .reading → s.port = .readOut .darkSlot) ∧
     (∀ samples, s.calm → (∀ i, s.port ≠ .readOut (.area i)) → exec (.readoutComplete samples) s = .next s) ∧
     (∀ samples, s.calm → s.port ≠ .readOut .darkSlot → exec (.darkReadoutComplete samples) s = .next s)) ∧
  (∀ (samples : List Sample) (x : Exposure) (r : Slot) (e : Entry) (s : State), s.calm → s.ringOk →
    s.capture.state = .reading → s.capture.exposure = some x → s.slot? x.shot = some r → s.entry? x.shot = some e →
    (∀ E, s.settings.syncMode = .follow → e.agreedClose = none → r.ownEnd = some E →
      exec (.readoutComplete samples) s = exec (.readoutComplete samples) (s.updEntry x.shot fun _ =>
        { e with agreedClose := some E
                 agreedDuration := match e.agreedOpen with
                   | some o => some ((E.toNat : Int) - o.toNat)
                   | none => e.agreedDuration })) ∧
    ((s.settings.syncMode = .follow → e.agreedClose ≠ none) → (∀ p ∈ e.parts, p.placement ≠ .reserved) →
      (∃ p ∈ e.parts, p.placement = .committed) →
      ∃ (t : State) (l : Link), exec (.readoutComplete samples) s = .next t.sleepTest ∧ t.slot? x.shot = none ∧ t.entry? x.shot = none ∧
        t.capture = { s.capture with
          state := s.capture.settledState, haltPending := false, disarmPending := false, exposure := none } ∧
        t.link = s.member.place { dst := 15#4, msg := .readDone x.shot .regular false } l ∧
        t.ring.top = s.ring.top ∧ t.ring.next = s.ring.next ∧ t.member = s.member ∧ t.sync = s.sync ∧ t.dark = s.dark ∧
        t.power = s.power)) ∧
  ∀ (samples : List Sample) (x : Exposure) (r : Slot) (e : Entry) (d : Int) (s : State), s.calm → s.ringOk →
    s.capture.state = .reading → s.capture.exposure = some x → s.slot? x.shot = some r → s.entry? x.shot = some e →
    e.agreedDuration = some d → (s.settings.syncMode = .follow → e.agreedClose ≠ none) →
    (∀ p ∈ e.parts, p.placement ≠ .committed) ∨ (∃ p ∈ e.parts, p.placement = .reserved) → r.tag = .reading →
    ((needsDark s.settings d = false ∨ s.darkFits d = true) →
      ∃ (t : State) (q : Slot), exec (.readoutComplete samples) s = .next t.sleepTest ∧ t.slot? x.shot = some q ∧
        q = { r with tag := q.tag, dark := some (if needsDark s.settings d then .used else .notNeeded) } ∧
        (q.tag = .raw ∨ q.tag = .developing) ∧
        (t.area (s.slotIndex x.shot)).raw = (if s.slotIndex x.shot < s.ring.areas.length then samples else []) ∧
        t.capture = { s.capture with
          state := s.capture.settledState, haltPending := false, disarmPending := false, exposure := none } ∧
        t.link = s.linkAfter 15#4 (.readDone x.shot .regular false) ∧
        t = { s with capture := t.capture, ring := t.ring, link := t.link, develop := t.develop } ∧
        t.ring.roster = s.ring.roster) ∧
    (needsDark s.settings d = true → s.darkFits d = false → 0 < d →
      ∃ (t : State) (q : Slot), exec (.readoutComplete samples) s = .next t.sleepTest ∧ t.slot? x.shot = some q ∧
        q = { r with tag := .raw, dark := some .awaiting } ∧
        t.capture = { s.capture with state := .darkExposing } ∧
        t.dark = { s.dark with
          valid := false
          capture := some { phase := .exposing, shot := x.shot, duration := min d.toNat 3600000000, captureEnd := none,
                            scanned := 0 } } ∧
        (t.timer .dark).request = .load ((min d.toNat 3600000000 + 9) / 10) ∧
        t.link = s.linkAfter 15#4 (.readDone x.shot .regular true) ∧
        t = { s with capture := t.capture, ring := t.ring, link := t.link, develop := t.develop, dark := t.dark,
                     clock := t.clock } ∧
        t.ring.roster = s.ring.roster)

/-! ## Dark frames and the Defect Table (chapter 6) -/

/-- A shot needs a dark frame when DarkThreshold is not Off and its agreed duration, taken as 0 when negative, is at least
DarkThreshold in microseconds.
The dark slot fits a shot when it is valid, the length test is exact, and it is younger than DarkAgeLimit; a dark of
2,000,000 us fits 1,777,778 to 2,285,714 us and no further. -/
def Obligations.DarkFramesAreNeededAndFit : Prop :=
  (∀ (st : Settings) (duration : Int),
     (st.darkThreshold = none → needsDark st duration = false) ∧
     (∀ ms, st.darkThreshold = some ms →
       (needsDark st duration = true ↔ ((ms : Int) * 1000 ≤ (if duration < 0 then 0 else duration))))) ∧
  ((∀ (length : Nat) (duration : Int) (made : Time) (s : State), s.dark.duration = some length → s.dark.captureEnd = some made →
     made ≤ s.clock.linkTime ∨ 0 < s.settings.darkAgeLimit →
     (s.darkFits duration = true ↔
       s.dark.valid = true ∧ |(length : Int) - duration| * 8 ≤ duration ∧
         (s.clock.linkTime.toNat : Int) - made.toNat < s.settings.darkAgeLimit * 1000000)) ∧
   (∀ (duration : Int) (s : State), s.dark.valid = false → s.darkFits duration = false) ∧
   (∀ duration : Nat, lengthFits 2000000 duration = true ↔ 1777778 ≤ duration ∧ duration ≤ 2285714))

/-- The dark timer's expiry ends the dark integration: DarkReading, phase Reading, capture end at the link time; in any other
capture state it has no effect. The readout into the dark slot stores its samples and begins the scan.
The scan's next pixel above HotThreshold is asked for as a Hot insertion: a position present stays as it is, a full table
counts, and else the entry is added in its place.
MODEL'S CHOICE (log 32): one HOT_INSERTION goes on from the pixel it asks for to the next hot pixel of the scan; (log 14): a dark
readout's samples are kept as given, at any length. -/
def Obligations.DarkCaptureRunsToItsScan : Prop :=
  (∀ (samples : List Sample) (s : State),
     (s.expires .dark → s.capture.state = .darkExposing →
       exec .darkTimerExpiry s = .next
         { s with
           clock := s.clockAfter .dark
           capture := { s.capture with state := .darkReading }
           dark := { s.dark with capture := s.dark.capture.map fun k =>
             { k with phase := .reading, captureEnd := some s.clock.linkTime } } }) ∧
     (s.expires .dark → s.capture.state ≠ .darkExposing →
       exec .darkTimerExpiry s = .next { s with clock := s.clockAfter .dark }) ∧
     (∀ k, s.calm → s.capture.state = .darkReading → s.dark.capture = some k → k.phase = .reading →
       exec (.darkReadoutComplete samples) s = .next
         { s with dark := { s.dark with
             samples := samples
             capture := some { k with phase := .scanning, scanned := 0 } } })) ∧
  (∀ (k : DarkCapture) (i : Nat) (v : Sample) (s : State), s.calm →
     s.dark.capture = some k → k.phase = .scanning → k.scanned ≤ i → i < pixelCount s.settings →
     s.dark.samples[i]? = some v → s.settings.hotThreshold < v.toNat →
     (∀ j, k.scanned ≤ j → j < i → ∀ w, s.dark.samples[j]? = some w → w.toNat ≤ s.settings.hotThreshold) →
     s.dark.defects.Pairwise (fun a b => a.before b = true) →
     ∃ t, exec .hotInsertion s = .next t ∧ t = { s with dark := t.dark } ∧
       t.dark = { s.dark with capture := some { k with scanned := i + 1 }, defects := t.dark.defects,
                              overflow := t.dark.overflow } ∧
       t.dark.defects.Pairwise (fun a b => a.before b = true) ∧
       (s.dark.holds (i / s.settings.tileColumns) (i % s.settings.tileColumns) = true →
         t.dark.defects = s.dark.defects ∧ t.dark.overflow = s.dark.overflow) ∧
       (s.dark.holds (i / s.settings.tileColumns) (i % s.settings.tileColumns) = false → 1024 ≤ s.dark.defects.length →
         t.dark.defects = s.dark.defects ∧ t.dark.overflow = satInc 65535 s.dark.overflow) ∧
       (s.dark.holds (i / s.settings.tileColumns) (i % s.settings.tileColumns) = false → s.dark.defects.length < 1024 →
         t.dark.overflow = s.dark.overflow ∧
         ∀ a, a ∈ t.dark.defects ↔ a ∈ s.dark.defects ∨
           a = { row := i / s.settings.tileColumns, column := i % s.settings.tileColumns, origin := .hot }))

/-- A scan with nothing left to visit completes the dark capture: the dark slot is valid with its duration and capture end, an
Awaiting shot is Used, ReadDone goes out, and the station is Armed, or as a pending flag directs.
MODEL'S INFERENCE (log 18): both pending flags are clear after the settling; MODEL'S CHOICE (log 44): the ReadDone of kind Dark
has its dark-follows flag clear. -/
def Obligations.DarkScanCompletesTheCapture : Prop :=
  ∀ (k : DarkCapture) (s : State), s.calm → s.ringOk → s.dark.capture = some k → k.phase = .scanning → s.hotAhead k = [] →
    ∃ t, exec .darkScanComplete s = .next t ∧
      t.dark = { s.dark with valid := true, duration := some k.duration, captureEnd := k.captureEnd, capture := none } ∧
      t.capture = { s.capture with
        state := s.capture.settledState, haltPending := false, disarmPending := false, exposure := none } ∧
      t.link = s.linkAfter 15#4 (.readDone k.shot .dark false) ∧
      (∀ x, s.slot? k.shot = some x → k.shot ≠ 0#32 → x.dark = some .awaiting →
        ∃ y, t.slot? k.shot = some y ∧ y = { x with dark := some .used, tag := y.tag }) ∧
      t = { s with dark := t.dark, capture := t.capture, link := t.link, ring := t.ring, develop := t.develop } ∧
      t.ring.roster = s.ring.roster

/-! ## Placements and the roster (chapters 5 and 8) -/

/-- The table of R83 for a part that takes a Place, at every station that takes it, and the unmirrored flag. The Transfer Unit
then makes its choice, as a part that becomes Reserved may let it (R153);
MODEL'S CHOICE (log 28): that choice comes before a reservation of the same event. Where the Place is a refusal from the card
station of socket A and socket B of this station takes the shot over, a reservation follows (R146; the reservation itself:
`ReservationFollowsTheTable`). Without an entry or a part for it a Place changes nothing but by that choice. -/
def Obligations.PlaceUpdatesItsPart : Prop :=
  (∀ (source : Node) (n : Shot) (k : Socket) (o : PlaceOutcome) (e : Entry) (p : Part) (s : State), s.takesFrames → s.calm →
    s.ringOk → s.entry? n = some e → e.part k = some p →
    ∃ (u t : State) (g : Entry) (q : Part),
      ((k = .a ∧ (∃ reason, o = .refused reason) ∧ s.overflowsTo source e →
          exec (.placeTaken source n k o) s = .next (t.tryReserve e)) ∧
        (¬(k = .a ∧ (∃ reason, o = .refused reason) ∧ s.overflowsTo source e) →
          exec (.placeTaken source n k o) s = .next t)) ∧
      u.tileChosen t ∧ u = { s with ring := { s.ring with roster := u.ring.roster } } ∧ sameOtherEntries n s u ∧
      u.entry? n = some g ∧ g.part k = some q ∧
      q = { p with placement :=
        if p.placement = .reserved ∨ p.placement = .committed then p.placement
        else match o with | .reserved .. => .reserved | .refused _ => .refused } ∧
      (∀ k', k' ≠ k → g.part k' = e.part k') ∧ g = { e with partA := g.partA, partB := g.partB, unmirrored := g.unmirrored } ∧
      (s.settings.storageMode ≠ .mirror ∨ q.placement = p.placement ∨ (∀ k', k' ≠ k → e.part k' = none) →
        g.unmirrored = e.unmirrored) ∧
      (∀ k' r, k' ≠ k → e.part k' = some r → s.settings.storageMode = .mirror → q.placement ≠ p.placement →
        ((q.placement = .refused ∧ (r.placement = .reserved ∨ r.placement = .committed) ∨
            q.placement = .reserved ∧ (r.placement = .refused ∨ r.placement = .void)) → g.unmirrored = true) ∧
        (q.placement = .reserved ∧ (r.placement = .reserved ∨ r.placement = .committed) → g.unmirrored = false) ∧
        ((q.placement = .refused ∧ (r.placement = .refused ∨ r.placement = .void)) ∨ r.placement = .pending →
          g.unmirrored = e.unmirrored))) ∧
  (∀ (source : Node) (n : Shot) (k : Socket) (o : PlaceOutcome) (s : State), s.takesFrames → s.calm → s.ringOk →
    (∀ e, s.entry? n = some e → e.part k = none) → ∃ t, s.tileChosen t ∧ exec (.placeTaken source n k o) s = .next t)

/-- A Commit makes a Reserved part Committed, and its socket Closed without grants; an Unplace makes a Reserved part Void and its
socket Idle without grants; a part in another state keeps it. At an Unplace in Mirror the unmirrored flag is set where the other
part is Reserved or Committed, and stands where it is not (R84, R86). Where the part that settles leaves none Reserved beside a
Committed one, and the slot is Raw or later, the shot is freed (R88). Where the socket was a target and no target is left, the
pass ends: at the current transfer tile the Segment in hand is cancelled, and a new pass begins for an open Idle socket, or the
tile is left and the lowest tile that waits is chosen (R154, R170). The sleep test (R183) follows either.
MODEL'S CHOICE (log 47): at a tile that is not current the cursor alone changes. -/
def Obligations.CommitAndUnplaceSettleTheirPart : Prop :=
  (∀ (source : Node) (n : Shot) (k : Socket) (frameNo fileSum : Word16) (e : Entry) (p : Part) (x : Slot) (s : State),
     s.takesFrames → s.calm → s.ringOk → s.entry? n = some e → e.part k = some p → s.slot? n = some x →
     (p.placement = .reserved → (∀ k' q, k' ≠ k → e.part k' = some q → q.placement ≠ .reserved) →
       (x.tag = .raw ∨ x.tag = .developing ∨ x.tag = .held ∨ x.tag = .developed) →
       ∃ t : State, exec (.commitTaken source n k frameNo fileSum) s = .next t.sleepTest ∧ s.freedAs n t) ∧
     ((p.placement ≠ .reserved ∨ (∃ k' q, k' ≠ k ∧ e.part k' = some q ∧ q.placement = .reserved) ∨
         x.tag = .exposing ∨ x.tag = .reading) →
       ∃ t : State, exec (.commitTaken source n k frameNo fileSum) s = .next t.sleepTest ∧
         s.socketLeft n p (e.updPart k fun q =>
           { q with placement := if q.placement = .reserved then .committed else q.placement
                    transfer := .closed, grants := 0 }) t)) ∧
  (∀ (source : Node) (n : Shot) (k : Socket) (reason : UnplaceReason) (e : Entry) (p : Part) (x : Slot) (s : State),
     s.takesFrames → s.calm → s.ringOk → s.entry? n = some e → e.part k = some p → s.slot? n = some x →
     (p.placement = .reserved → (∃ k' q, k' ≠ k ∧ e.part k' = some q ∧ q.placement = .committed) →
       (x.tag = .raw ∨ x.tag = .developing ∨ x.tag = .held ∨ x.tag = .developed) →
       ∃ t : State, exec (.unplaceTaken source n k reason) s = .next t.sleepTest ∧ s.freedAs n t) ∧
     ((p.placement ≠ .reserved ∨ (∀ k' q, k' ≠ k → e.part k' = some q → q.placement ≠ .committed) ∨
         x.tag = .exposing ∨ x.tag = .reading) → k = .b ∨ ¬s.overflowsTo source e →
       ∃ (t : State) (g : Entry), exec (.unplaceTaken source n k reason) s = .next t.sleepTest ∧
         g = { e.updPart k (fun q =>
           { q with placement := if q.placement = .reserved then .void else q.placement, transfer := .idle, grants := 0 })
           with unmirrored := g.unmirrored } ∧
         (s.settings.storageMode ≠ .mirror ∨ p.placement ≠ .reserved ∨ (∀ k', k' ≠ k → e.part k' = none) →
           g.unmirrored = e.unmirrored) ∧
         (∀ k' r, k' ≠ k → e.part k' = some r → s.settings.storageMode = .mirror → p.placement = .reserved →
           (r.placement = .reserved ∨ r.placement = .committed → g.unmirrored = true) ∧
           (r.placement = .refused ∨ r.placement = .void ∨ r.placement = .pending → g.unmirrored = e.unmirrored)) ∧
         s.socketLeft n p g t))

/-- A reservation on a Ready card with room takes the index position and the extent at the cursors and is announced; each other
card state refuses with its reason, and Full and IndexFull raise CardFull. Socket A tries one at its own admission of a shot, by
an Open or an own edge, and socket B in Mirror (R145). In Overflow socket B tries one at a refusal or an Unplace from the card
station of socket A, the member the entry names, in a rejoin roll call too (R79, R146), after the Ring Manager has settled the
part.
MODEL'S CHOICE (log 28): in that event the Transfer Unit's choice after the Place, and at an Unplace the leaving of the socket
with the pass that ends with it, come before the reservation, so that their Claims are queued before its Place. A Ready card at a
Ready station re-places the roster's shots that its socket wants and has not placed, in roster order: at the mount's end, at the
format's end and at Begin (R147). The sleep test follows an Unplace. MODEL'S INFERENCE (log 21): a shot on the placement list is
announced again where it is reserved; MODEL'S CHOICE (log 46): an entry with no part for the socket is neither Reserved nor
Committed. -/
def Obligations.ReservationFollowsTheTable : Prop :=
  (∀ (e : Entry) (k : Socket) (s : State), s.card.letter = some k →
    (∀ p, s.card.placed? e.shot = some p → s.tryReserve e =
      { s with
        link := s.linkAfter 15#4
          (.place e.shot k (.reserved (BitVec.ofNat 16 p.frameNo) (BitVec.ofNat 32 p.firstBlock))) }) ∧
    (s.card.placed? e.shot = none →
      (∀ r, s.card.state = .ready → s.card.roll = some r → r.index ≠ 1024 →
        r.write + shotExtent s.settings e.members.length ≤ r.blocks →
        s.tryReserve e =
          { s with
            card := { s.card with
              roll := some { r with index := r.index + 1, write := r.write + shotExtent s.settings e.members.length }
              placements := s.card.placements ++
                [{ shot := e.shot, frameNo := r.index + 1, firstBlock := r.write,
                   blocks := shotExtent s.settings e.members.length,
                   progress := e.members.map fun m =>
                     { member := m, expected := 0, running := 0#16, closed := false, close := none, redos := 0 }
                   unwritten := 0, phase := .filling }] }
            link := s.linkAfter 15#4
              (.place e.shot k (.reserved (BitVec.ofNat 16 (r.index + 1)) (BitVec.ofNat 32 r.write))) }) ∧
      (∀ r reason, s.card.state = .ready → s.card.roll = some r →
        (r.index = 1024 ∧ reason = .indexFull ∨
          r.index ≠ 1024 ∧ r.blocks < r.write + shotExtent s.settings e.members.length ∧ reason = .full) →
        s.tryReserve e =
          { s with
            link := s.linkAfter 15#4 (.place e.shot k (.refused reason))
            notices := s.notices.raise (.cardFull e.shot (some k) reason) }) ∧
      (∀ reason,
        (s.card.state = .empty ∨ s.card.state = .unformatted ∨ s.card.state = .released ∨ s.card.state = .failed) ∧
            reason = .noCard ∨
          (s.card.state = .mounting ∨ s.card.state = .formatting) ∧ reason = .mounting ∨
          s.card.state = .ejecting ∧ reason = .ejecting →
        s.tryReserve e = { s with link := s.linkAfter 15#4 (.place e.shot k (.refused reason)) }))) ∧
  (∀ (e : Entry) (s u : State), u = { s with link := s.linkAtTrigger } → s.calm → s.capture.state = .armed →
    s.noOutcomeDue → 0 < s.settings.exposureLimit → 0 < s.capture.shutter →
    s.ring.slots.getD ((s.ring.top + 1) % 8) none = none → e.members = s.memberNumbers →
    (∀ source n time, s.inForce → s.ring.next ≤ n → n ≠ lastShot → s.ringOk → e.shot = n →
      ∃ t, exec (.openTaken source n time) s = .next t ∧
        (s.placesAtAdmission → t.card = (u.tryReserve e).card ∧ t.notices = (u.tryReserve e).notices ∧
          t.link = (u.tryReserve e).link) ∧
        (¬s.placesAtAdmission → t.card = s.card ∧ t.notices = s.notices ∧ t.link = s.linkAtTrigger)) ∧
    (∀ c, s.maturing s.settings.syncPolarity.closedLevel c → (s.timer .attribution).running = false →
      s.ring.next ≠ lastShot → e.shot = s.ring.next →
      ∃ t, exec .syncClosingEdge s = .next t ∧
        (s.placesAtAdmission → t.card = (u.tryReserve e).card ∧ t.notices = (u.tryReserve e).notices ∧
          t.link = s.member.place { dst := 15#4, msg := .openShot s.ring.next c.since } (u.tryReserve e).link) ∧
        (¬s.placesAtAdmission → t.card = s.card ∧ t.notices = s.notices ∧
          t.link = s.member.place { dst := 15#4, msg := .openShot s.ring.next c.since } s.linkAtTrigger))) ∧
  (∀ (source : Node) (n : Shot) (e : Entry) (s : State), s.takesFrames → s.calm → s.ringOk → s.entry? n = some e →
    s.overflowsTo source e →
    (∀ reason, ∃ t, (s.ringPlace n .a (.refused reason)).tileChosen t ∧
      exec (.placeTaken source n .a (.refused reason)) s = .next (t.tryReserve e)) ∧
    (∀ reason p, e.partA = some p →
      ∃ t, exec (.unplaceTaken source n .a reason) s = .next (State.sleepTest (t.tryReserve e)) ∧
        s.socketLeft n p (e.updPart .a fun q =>
          { q with placement := if q.placement = .reserved then .void else q.placement, transfer := .idle, grants := 0 }) t)) ∧
  (∀ (source : Node) (n : Shot) (k : Socket) (e : Entry) (reason : PlaceReason) (s : State), s.takesFrames → s.calm →
    s.ringOk → s.entry? n = some e → k = .b ∨ ¬s.overflowsTo source e →
    ∃ t, (s.ringPlace n k (.refused reason)).tileChosen t ∧ exec (.placeTaken source n k (.refused reason)) s = .next t) ∧
  (∀ s : State,
    (∀ k, s.card.letter = some k → s.card.state = .ready → s.member.state = .ready →
      s.rePlace = (s.ring.roster.filter (placesAgain s.settings.storageMode k)).foldl (fun t e => t.tryReserve e) s) ∧
    (s.card.letter = none ∨ s.card.state ≠ .ready ∨ s.member.state ≠ .ready → s.rePlace = s) ∧
    (∀ m : Medium, s.calm → s.card.state = .mounting → s.card.medium = some m →
      65 + shotExtent s.settings (max 2 s.member.table.length) ≤ m.capacity → labelValid m = true →
      (∀ e ∈ cardIndex m.bytes, e.kind = 0) →
      exec .mountReadComplete s = .next (State.rePlace
        { s with
          card := { s.card with
            state := .ready
            roll := some { identity := BitVec.ofNat 32 (cardLabel m.bytes).2.2.1, blocks := (cardLabel m.bytes).2.2.2,
                           index := 0, write := 65 } }
          notices := s.notices.raise
            (.cardState s.card.letter .ready (BitVec.ofNat 32 (cardLabel m.bytes).2.2.1) 0#16 65#32) })) ∧
    (∀ (m : Medium) (i : Nat) (last : IndexEntry), s.calm → s.card.state = .mounting → s.card.medium = some m →
      65 + shotExtent s.settings (max 2 s.member.table.length) ≤ m.capacity → labelValid m = true →
      (∀ j, ¬indexFault (cardLabel m.bytes).2.2.2 (cardIndex m.bytes) j) →
      (cardIndex m.bytes)[i]? = some last → last.kind ≠ 0 →
      (∀ j e, i < j → (cardIndex m.bytes)[j]? = some e → e.kind = 0) →
      exec .mountReadComplete s = .next (State.rePlace
        { s with
          card := { s.card with
            state := .ready
            roll := some { identity := BitVec.ofNat 32 (cardLabel m.bytes).2.2.1, blocks := (cardLabel m.bytes).2.2.2,
                           index := i + 1, write := last.first + last.blocks } }
          notices := s.notices.raise (.cardState s.card.letter .ready (BitVec.ofNat 32 (cardLabel m.bytes).2.2.1)
            (BitVec.ofNat 16 (i + 1)) (BitVec.ofNat 32 (last.first + last.blocks))) })) ∧
    (∀ (m : Medium) (r : Roll), s.calm → s.card.state = .formatting → s.card.medium = some m → s.card.roll = some r →
      ∃ w : Medium, exec .formatComplete s = .next (State.rePlace
        { s with
          card := { s.card with state := .ready, medium := some w }
          notices := s.notices.raise (.cardState s.card.letter .ready r.identity (BitVec.ofNat 16 r.index)
            (BitVec.ofNat 32 r.write)) })) ∧
    (∀ h : ReqHeader, s.calm → s.power.state ≠ .sleep → s.member.state = .configuring → (∀ i, 1 ≤ i → i ≤ 6 → s.member.passes i) →
      ∃ t, exec (.beginConf h) s = .next t ∧ t.card = (State.rePlace { s with member := t.member }).card))

/-! ## Development (chapter 7) -/

/-- Phase Base: each working value is the raw sample less its base, 0 and Floored where that is below 0; the neighbour-facing
edges' Seams are owed, and phase Interior begins with the Defect Table as its snapshot.
MODEL'S CHOICE (log 13, log 40): a sample that an area does not hold reads as 0, and a phase's work is done at its completion;
(log 54): the dark slot's samples are the base of a Used shot also where the slot is marked invalid. -/
def Obligations.PhaseBaseSubtracts : Prop :=
  ∀ (j : Job) (s : State), s.calm → s.develop.job = some j → j.phase = .base → j.slot < s.ring.areas.length →
    ∃ t, exec .phaseBaseComplete s = .next t ∧ t = { s with ring := t.ring, develop := t.develop } ∧
      t.ring = { s.ring with areas := t.ring.areas } ∧ (t.area j.slot).raw = (s.area j.slot).raw ∧
      (∀ i, i ≠ j.slot → t.area i = s.area i) ∧
      (t.area j.slot).developed.length = pixelCount s.settings ∧
      (∀ i, i < pixelCount s.settings →
        ((t.area j.slot).developed.getD i 0#14).toNat = ((s.area j.slot).raw.getD i 0#14).toNat -
          (if j.base = .dark then (s.dark.samples.getD i 0#14).toNat else s.settings.blackLevel % 16384)) ∧
      (∃ k, t.develop = { s.develop with job := some k, owed := t.develop.owed } ∧
        k = { j with phase := .interior, snapshot := s.dark.defects.map fun d => (d.row, d.column)
                     flags := { j.flags with floored := k.flags.floored } } ∧
        (k.flags.floored = true ↔ ∃ i, i < pixelCount s.settings ∧ ((s.area j.slot).raw.getD i 0#14).toNat <
          (if j.base = .dark then (s.dark.samples.getD i 0#14).toNat else s.settings.blackLevel % 16384))) ∧
      (∀ d m, (d, m) ∈ s.facing → (j.shot, d) ∈ t.develop.owed) ∧
      (∀ o ∈ s.develop.owed, o ∈ t.develop.owed) ∧ (s.develop.owed.Nodup → t.develop.owed.Nodup)

/-- Phase Interior repairs the interior entries of its snapshot and phase Edge the edge entries: each takes the mean, rounded
half up, of the values it may use, from the four positions two pixels away, those of the snapshot left out, and at an edge in
state Band the band's sample across it. An entry with no such value, and every other pixel, keeps its value.
Interior goes on to resolve the edges in order: each takes its band out of the seam store, and the first without one waits and
starts the seam timer. Edge, once every edge is resolved, goes on to phase Gain.
MODEL'S CHOICE (log 8): a completion in another phase, or with an edge unresolved, has no effect; (log 40) a phase's work is done
at its completion; (log 37) a position for which a band has no sample is not usable; (log 16) a mean above 16383 is a free
value. -/
def Obligations.RepairsTouchTheSnapshotAlone : Prop :=
  (∀ (j : Job) (s : State), s.calm → s.develop.job = some j → j.slot < s.ring.areas.length →
     (j.phase = .interior →
       ∃ t k, exec .phaseInteriorComplete s = .next t ∧
         t = { s with ring := t.ring, develop := { s.develop with job := some k, store := t.develop.store }, clock := t.clock } ∧
         t.ring = { s.ring with areas := t.ring.areas } ∧ (∀ i, i ≠ j.slot → t.area i = s.area i) ∧
         s.repairedAs false [] j t ∧ k = { j with phase := .edge, edges := k.edges } ∧
         (∀ got rest, j.edges = got ++ rest → (∀ e ∈ j.edges, e.state = .pending) → (j.edges.map (·.neighbour)).Nodup →
           (s.develop.store.map fun b => (b.neighbour, b.shot)).Nodup →
           (∀ e ∈ got, ∃ b ∈ s.develop.store, b.neighbour = e.neighbour ∧ b.shot = j.shot) →
           (∀ e es, rest = e :: es → ∀ b ∈ s.develop.store, ¬(b.neighbour = e.neighbour ∧ b.shot = j.shot)) →
           (∀ b, b ∈ t.develop.store ↔
             b ∈ s.develop.store ∧ ¬(b.shot = j.shot ∧ ∃ e ∈ got, e.neighbour = b.neighbour)) ∧
           ∃ done, done.length = got.length ∧
             (∀ (i : Nat) (e : Edge), got[i]? = some e → ∃ b ∈ s.develop.store, b.neighbour = e.neighbour ∧ b.shot = j.shot ∧
               done[i]? = some { e with state := .band b.samples }) ∧
             (rest = [] → k.edges = done ∧ t.clock = s.clock) ∧
             (∀ e es, rest = e :: es → k.edges = done ++ { e with state := .waiting } :: es ∧
               (0 < s.settings.seamTimeout → t.clock = { s.clock with timers := { s.clock.timers with
                 seam := { s.clock.timers.seam with request := .load s.settings.seamTimeout } } })))) ∧
     (j.phase = .edge → (∀ e ∈ j.edges, (∃ b, e.state = .band b) ∨ e.state = .oneSided) →
       ∃ t k, exec .edgeRepairsComplete s = .next t ∧
         t = { s with ring := t.ring, develop := { s.develop with job := some k } } ∧
         t.ring = { s.ring with areas := t.ring.areas } ∧ (∀ i, i ≠ j.slot → t.area i = s.area i) ∧
         s.repairedAs true j.edges j t ∧ k = { j with phase := .gain, edges := k.edges } ∧
         k.edges.length = j.edges.length) ∧
     (j.phase = .edge → (∃ e ∈ j.edges, e.state = .pending ∨ e.state = .waiting) →
       exec .edgeRepairsComplete s = .next s)) ∧
  (∀ s : State, s.calm →
     ((∀ j, s.develop.job = some j → j.phase ≠ .interior) → exec .phaseInteriorComplete s = .next s) ∧
     ((∀ j, s.develop.job = some j → j.phase ≠ .edge) → exec .edgeRepairsComplete s = .next s)) ∧
  (∀ (st : Settings) (snapshot : List (Nat × Nat)) (work : List Sample) (edges : List Edge) (r c : Nat),
     candidateValues st snapshot work edges r c =
       (if 2 ≤ r then usable st snapshot work [(r - 2, c)] else acrossEdge edges .up ((r + 2) * st.tileColumns + c)) ++
       (if r + 2 < st.tileRows then usable st snapshot work [(r + 2, c)]
         else acrossEdge edges .down ((r + 2 - st.tileRows) * st.tileColumns + c)) ++
       (if 2 ≤ c then usable st snapshot work [(r, c - 2)] else acrossEdge edges .left (r * 4 + (c + 2))) ++
       (if c + 2 < st.tileColumns then usable st snapshot work [(r, c + 2)]
         else acrossEdge edges .right (r * 4 + (c + 2 - st.tileColumns)))) ∧
  (∀ (edges : List Edge) (d : Direction),
     (∀ before e after b, edges = before ++ e :: after → (∀ a ∈ before, a.dir ≠ d) → e.dir = d → e.state = .band b →
       bandOf? edges d = some b) ∧
     ((∀ e ∈ edges, e.dir = d → ∀ b, e.state ≠ .band b) → bandOf? edges d = none)) ∧
  (∀ values : List Nat, values ≠ [] → (∀ v ∈ values, v ≤ 16383) →
     (repairValue values).toNat = (values.sum + values.length / 2) / values.length)

/-- Phase Gain writes (v x FlatGain + 2048) div 4096 for every working value v, 16383 where that is above 16383, and then adds
Clipped (R120). MODEL'S CHOICE (log 40): a phase's work is done at its completion. -/
def Obligations.PhaseGainMultiplies : Prop :=
  ∀ (j : Job) (s : State), s.calm → s.develop.job = some j → j.phase = .gain → j.slot < s.ring.areas.length →
    ∃ t k, exec .phaseGainComplete s = .next t ∧ t = { s with ring := t.ring, develop := t.develop } ∧
      t.ring = { s.ring with areas := t.ring.areas } ∧ (∀ i, i ≠ j.slot → t.area i = s.area i) ∧
      (t.area j.slot).raw = (s.area j.slot).raw ∧
      (t.area j.slot).developed.map (·.toNat) =
        (s.area j.slot).developed.map (fun v => min ((v.toNat * s.settings.flatGain + 2048) / 4096) 16383) ∧
      t.develop = { s.develop with job := some k } ∧
      k = { j with phase := .finish, flags := { j.flags with clipped := k.flags.clipped } } ∧
      (k.flags.clipped = true ↔
        ∃ v ∈ (s.area j.slot).developed, 16383 < (v.toNat * s.settings.flatGain + 2048) / 4096)

/-- Phase Finish: the histogram takes the statistics area, the slot takes the flags and the tile sum, the tile is Held where a
flag that is set has its DevelopMask item Held and Developed otherwise, with its notice, and the hot-overflow count is cleared.
The sleep test (R183) follows.
Bin b of a histogram counts the pixels whose value v gives v div 64 = b, and the bins count every pixel once. -/
def Obligations.PhaseFinishSettlesTheTile : Prop :=
  (∀ (j : Job) (x : Slot) (s : State), s.calm → s.ringOk → s.develop.job = some j → j.phase = .finish → s.slot? j.shot = some x →
     ∃ (t : State) (y : Slot), exec .phaseFinishComplete s = .next t.sleepTest ∧ t.slot? j.shot = some y ∧
       y = { x with tag := y.tag, flags := y.flags, tileSum := some (tileSumOf (s.packedTile j.slot)) } ∧
       y.flags = { j.flags with
         limitReached := j.flags.limitReached || x.limit
         noDark := j.flags.noDark || x.dark == some .none
         skewed := j.flags.skewed || x.skewed
         defectOverflow := j.flags.defectOverflow || s.dark.overflow != 0 } ∧
       y.tag = (if y.flags.meets s.settings.developMask then .held else .developed) ∧
       t.notices = s.notices.raise (if y.flags.meets s.settings.developMask then
         .tileHeld j.shot y.flags (tileSumOf (s.packedTile j.slot))
         else .tileDeveloped j.shot y.flags (tileSumOf (s.packedTile j.slot))) ∧
       t.develop.stats = .histogram j.shot
         (histogramBins (pixels (pixelCount s.settings) (s.area j.slot).developed)) ∧
       t.dark = { s.dark with overflow := 0 } ∧ t.ring.areas = s.ring.areas ∧ t.clock = s.clock ∧ t.card = s.card ∧
       t.capture = s.capture ∧ t.member = s.member ∧ (∀ k, t.develop.job = some k → k.shot ≠ j.shot ∧ k.phase = .base)) ∧
  (∀ values : List Sample, (histogramBins values).length = 256 ∧ (histogramBins values).sum = values.length ∧
     ∀ b, b < 256 → (histogramBins values)[b]? = some ((values.filter fun v => v.toNat / 64 = b).length))

/-- The edges of a job that are still to be resolved, in order, against the bands of the seam store (R118): each takes its band out
of the store, up to the first without one, which waits. `edges` is what becomes of them, `left` of the store, and `waits` says
whether an edge waits. -/
def edgesResolved (n : Shot) (after : List Edge) (store : List Band) (edges : List Edge) (left : List Band) (waits : Bool) : Prop :=
  ∀ got rest, after = got ++ rest → (after.map (·.neighbour)).Nodup → (store.map fun b => (b.neighbour, b.shot)).Nodup →
    (∀ e ∈ got, ∃ b ∈ store, b.neighbour = e.neighbour ∧ b.shot = n) →
    (∀ e es, rest = e :: es → ∀ b ∈ store, ¬(b.neighbour = e.neighbour ∧ b.shot = n)) →
    left = store.filter (fun b => !(b.shot == n && got.any fun e => e.neighbour == b.neighbour)) ∧
    ∃ done, done.length = got.length ∧
      (∀ (i : Nat) (e : Edge), got[i]? = some e → ∃ b ∈ store, b.neighbour = e.neighbour ∧ b.shot = n ∧
        done[i]? = some { e with state := .band b.samples }) ∧
      (rest = [] → edges = done ∧ waits = false) ∧
      (∀ e es, rest = e :: es → edges = done ++ { e with state := .waiting } :: es ∧ waits = true)

/-- A Seam: with an unset grid or a band of another length it is disregarded; off the grid, for a shot not held, or for an edge
already finished it is late; for another station it is passed over; else it is stored, replaces its key, or finds the store of
eight full and counts as overrun.
A band that the job waits for, stored or put in the place of one of its key, ends the wait: the seam timer is stopped, the edge is
Band, and the next edges are resolved in order from the rest of the store, up to one that waits and starts the timer again; where the
wait has already timed out, its expiry comes first and the band is late (R44, R118).
The seam timer's expiry makes the waited edge OneSided with SeamMissing, and resolves the next edges in the same way; with no edge
waiting, outside phase Edge, and without a job it has no effect. Nothing else changes.
MODEL'S CHOICE (log 6): an expiry is a due mark. -/
def Obligations.SeamsAreStoredOrCounted : Prop :=
  (∀ (source : Node) (n : Shot) (d : Direction) (band : List Word16) (s : State), s.takesFrames →
     (s.calm → s.settings.gridShape = none ∨ band.length ≠ 4 * edgeLength s.settings d →
       exec (.seamTaken source n d band) s = .next s) ∧
     (s.settings.gridShape ≠ none → band.length = 4 * edgeLength s.settings d →
       (s.calm → neighbour? s.settings.gridShape source.toNat d = none ∨
         (neighbour? s.settings.gridShape source.toNat d = some s.self.toNat ∧
           (s.entry? n = none ∨ s.edgeFinished source n = true)) →
         exec (.seamTaken source n d band) s = .next
           { s with develop := { s.develop with late := satInc 65535 s.develop.late } }) ∧
       (∀ m, s.calm → neighbour? s.settings.gridShape source.toNat d = some m → m ≠ s.self.toNat →
         exec (.seamTaken source n d band) s = .next s) ∧
       (s.calm → neighbour? s.settings.gridShape source.toNat d = some s.self.toNat → s.entry? n ≠ none →
         s.edgeFinished source n = false →
         ((∀ b ∈ s.develop.store, ¬(b.neighbour = source.toNat ∧ b.shot = n)) → 8 ≤ s.develop.store.length →
           exec (.seamTaken source n d band) s = .next
             { s with develop := { s.develop with overrun := satInc 65535 s.develop.overrun } }) ∧
         ((∀ k, s.develop.job = some k → k.waitsFor source n = false) →
          ((∀ b ∈ s.develop.store, ¬(b.neighbour = source.toNat ∧ b.shot = n)) → s.develop.store.length < 8 →
            exec (.seamTaken source n d band) s = .next
              { s with develop := { s.develop with
                  store := s.develop.store ++ [{ neighbour := source.toNat, shot := n, samples := band }] } }) ∧
          (∀ before b after, s.develop.store = before ++ b :: after → b.neighbour = source.toNat → b.shot = n →
            (∀ a ∈ before, ¬(a.neighbour = source.toNat ∧ a.shot = n)) →
            exec (.seamTaken source n d band) s = .next
              { s with develop := { s.develop with store := before ++ { b with samples := band } :: after } }))) ∧
       (∀ j before e after, neighbour? s.settings.gridShape source.toNat d = some s.self.toNat → s.entry? n ≠ none →
         s.edgeFinished source n = false → s.develop.job = some j → j.phase = .edge → j.shot = n →
         j.edges = before ++ e :: after → e.neighbour = source.toNat → e.state = .waiting →
         (∀ b ∈ before, b.state = .oneSided ∨ ∃ l, b.state = .band l) → (∀ a ∈ after, a.state = .pending) →
         (s.calm → (s.develop.store.map fun b => (b.neighbour, b.shot)).Nodup →
           (∃ b ∈ s.develop.store, b.neighbour = source.toNat ∧ b.shot = n) ∨ s.develop.store.length < 8 →
           ∃ t edges left waits, exec (.seamTaken source n d band) s = .next t ∧
             edgesResolved n after (s.develop.store.filter fun b => !(b.neighbour == source.toNat && b.shot == n)) edges left waits ∧
             t = { s with
                   develop := { s.develop with
                     job := some { j with edges := before ++ { e with state := .band band } :: edges }, store := left }
                   clock := t.clock } ∧
             (waits = false → t.clock = { s.clock with timers := { s.clock.timers with
               seam := { s.clock.timers.seam with request := .stop } } }) ∧
             (waits = true → 0 < s.settings.seamTimeout → t.clock = { s.clock with timers := { s.clock.timers with
               seam := { s.clock.timers.seam with request := .load s.settings.seamTimeout } } })) ∧
         (s.expiresAlone .seam →
           ∃ u, exec .seamTimerExpiry s = .next u ∧ exec (.seamTaken source n d band) s = .next
             { u with develop := { u.develop with late := satInc 65535 u.develop.late } })))) ∧
  (∀ s : State,
     (¬s.expires .seam → exec .seamTimerExpiry s = .next s) ∧
     (s.expires .seam → (∀ j, s.develop.job = some j → j.phase = .edge → ∀ e ∈ j.edges, e.state ≠ .waiting) →
       exec .seamTimerExpiry s = .next { s with clock := s.clockAfter .seam })) ∧
  (∀ (j : Job) (s : State), s.expires .seam → s.develop.job = some j → j.phase = .edge →
     ∀ before e after, j.edges = before ++ e :: after → e.state = .waiting →
       (∀ b ∈ before, b.state = .oneSided ∨ ∃ l, b.state = .band l) → (∀ a ∈ after, a.state = .pending) →
       ∃ t edges left waits, exec .seamTimerExpiry s = .next t ∧ edgesResolved j.shot after s.develop.store edges left waits ∧
         t = { s with
               develop := { s.develop with
                 job := some { j with edges := before ++ { e with state := .oneSided } :: edges
                                      flags := { j.flags with seamMissing := true } }
                 store := left }
               clock := t.clock } ∧
         (waits = false → t.clock = s.clockAfter .seam) ∧
         (waits = true → 0 < s.settings.seamTimeout → t.clock = { s.clockAfter .seam with timers :=
           { (s.clockAfter .seam).timers with
             seam := { (s.clockAfter .seam).timers.seam with request := .load s.settings.seamTimeout } } }))

/-! ## Transfer and the card station (chapters 8 and 9) -/

/-- A claim that the first row of R160 does not turn away is granted from the free count, or waits where none is free, in the
place of its member's waiting claim; any other is answered Grant 0. Unfilled grants of the claiming member return first, and the
waiting claims are then served.
The service of waiting claims (R161): while a buffer is free the head leaves the list and is granted from the free count, or
answered Grant 0 where the first row of R160 now turns it away. -/
def Obligations.ClaimIsGrantedOrWaits : Prop :=
  (∀ s : State,
    (s.card.waiting = [] ∨ s.card.free = 0 → s.serve = s) ∧
    (∀ q rest, s.card.waiting = q :: rest → 1 ≤ s.card.free →
      (¬s.claimStands q.member q.socket q.shot q.count →
        s.serve = State.serve
          { s with
            card := { s.card with waiting := rest }
            link := s.linkAfter (nodeDst q.member) (.grant (q.member.setWidth 8) q.socket q.shot 0#8 true) }) ∧
      (s.claimStands q.member q.socket q.shot q.count →
        s.serve = State.serve
          { s with
            card := { s.card with
              waiting := rest
              grants := s.card.grants.filter (·.member != q.member) ++
                [{ member := q.member, shot := q.shot, unfilled := min q.count s.card.free }] }
            link := s.linkAfter (nodeDst q.member)
              (.grant (q.member.setWidth 8) q.socket q.shot (BitVec.ofNat 8 (min q.count s.card.free)) false) }))) ∧
  (∀ (source : Node) (socket : Byte) (n : Shot) (count : Byte) (s u : State), s.takesFrames → s.calm → s.cardStation = true →
    ((∀ g, s.card.grant? source = some g → g.unfilled = 0) ∧ u = s ∨
      (∃ g, s.card.grant? source = some g ∧ 0 < g.unfilled ∧
        u = State.serve { s with card := s.card.setGrant { g with unfilled := 0 } })) →
    (¬u.claimStands source socket n count.toNat →
      exec (.claimTaken source socket n count) s = .next
        { u with link := u.linkAfter (nodeDst source) (.grant (source.setWidth 8) socket n 0#8 true) }) ∧
    (u.claimStands source socket n count.toNat → 1 ≤ u.card.free →
      exec (.claimTaken source socket n count) s = .next
        { u with
          card := { u.card with
            grants := u.card.grants.filter (·.member != source) ++
              [{ member := source, shot := n, unfilled := min count.toNat u.card.free }] }
          link := u.linkAfter (nodeDst source)
            (.grant (source.setWidth 8) socket n (BitVec.ofNat 8 (min count.toNat u.card.free)) false) }) ∧
    (u.claimStands source socket n count.toNat → u.card.free = 0 →
      ((∀ q ∈ u.card.waiting, q.member ≠ source) →
        exec (.claimTaken source socket n count) s = .next
          { u with card := { u.card with
              waiting := u.card.waiting ++ [{ member := source, socket := socket, shot := n, count := count.toNat }] } }) ∧
      (∀ before q after, u.card.waiting = before ++ q :: after → q.member = source →
        (∀ a ∈ before, a.member ≠ source) →
        exec (.claimTaken source socket n count) s = .next
          { u with card := { u.card with
              waiting := before ++ { member := source, socket := socket, shot := n, count := count.toNat } :: after } })))

/-- A Grant reaches the Claiming socket of its entry alone: 1-8 make it Sending with that many grants, 0 makes it Closed, and a
pass with no target left ends: the cursor is 0, a new pass begins for an open Idle socket, else the tile is left and the lowest
tile that waits is chosen (R153-R155). MODEL'S CHOICE (log 47): at a tile that is not current the cursor alone changes, and an open
Idle socket waits.
A Redo resets its member in a Filling entry of every card station (R167), and at its sender begins a new pass for every open
socket (R168), both in one event where the sender holds the placement: at the current tile the Segment in hand is cancelled and
sockets without grants are claimed for (R155), and with no current tile the lowest tile that waits is chosen (R153). With neither
it changes nothing.
A Segment of the station's own that went out costs every target one grant and moves the cursor on by its payload; a target left
without grants is claimed for; the close flag closes every target and ends the pass; a cancelled one costs its grants alone
(R158). A card station then takes the frame. A Seam of the
station's own that went out leaves the owed list (R125). The sleep test (R183) follows the end of an own frame. -/
def Obligations.SenderFollowsGrantsAndRedos : Prop :=
  (∀ (source : Node) (claimant socket : Byte) (k : Socket) (n : Shot) (count : Byte) (notPlaced : Bool) (e : Entry) (p : Part)
     (s : State), s.takesFrames → s.calm → socketOf? socket = some k → s.entry? n = some e → e.part k = some p →
     (p.transfer ≠ .claiming → exec (.grantTaken source claimant socket n count notPlaced) s = .next s) ∧
     (p.transfer = .claiming → 1 ≤ count.toNat → count.toNat ≤ 8 →
       ∃ t, exec (.grantTaken source claimant socket n count notPlaced) s = .next t ∧
         t = { s with ring := { s.ring with roster := t.ring.roster } } ∧ sameOtherEntries n s t ∧
         t.entry? n = some (e.updPart k fun q => { q with transfer := .sending, grants := count.toNat })) ∧
     (p.transfer = .claiming → count = 0#8 → (∃ k' q, k' ≠ k ∧ e.part k' = some q ∧ q.target = true) →
       ∃ t, exec (.grantTaken source claimant socket n count notPlaced) s = .next t ∧
         t = { s with ring := { s.ring with roster := t.ring.roster } } ∧ sameOtherEntries n s t ∧
         t.entry? n = some (e.updPart k fun q => { q with transfer := .closed })) ∧
     (p.transfer = .claiming → count = 0#8 → (∀ k' q, k' ≠ k → e.part k' = some q → q.target = false) →
       s.transfer.current ≠ some n →
       ∃ t, exec (.grantTaken source claimant socket n count notPlaced) s = .next t ∧
         t = { s with ring := { s.ring with roster := t.ring.roster } } ∧ sameOtherEntries n s t ∧
         t.entry? n = some { (e.updPart k fun q => { q with transfer := .closed }) with cursor := 0 }) ∧
     (p.transfer = .claiming → count = 0#8 → (∀ k' q, k' ≠ k → e.part k' = some q → q.target = false) →
       s.transfer.current = some n → s.ringOk →
       ∃ t, exec (.grantTaken source claimant socket n count notPlaced) s = .next t ∧
         s.passEnded n (e.updPart k fun q => { q with transfer := .closed }) t)) ∧
  (∀ (source : Node) (n : Shot) (tile : Byte) (socket : Socket) (reason : RedoReason) (s : State), s.takesFrames → s.calm →
     ∃ u t : State, exec (.redoTaken source n tile socket reason) s = .next t ∧
       u = { s with card := { s.card with placements := u.card.placements } } ∧
       u.card.placements.length = s.card.placements.length ∧ (∀ n', n' ≠ n → u.card.placed? n' = s.card.placed? n') ∧
       (s.cardStation = false ∨
         (∀ p, s.card.placed? n = some p → p.phase = .committing ∨ ∀ m ∈ p.progress, m.member.setWidth 8 ≠ tile) → u = s) ∧
       (∀ p m g, s.cardStation = true → s.card.placed? n = some p → p.phase = .filling → p.progress? m = some g →
         m.setWidth 8 = tile →
         ∃ q, u.card.placed? n = some q ∧ q = { p with progress := q.progress } ∧
           q.progress? m = some { g with expected := 0, running := 0#16, closed := false, close := none } ∧
           ∀ m', m' ≠ m → q.progress? m' = p.progress? m') ∧
       (s.self.setWidth 8 ≠ tile ∨ s.entry? n = none → t = u) ∧
       (∀ e, s.self.setWidth 8 = tile → s.entry? n = some e →
         (s.transfer.current = some n →
           State.passBegun n e { u with link := s.link.cancelBulk (Msg.isSegmentOf n) } t) ∧
         (s.transfer.current ≠ some n → s.ringOk →
           ∃ v : State, v = { u with ring := { s.ring with roster := v.ring.roster } } ∧ sameOtherEntries n s v ∧
             v.entry? n = some { e.mapParts (fun p =>
               if p.placement = .reserved ∧ (p.transfer = .idle ∨ p.transfer = .closed) then { p with transfer := .sending }
               else p) with cursor := 0 } ∧
             v.tileChosen t))) ∧
  (∀ (f : WireFrame) (b : Bulk) (g : SegmentBody) (e : Entry) (s : State),
     s.calm → s.power.state ≠ .sleep → s.cardStation = false → f.faulty = false → f.malformed = false → f.kind = 0x41#8 →
     s.link.phase = .sending .bulk false → s.link.bulk = some b → b.frame.msg = .segment g → b.cancelled = false →
     g.close = none → s.entry? g.shot = some e → (∀ p ∈ e.parts, p.target = true → 2 ≤ p.grants) →
     ∃ t : State, exec (.frameEnd f false) s = .next t.sleepTest ∧
       t = { s with link := { s.link.ended with bulk := none }, ring := { s.ring with roster := t.ring.roster } } ∧
       sameOtherEntries g.shot s t ∧
       t.entry? g.shot = some { e.mapParts (fun p => if p.target then { p with grants := p.grants - 1 } else p) with
         cursor := e.cursor + g.payload.length }) ∧
  (∀ (f : WireFrame) (b : Bulk) (g h : SegmentBody) (e spent : Entry) (s u : State),
     s.calm → s.power.state ≠ .sleep → s.ringOk → f.faulty = false → f.malformed = false → f.kind = 0x41#8 →
     Msg.parse f.kind f.body = some (.segment h) → s.link.phase = .sending .bulk false → s.link.bulk = some b →
     b.frame.msg = .segment g → s.entry? g.shot = some e → u = { s with link := { s.link.ended with bulk := none } } →
     spent = { e.mapParts (fun p => if p.target then { p with grants := p.grants - 1 } else p) with
       cursor := if b.cancelled then e.cursor else e.cursor + g.payload.length } →
     ∃ v t : State, exec (.segmentTaken f.src h) v = .next t ∧ exec (.frameEnd f false) s = .next t.sleepTest ∧
       (b.cancelled = true ∨ g.close = none →
         (s.transfer.current = some g.shot →
           v = { u with link := u.linkClaiming g.shot spent, ring := { s.ring with roster := v.ring.roster } } ∧
           sameOtherEntries g.shot s v ∧ v.entry? g.shot = some spent.claiming) ∧
         (s.transfer.current ≠ some g.shot →
           v = { u with ring := { s.ring with roster := v.ring.roster } } ∧
           sameOtherEntries g.shot s v ∧ v.entry? g.shot = some spent)) ∧
       (b.cancelled = false → g.close ≠ none → s.transfer.current = some g.shot →
         u.passEnded g.shot (spent.mapParts fun p => if p.target then { p with transfer := .closed } else p) v)) ∧
  (∀ (f : WireFrame) (b : Bulk) (n : Shot) (d : Direction) (band : List Word16) (s : State),
     s.inForce → s.calm → f.faulty = false → f.malformed = false → f.kind = 0x40#8 →
     (∀ n' d' band', Msg.parse f.kind f.body = some (.seam n' d' band') → s.settings.gridShape = none ∨
       ∃ m, neighbour? s.settings.gridShape f.src.toNat d' = some m ∧ m ≠ s.self.toNat) →
     s.link.phase = .sending .bulk false → s.link.bulk = some b → b.frame.msg = .seam n d band → b.cancelled = false →
     exec (.frameEnd f false) s = .next (State.sleepTest
       { s with link := { s.link.ended with bulk := none }
                develop := { s.develop with owed := s.develop.owed.erase (n, d) } }))

/-- The rows of R162-R165, at a station that takes frames. A Segment without a card socket, a placement, a member of it or a grant
for it, or of another tile, is disregarded. Else it spends its grant: out of place it is discarded, and a waiting claim is served
from the freed buffer (R161; the service itself: `ClaimIsGrantedOrWaits`); the open flag at offset 0 restarts its member; accepted,
its block write is queued and the member's progress moves on, and a close flag closes the tile. A segment or tile sum that differs
asks for a Redo, or after three unplaces the shot: its queued block writes are cancelled, the waiting claims are served, an Ejecting
card whose last placement goes becomes Released (R140), and the sleep test follows. -/
def Obligations.SegmentIsAcceptedDiscardedOrRedone : Prop :=
  (∀ (source : Node) (b : SegmentBody) (s : State), s.takesFrames → s.calm →
    s.cardStation = false ∨ s.card.placed? b.shot = none ∨
      (∃ p, s.card.placed? b.shot = some p ∧ p.progress? source = none) ∨ s.card.grant? source = none ∨
      b.tile ≠ source.setWidth 8 ∨ (∃ g, s.card.grant? source = some g ∧ (g.shot ≠ b.shot ∨ g.unfilled = 0)) →
    exec (.segmentTaken source b) s = .next s) ∧
  ∀ (source : Node) (b : SegmentBody) (p : Placed) (m : Progress) (g : GrantRecord) (k : Socket) (s u : State),
    s.takesFrames → s.calm → s.cardStation = true → s.card.letter = some k → s.card.placed? b.shot = some p →
    p.progress? source = some m → s.card.grant? source = some g → b.tile = source.setWidth 8 → g.shot = b.shot →
    0 < g.unfilled → u = { s with card := s.card.spendGrant source } →
    (p.phase = .committing ∨ m.closed = true ∨
        (b.offset.toNat ≠ m.expected ∧ (b.openFlag = false ∨ b.offset ≠ 0#32)) ∨
        (b.offset.toNat = m.expected ∧ s.segmentFits b = false) →
      exec (.segmentTaken source b) s = .next u.serve) ∧
    (p.phase = .filling → m.closed = false →
      (b.openFlag = true → b.offset = 0#32 → m.expected ≠ 0 →
        exec (.segmentTaken source b) s = exec (.segmentTaken source b) (s.updProgress b.shot source fun q =>
          { q with expected := 0, running := 0#16, closed := false, close := none })) ∧
      (b.offset.toNat = m.expected → s.segmentFits b = true →
        (b.sum = 0#16 ∨ recorded (sumBytes b.payload) ≠ b.sum →
          (m.redos < 3 →
            exec (.segmentTaken source b) s = .next (State.serve
              { s with
                link := s.linkAfter 15#4 (.redo b.shot (source.setWidth 8) k .segmentSum)
                card := (s.card.spendGrant source).updPlaced b.shot
                  (Placed.updProgress source fun q => { q with redos := q.redos + 1 }) })) ∧
          (3 ≤ m.redos →
            exec (.segmentTaken source b) s = .next (State.serve (State.sleepTest (State.ejected (State.serve
              { u with
                card := { u.card.without b.shot with writes := cancelWrites (Write.ofPlaced p) s.card.writes }
                link := s.linkAfter 15#4 (.unplace b.shot k .sumFailure) })))))) ∧
        (b.sum ≠ 0#16 → recorded (sumBytes b.payload) = b.sum →
          (b.close = none ∨ (∃ c, b.close = some c ∧ onesAdd m.running b.sum = c.tileSum) →
            exec (.segmentTaken source b) s = .next
              { s with card := { (s.card.spendGrant source).updPlaced b.shot (fun q =>
                  Placed.updProgress source (fun r => { r with
                    expected := m.expected + b.payload.length, running := onesAdd m.running b.sum
                    closed := b.close.isSome, close := match b.close with | none => r.close | some c => some c })
                    { q with unwritten := q.unwritten + 1 }) with
                  writes := s.card.writes ++ [blockWrite s.settings source p b] } }) ∧
          (∀ c, b.close = some c → onesAdd m.running b.sum ≠ c.tileSum →
            (m.redos < 3 →
              exec (.segmentTaken source b) s = .next
                { s with
                  link := s.linkAfter 15#4 (.redo b.shot (source.setWidth 8) k .tileSum)
                  card := { (s.card.spendGrant source).updPlaced b.shot (fun q =>
                    Placed.updProgress source (fun r => { r with
                      expected := m.expected + b.payload.length, running := onesAdd m.running b.sum
                      close := some c, redos := r.redos + 1 })
                      { q with unwritten := q.unwritten + 1 }) with
                    writes := s.card.writes ++ [blockWrite s.settings source p b] } }) ∧
            (3 ≤ m.redos →
              exec (.segmentTaken source b) s = .next (State.sleepTest (State.ejected (State.serve
                { u with
                  card := { u.card.without b.shot with
                    writes := cancelWrites (Write.ofPlaced p) (s.card.writes ++ [blockWrite s.settings source p b]) }
                  link := s.linkAfter 15#4 (.unplace b.shot k .sumFailure) }))))))))

/-- The completions of card writes, from the head of the write queue. A block write frees its buffer, and with it the commit
may begin; a header write leaves the queue; an index write commits its shot, and the sleep test follows; a Void write reports
its shot discarded. Where a buffer or grants come free the waiting claims are served (R161; the service itself:
`ClaimIsGrantedOrWaits`), and an Ejecting card whose last write or placement goes becomes Released (R140).
MODEL'S CHOICE (log 8): a completion of another kind than the head's has no effect; MODEL'S INFERENCE (log 31): a cancelled
write that the card has begun reaches the card. -/
def Obligations.CardWritesTakeEffect : Prop :=
  (∀ (w : Write) (rest : List Write) (k : Socket) (s u : State),
    s.calm → s.card.writes = w :: rest → s.card.letter = some k → u = { s with card := { s.card.written w with writes := rest } } →
    (w.kind = .block →
      (w.cancelled = true → exec .cardBlockWriteComplete s = .next u.ejected) ∧
      (∀ (p : Placed) (v : State), w.cancelled = false → s.card.placed? w.shot = some p →
        v = State.serve { u with card := u.card.updPlaced w.shot fun q => { q with unwritten := q.unwritten - 1 } } →
        ((p.phase = .committing ∨ (∃ m ∈ p.progress, m.closed = false) ∨ 2 ≤ p.unwritten) →
          exec .cardBlockWriteComplete s = .next v.ejected) ∧
        (∀ e, p.phase = .filling → (∀ m ∈ p.progress, m.closed = true) → p.unwritten ≤ 1 → s.entry? w.shot = some e →
          exec .cardBlockWriteComplete s = .next (State.ejected
            { v with card := { v.card.updPlaced w.shot (fun q => { q with phase := .committing }) with
                writes := rest ++ commitWrites { p with unwritten := 0 } e } })))) ∧
    (w.kind = .header → exec .headerWriteComplete s = .next u.ejected) ∧
    (∀ f, w.kind = .index f →
      (w.cancelled = true → exec .indexWriteComplete s = .next u.ejected) ∧
      (∀ v : State, w.cancelled = false →
        v = State.serve { u with
          card := u.card.without w.shot
          link := s.linkAfter 15#4 (.commit w.shot k (BitVec.ofNat 16 w.frameNo) f) } →
        exec .indexWriteComplete s = .next (State.ejected (State.sleepTest
          { v with notices := v.notices.raise (.shotCommitted w.shot (some k) (BitVec.ofNat 16 w.frameNo) f) })))) ∧
    (w.kind = .void →
      exec .voidWriteComplete s = .next (State.ejected
        { u with link := s.linkAfter 15#4 (.unplace w.shot k .discarded) }))) ∧
  ∀ (w : Write) (rest : List Write) (k : Socket) (s : State),
    s.calm → s.card.writes = w :: rest → s.card.letter = some k → s.card.waiting = [] → s.card.state ≠ .ejecting →
    (w.kind = .block →
      (w.cancelled = true → exec .cardBlockWriteComplete s = .next { s with card := { s.card.written w with writes := rest } }) ∧
      (∀ p, w.cancelled = false → s.card.placed? w.shot = some p →
        ((p.phase = .committing ∨ (∃ m ∈ p.progress, m.closed = false) ∨ 2 ≤ p.unwritten) →
          ∃ t, exec .cardBlockWriteComplete s = .next t ∧
            t = { s with card := { s.card.written w with writes := rest, placements := t.card.placements } } ∧
            t.card.placements.length = s.card.placements.length ∧
            t.card.placed? w.shot = some { p with unwritten := p.unwritten - 1 }) ∧
        (∀ e, p.phase = .filling → (∀ m ∈ p.progress, m.closed = true) → p.unwritten = 1 → s.entry? w.shot = some e →
          ∃ t, exec .cardBlockWriteComplete s = .next t ∧
            t = { s with card := { s.card.written w with
                    writes := rest ++ commitWrites p e, placements := t.card.placements } } ∧
            t.card.placed? w.shot = some { p with unwritten := 0, phase := .committing }))) ∧
    (w.kind ≠ .block → exec .cardBlockWriteComplete s = .next s) ∧
    (w.kind = .header → exec .headerWriteComplete s = .next { s with card := { s.card.written w with writes := rest } }) ∧
    (w.kind ≠ .header → exec .headerWriteComplete s = .next s) ∧
    (∀ f, w.kind = .index f →
      (w.cancelled = true → exec .indexWriteComplete s = .next { s with card := { s.card.written w with writes := rest } }) ∧
      (w.cancelled = false →
        exec .indexWriteComplete s = .next (State.sleepTest
          { s with
            card := { s.card.written w with
              writes := rest
              placements := s.card.placements.eraseP (·.shot == w.shot)
              grants := s.card.grants.filter (·.shot != w.shot) }
            link := s.linkAfter 15#4 (.commit w.shot k (BitVec.ofNat 16 w.frameNo) f)
            notices := s.notices.raise (.shotCommitted w.shot (some k) (BitVec.ofNat 16 w.frameNo) f) }))) ∧
    ((∀ f, w.kind ≠ .index f) → exec .indexWriteComplete s = .next s) ∧
    (w.kind = .void →
      exec .voidWriteComplete s = .next
        { s with
          card := { s.card.written w with writes := rest }
          link := s.linkAfter 15#4 (.unplace w.shot k .discarded) }) ∧
    (w.kind ≠ .void → exec .voidWriteComplete s = .next s)

/-- An insertion starts the mount, and its last read settles it: below the minimum roll Failed, without a valid label
Unformatted, with an index that has a fault of R137 Failed, and else Ready with the roll of its label: a blank index gives the
cursors 0 and 65, and an index with Shot or Void entries the position after the last of them and the block after its extent. A
read error makes it Failed.
A write error makes the card Failed and a removal makes it Empty; each drops the placements and the Void writes with an
Unplace for each, clears the queue, the buffers, the grants and the waiting claims, and is followed by the sleep test (R183).
MODEL'S CHOICE (log 8): no effect where what a command speaks of is not there; MODEL'S INFERENCE (log 23): the first Shot or Void
entry begins at or after block 65, and at it where no Blank entry stands before. -/
def Obligations.CardIsMountedAndDropped : Prop :=
  (∀ (m : Medium) (s : State), s.calm →
     (s.cardStation = true → s.card.medium = none → s.card.state = .empty → s.power.state ≠ .sleep →
       exec (.cardInserted m) s = .next
         { s with
           card := { s.card with medium := some m, state := .mounting, roll := none }
           notices := s.notices.raise (.cardState s.card.letter .mounting 0#32 0#16 0#32) }) ∧
     (s.cardStation = false ∨ s.card.medium ≠ none → exec (.cardInserted m) s = .next s) ∧
     (s.card.state ≠ .mounting → exec .mountReadComplete s = .next s ∧ exec .mountReadError s = .next s) ∧
     (s.card.state = .mounting →
       exec .mountReadError s = .next
         { s with
           card := { s.card with state := .failed, roll := none }
           notices := s.notices.raise (.cardState s.card.letter .failed 0#32 0#16 0#32) }) ∧
     (s.card.state = .mounting → s.card.medium = some m → s.member.state ≠ .ready ∨ s.ring.roster = [] →
       (m.capacity < 65 + shotExtent s.settings (max 2 s.member.table.length) →
         exec .mountReadComplete s = .next
           { s with
             card := { s.card with state := .failed, roll := none }
             notices := s.notices.raise (.cardState s.card.letter .failed 0#32 0#16 0#32) }) ∧
       (65 + shotExtent s.settings (max 2 s.member.table.length) ≤ m.capacity → labelValid m = false →
         exec .mountReadComplete s = .next
           { s with
             card := { s.card with state := .unformatted, roll := none }
             notices := s.notices.raise (.cardState s.card.letter .unformatted 0#32 0#16 0#32) }) ∧
       (65 + shotExtent s.settings (max 2 s.member.table.length) ≤ m.capacity → labelValid m = true →
         (∀ e ∈ cardIndex m.bytes, e.kind = 0) →
         exec .mountReadComplete s = .next
           { s with
             card := { s.card with
               state := .ready
               roll := some { identity := BitVec.ofNat 32 (cardLabel m.bytes).2.2.1, blocks := (cardLabel m.bytes).2.2.2,
                              index := 0, write := 65 } }
             notices := s.notices.raise
               (.cardState s.card.letter .ready (BitVec.ofNat 32 (cardLabel m.bytes).2.2.1) 0#16 65#32) }) ∧
       (65 + shotExtent s.settings (max 2 s.member.table.length) ≤ m.capacity → labelValid m = true →
         (∃ e ∈ cardIndex m.bytes, 2 < e.kind ∨ (e.kind ≠ 0 ∧ (e.first < 65 ∨ (cardLabel m.bytes).2.2.2 < e.first + e.blocks))) →
         exec .mountReadComplete s = .next
           { s with
             card := { s.card with state := .failed, roll := none }
             notices := s.notices.raise (.cardState s.card.letter .failed 0#32 0#16 0#32) }) ∧
       (65 + shotExtent s.settings (max 2 s.member.table.length) ≤ m.capacity → labelValid m = true →
         (∃ j, indexFault (cardLabel m.bytes).2.2.2 (cardIndex m.bytes) j) →
         exec .mountReadComplete s = .next
           { s with
             card := { s.card with state := .failed, roll := none }
             notices := s.notices.raise (.cardState s.card.letter .failed 0#32 0#16 0#32) }) ∧
       (∀ (i : Nat) (last : IndexEntry),
         65 + shotExtent s.settings (max 2 s.member.table.length) ≤ m.capacity → labelValid m = true →
         (∀ j, ¬indexFault (cardLabel m.bytes).2.2.2 (cardIndex m.bytes) j) →
         (cardIndex m.bytes)[i]? = some last → last.kind ≠ 0 →
         (∀ j e, i < j → (cardIndex m.bytes)[j]? = some e → e.kind = 0) →
         exec .mountReadComplete s = .next
           { s with
             card := { s.card with
               state := .ready
               roll := some { identity := BitVec.ofNat 32 (cardLabel m.bytes).2.2.1, blocks := (cardLabel m.bytes).2.2.2,
                              index := i + 1, write := last.first + last.blocks } }
             notices := s.notices.raise (.cardState s.card.letter .ready (BitVec.ofNat 32 (cardLabel m.bytes).2.2.1)
               (BitVec.ofNat 16 (i + 1)) (BitVec.ofNat 32 (last.first + last.blocks))) }))) ∧
  (∀ s : State, s.calm →
     (((s.card.state = .ready ∨ s.card.state = .ejecting) ∧ s.card.writes ≠ []) ∨ s.card.state = .formatting →
       exec .cardWriteError s = .next (State.sleepTest
         { s with
           card := { letter := s.card.letter, medium := s.card.medium, state := .failed }
           link := s.linkDropping .cardFailed
           notices := s.notices.raise (.cardState s.card.letter .failed 0#32 0#16 0#32) })) ∧
     (s.card.state ≠ .formatting → (s.card.state ≠ .ready ∧ s.card.state ≠ .ejecting) ∨ s.card.writes = [] →
       exec .cardWriteError s = .next s) ∧
     (s.card.medium ≠ none → s.card.state ≠ .empty →
       exec .cardRemoved s = .next (State.sleepTest
         { s with
           card := { letter := s.card.letter }
           link := s.linkDropping .removed
           notices := s.notices.raise (.cardState s.card.letter .empty 0#32 0#16 0#32) })) ∧
     (s.card.medium ≠ none → s.card.state = .empty →
       exec .cardRemoved s = .next { s with card := { s.card with medium := none } }) ∧
     (s.card.medium = none → exec .cardRemoved s = .next s))

/-- The tables of Format and Eject, with the CardState of each change, two where an Eject passes to Released at once (R135, R140), and
the end of a format.
MODEL'S CHOICE (log 12): the label with a magic value of 0 is written at Format, the index and the valid label at the end; (log 51)
its other fields are those of the new roll; (log 52) the cursors in Formatting are 0 and 65, also in the notice; (log 8)
FORMAT_COMPLETE outside Formatting has no effect; (log 45) a socket byte that is no listed code names no socket of a station. -/
def Obligations.FormatAndEjectFollowTheirTables : Prop :=
  ∀ (h : ReqHeader) (socket : Byte) (m : Medium) (s : State), s.calm →
    (s.inForce →
      ((∀ k, s.card.letter = some k → socketCode k ≠ socket) →
        exec (.format h socket) s = .next { s with link := s.linkAnswering h 0x24#8 (.refused .notMember) } ∧
        exec (.eject h socket) s = .next { s with link := s.linkAnswering h 0x25#8 (.refused .notMember) }) ∧
      (∀ k, s.card.letter = some k → socketCode k = socket →
        (s.card.state = .empty ∨ s.card.state = .released ∨ s.card.state = .failed →
          exec (.format h socket) s = .next { s with link := s.linkAnswering h 0x24#8 (.refused .noCard) }) ∧
        (s.card.state = .mounting ∨ s.card.state = .formatting ∨ s.card.state = .ejecting ∨
            (s.card.state = .ready ∧ (s.card.placements ≠ [] ∨ s.card.writes ≠ [])) →
          exec (.format h socket) s = .next { s with link := s.linkAnswering h 0x24#8 (.refused .busy) }) ∧
        (∀ identity : Word32, s.card.state = .unformatted ∨
            (s.card.state = .ready ∧ s.card.placements = [] ∧ s.card.writes = []) → s.card.medium = some m →
          identity = (if s.clock.linkTime.setWidth 32 = 0#32 then 1#32 else s.clock.linkTime.setWidth 32) →
          exec (.format h socket) s = .next
            { s with
              link := s.linkAnswering h 0x24#8 .done
              card := { s.card with
                state := .formatting
                roll := some { identity := identity, blocks := min m.capacity 4294967295, index := 0, write := 65 }
                medium := some { m with
                  bytes := m.bytes.writeBytes 0 (labelBytes 0 identity (min m.capacity 4294967295)) } }
              notices := s.notices.raise (.cardState s.card.letter .formatting 0#32 0#16 65#32) }) ∧
        (s.card.state = .empty ∨ s.card.state = .failed →
          exec (.eject h socket) s = .next { s with link := s.linkAnswering h 0x25#8 (.refused .noCard) }) ∧
        (s.card.state = .mounting ∨ s.card.state = .formatting →
          exec (.eject h socket) s = .next { s with link := s.linkAnswering h 0x25#8 (.refused .busy) }) ∧
        (s.card.state = .ejecting ∨ s.card.state = .released →
          exec (.eject h socket) s = .next { s with link := s.linkAnswering h 0x25#8 .done }) ∧
        (s.card.state = .unformatted →
          exec (.eject h socket) s = .next
            { s with
              link := s.linkAnswering h 0x25#8 .done
              card := { s.card with state := .released, roll := none }
              notices := s.notices.raise (.cardState s.card.letter .released 0#32 0#16 0#32) }) ∧
        (s.card.state = .ready → s.card.placements ≠ [] ∨ s.card.writes ≠ [] →
          exec (.eject h socket) s = .next
            { s with
              link := s.linkAnswering h 0x25#8 .done
              card := { s.card with state := .ejecting }
              notices := s.notices.raise s.card.ejectingNotice }) ∧
        (s.card.state = .ready → s.card.placements = [] → s.card.writes = [] →
          exec (.eject h socket) s = .next
            { s with
              link := s.linkAnswering h 0x25#8 .done
              card := { s.card with state := .released, roll := none }
              notices := (s.notices.raise s.card.ejectingNotice).raise
                (.cardState s.card.letter .released 0#32 0#16 0#32) }))) ∧
    (s.card.state ≠ .formatting → exec .formatComplete s = .next s) ∧
    (∀ r, s.card.state = .formatting → s.card.medium = some m → s.card.roll = some r →
      s.member.state ≠ .ready ∨ s.ring.roster = [] → m.bytes.wf = true →
      ∃ t n, exec .formatComplete s = .next t ∧ t = { s with card := t.card, notices := t.notices } ∧
        t.card = { s.card with state := .ready, medium := some n } ∧ n.capacity = m.capacity ∧
        cardLabel n.bytes = (0x524F4C4C, 1, r.identity.toNat, r.blocks % 4294967296) ∧
        (∀ e ∈ cardIndex n.bytes, e.kind = 0) ∧
        (∀ a, 65 * 512 ≤ a → n.bytes.read a = m.bytes.read a) ∧
        t.notices = s.notices.raise (.cardState s.card.letter .ready r.identity (BitVec.ofNat 16 r.index)
          (BitVec.ofNat 32 r.write)))

/-! ## Requests (chapter 10) -/

/-- Before its own rule a Request meets the rows of R173, by the station state, the code, and whether its arguments can be
read; a station rolling without the rejoin flag is first excluded by it, or its roll call ends at once (R26), after an expiry of
the roll timer whose edge lies before it (R44). MODEL'S CHOICE (log 42): another station is one of another number; MODEL'S
INFERENCE (log 34): such an expiry is a due mark that the Request finds. -/
def Obligations.RequestsAreSettledByTheStationState : Prop :=
  ∀ (h : ReqHeader) (code : Byte) (args : List Byte) (c : Instr) (s : State),
    c = (Req.read code args).command h code → s.power.state ≠ .sleep →
    (s.member.state = .rolling → s.member.rejoin = false →
      ((s.timer .roll).due = true → ∀ u, exec s.rollRow s = .next u → exec c s = exec c u) ∧
      (s.calm → s.member.ownRollOut = false ∨ (∀ m ∈ s.member.table, m.number = s.self) →
        exec c s = exec c s.excludedByFrame) ∧
      (s.calm → s.member.ownRollOut = true → (∃ m ∈ s.member.table, m.number ≠ s.self) →
        exec c s = exec c s.endRollCall)) ∧
    (s.calm → s.member.state = .excluded → exec c s = .next { s with link := s.linkAnswering h code (.refused .excluded) }) ∧
    (s.calm → s.member.state = .duplicate → code ≠ 0x30#8 →
      exec c s = .next { s with link := s.linkAnswering h code (.refused .duplicate) }) ∧
    (s.calm → (s.member.state = .rolling ∧ s.member.rejoin = true) ∨ s.member.state = .configuring ∨ s.member.state = .ready ∨
        (s.member.state = .duplicate ∧ code = 0x30#8) →
      Req.read code args = .unreadable →
      exec c s = .next { s with link := s.linkAnswering h code (.refused .badValue) }) ∧
    (s.calm → s.member.state = .rolling → s.member.rejoin = true → Req.read code args ≠ .unreadable → code ≠ 0x30#8 →
      exec c s = .next { s with link := s.linkAnswering h code (.refused .badState) }) ∧
    (s.calm → s.member.state = .configuring → Req.read code args ≠ .unreadable →
      code ∈ [0x10#8, 0x11#8, 0x12#8, 0x13#8, 0x14#8, 0x15#8, 0x32#8] →
      exec c s = .next { s with link := s.linkAnswering h code (.refused .badState) }) ∧
    (s.calm → s.member.state = .ready → Req.read code args ≠ .unreadable → code ∈ [0x01#8, 0x02#8] →
      exec c s = .next { s with link := s.linkAnswering h code (.refused .locked) })

/-- Each item of R33 takes exactly the values of its range and step, and sets its own setting to the value. A Set in Configuring
refuses an unknown item, a value outside its range, a scope All item addressed to one station, and what R34 rules out; else it
records the value or the entry and clears the retained-settings flag. One that changes the tile size frees every slot, voids the
placements of the freed shots and makes the dark slot invalid; one that keeps it leaves ring and dark slot.
MODEL'S INFERENCE (log 20): the dark slot is kept at an unchanged size.
Begin in Configuring: the first of the six checks that fails is named in the refusal, and where all pass the station is
Ready and Disarmed with its retained configuration set. -/
def Obligations.SetAndBeginConfigureTheStation : Prop :=
  ((∀ (st : Settings) (item : Byte) (low high stride v : Nat) (f : Nat → Settings),
     (item, low, high, stride, f) ∈
       [(0x01#8, 1, 3, 1, fun v => { st with gridShape := some (if v = 1 then .g2x1 else if v = 2 then .g2x2 else .g3x2) }),
        (0x02#8, 1024, 8192, 16, fun v => { st with tileColumns := v }),
        (0x03#8, 1024, 8192, 16, fun v => { st with tileRows := v }),
        (0x04#8, 0, 1, 1, fun v => { st with syncMode := if v = 0 then .follow else .pulse }),
        (0x05#8, 0, 1, 1, fun v => { st with syncPolarity := if v = 0 then .closedLow else .closedHigh }),
        (0x06#8, 100, 2000, 100, fun v => { st with debounce := v }),
        (0x07#8, 50, 1000, 1, fun v => { st with skewTolerance := v }),
        (0x08#8, 1, 3600, 1, fun v => { st with exposureLimit := v }),
        (0x0A#8, 60, 3600, 1, fun v => { st with darkAgeLimit := v }),
        (0x0B#8, 1, 16383, 1, fun v => { st with hotThreshold := v }),
        (0x0C#8, 0, 1023, 1, fun v => { st with blackLevel := v }),
        (0x0D#8, 2048, 8192, 1, fun v => { st with flatGain := v }),
        (0x0F#8, 0, 1, 1, fun v => { st with ringFullPolicy := if v = 0 then .drop else .halt }),
        (0x10#8, 0, 1, 1, fun v => { st with blockedPolicy := if v = 0 then .drop else .halt }),
        (0x11#8, 0, 1, 1, fun v => { st with sensorBusyPolicy := if v = 0 then .drop else .halt }),
        (0x12#8, 50, 2000, 1, fun v => { st with seamTimeout := v }),
        (0x13#8, 8, 64, 8, fun v => { st with segmentSize := v }),
        (0x14#8, 0, 2, 1, fun v =>
          { st with storageMode := if v = 0 then .single else if v = 1 then .overflow else .mirror }),
        (0x15#8, 0, 1, 1, fun v => { st with wakeOnSync := decide (v = 1) }),
        (0x20#8, 0, 1, 1, fun v => { st with developMask := { st.developMask with clipped := decide (v = 1) } }),
        (0x21#8, 0, 1, 1, fun v => { st with developMask := { st.developMask with floored := decide (v = 1) } }),
        (0x22#8, 0, 1, 1, fun v => { st with developMask := { st.developMask with noDark := decide (v = 1) } }),
        (0x23#8, 0, 1, 1, fun v => { st with developMask := { st.developMask with skewed := decide (v = 1) } }),
        (0x24#8, 0, 1, 1, fun v => { st with developMask := { st.developMask with seamMissing := decide (v = 1) } }),
        (0x25#8, 0, 1, 1, fun v => { st with developMask := { st.developMask with defectOverflow := decide (v = 1) } }),
        (0x26#8, 0, 1, 1, fun v => { st with developMask := { st.developMask with limitReached := decide (v = 1) } })] →
     st.put item v = if low ≤ v ∧ v ≤ high ∧ v % stride = 0 then some (f v) else none) ∧
   (∀ (st : Settings) (v : Nat),
     (st.put 0x09#8 v = if v = 0 then some { st with darkThreshold := none }
       else if 500 ≤ v ∧ v ≤ 60000 then some { st with darkThreshold := some v } else none) ∧
     (∀ k, k < 11 → st.put (BitVec.ofNat 8 (0x30 + k)) v =
       if v ≤ 3 then some { st with noticeLevels := st.noticeLevels.set k v } else none) ∧
     (∀ item : Byte, item = 0x00#8 ∨ item = 0x0E#8 ∨ (0x15 < item.toNat ∧ item.toNat < 0x20) ∨
       (0x26 < item.toNat ∧ item.toNat < 0x30) ∨ 0x3A < item.toNat → st.put item v = none)) ∧
   (∀ (h : ReqHeader) (item : Byte) (value : Word32) (s : State),
     s.calm → s.power.state ≠ .sleep → s.member.state = .configuring →
     (item ≠ 0x0E#8 →
       (s.settings.put item value.toNat = none →
         exec (.setItem h item value) s = .next { s with link := s.linkAnswering h 0x01#8 (.refused .badValue) }) ∧
       (∀ st, s.settings.put item value.toNat = some st →
         (h.toAll = false → item ≠ 0x0D#8 →
           exec (.setItem h item value) s = .next { s with link := s.linkAnswering h 0x01#8 (.refused .badValue) }) ∧
         (item = 0x02#8 ∨ item = 0x03#8 → (∃ d ∈ s.dark.defects, st.tileRows ≤ d.row ∨ st.tileColumns ≤ d.column) →
           exec (.setItem h item value) s = .next { s with link := s.linkAnswering h 0x01#8 (.refused .badValue) }) ∧
         (h.toAll = true ∨ item = 0x0D#8 → item ≠ 0x02#8 → item ≠ 0x03#8 →
           exec (.setItem h item value) s = .next
             { s with
               member := { s.member with settings := st, retainedValid := false }
               link := s.linkAnswering h 0x01#8 .done }) ∧
         (h.toAll = true → item = 0x02#8 ∨ item = 0x03#8 →
           (∀ d ∈ s.dark.defects, d.row < st.tileRows ∧ d.column < st.tileColumns) →
           s.ring.roster = [] → s.develop.job = none → (∀ o ∈ s.ring.slots, o = none) →
           exec (.setItem h item value) s = .next
             { s with
               member := { s.member with settings := st, retainedValid := false }
               link := s.linkAnswering h 0x01#8 .done
               dark := { s.dark with valid := s.dark.valid &&
                 (decide (st.tileRows = s.settings.tileRows) && decide (st.tileColumns = s.settings.tileColumns)) } }) ∧
         (h.toAll = true → item = 0x02#8 ∨ item = 0x03#8 →
           (∀ d ∈ s.dark.defects, d.row < st.tileRows ∧ d.column < st.tileColumns) →
           (st.tileRows = s.settings.tileRows → st.tileColumns = s.settings.tileColumns →
             exec (.setItem h item value) s = .next
               { s with
                 member := { s.member with settings := st, retainedValid := false }
                 link := s.linkAnswering h 0x01#8 .done }) ∧
           (¬(st.tileRows = s.settings.tileRows ∧ st.tileColumns = s.settings.tileColumns) → s.ringOk →
             ∃ t, exec (.setItem h item value) s = .next t ∧
               t.member = { s.member with settings := st, retainedValid := false } ∧
               t.ring = { s.ring with roster := [], slots := List.replicate 8 none } ∧
               t.dark = { s.dark with valid := false } ∧
               (∀ k, s.develop.job = some k → (∃ e ∈ s.ring.roster, e.shot = k.shot) → t.develop.job = none) ∧
               ((s.card.placements.map (·.shot)).Nodup →
                 ∀ q, q ∈ t.card.placements ↔ q ∈ s.card.placements ∧ ∀ e ∈ s.ring.roster, e.shot ≠ q.shot) ∧
               t.capture = s.capture ∧ t.sync = s.sync ∧ t.power = s.power ∧ t.clock.linkTime = s.clock.linkTime)))) ∧
     (item = 0x0E#8 →
       (s.settings.tileRows ≤ value.toNat / 65536 ∨ s.settings.tileColumns ≤ value.toNat % 65536 →
         exec (.setItem h item value) s = .next { s with link := s.linkAnswering h 0x01#8 (.refused .badValue) }) ∧
       (value.toNat / 65536 < s.settings.tileRows → value.toNat % 65536 < s.settings.tileColumns →
         ((∀ d ∈ s.dark.defects, ¬(d.row = value.toNat / 65536 ∧ d.column = value.toNat % 65536)) →
           1024 ≤ s.dark.defects.length →
           exec (.setItem h item value) s = .next { s with link := s.linkAnswering h 0x01#8 (.refused .full) }) ∧
         ((∃ d ∈ s.dark.defects, d.row = value.toNat / 65536 ∧ d.column = value.toNat % 65536) →
           exec (.setItem h item value) s = .next
             { s with
               member := { s.member with retainedValid := false }
               link := s.linkAnswering h 0x01#8 .done }) ∧
         ((∀ d ∈ s.dark.defects, ¬(d.row = value.toNat / 65536 ∧ d.column = value.toNat % 65536)) →
           s.dark.defects.length < 1024 →
           ∃ t, exec (.setItem h item value) s = .next t ∧
             t = { s with
               member := { s.member with retainedValid := false }
               link := s.linkAnswering h 0x01#8 .done
               dark := { s.dark with defects := t.dark.defects } } ∧
             ∀ a, a ∈ t.dark.defects ↔ a ∈ s.dark.defects ∨
               a = { row := value.toNat / 65536, column := value.toNat % 65536, origin := .fixed }))))) ∧
  (∀ (h : ReqHeader) (s : State), s.calm → s.power.state ≠ .sleep → s.member.state = .configuring →
     (∀ i, 1 ≤ i → i ≤ 6 → ¬s.member.passes i → (∀ j, 1 ≤ j → j < i → s.member.passes j) →
       exec (.beginConf h) s = .next
         { s with
           link := s.linkAnswering h 0x02#8
             { result := .refused, reason := some .badValue, data := [BitVec.ofNat 8 i] } }) ∧
     ((∀ i, 1 ≤ i → i ≤ 6 → s.member.passes i) →
       ∃ t, exec (.beginConf h) s = .next t ∧
         t.member = { s.member with
           state := .ready, retainedValid := true, retained := s.member.table.map fun m => (m.number, m.serial) } ∧
         t.capture = { s.capture with state := .disarmed } ∧ t.clock = s.clock ∧ t.sync = s.sync ∧ t.dark = s.dark ∧
         t.power = s.power ∧ t.ring.next = s.ring.next ∧ t.ring.top = s.ring.top ∧
         (s.ring.roster = [] → (∀ o ∈ s.ring.slots, o = none) →
           t = { s with member := t.member, capture := t.capture, link := s.linkAnswering h 0x02#8 .done })))

/-- The table of R54 for Arm, Disarm and Resume in Ready; Arm taken in Doze returns the station to Active (R185).
The tables of Release, Exposure and TakeDark in Ready.
MODEL'S INFERENCE (log 19, from R174): an Arm that is answered Refused leaves a station in Doze; MODEL'S CHOICE (log 57): Resume at
a station Halted in Doze makes it Armed and leaves it in Doze. -/
def Obligations.CaptureRequestsFollowTheirTables : Prop :=
  (∀ (h : ReqHeader) (s : State), s.calm → s.power.state ≠ .sleep → s.member.state = .ready →
     (s.capture.state = .halted ∨ s.capture.haltPending = true →
       exec (.arm h) s = .next { s with link := s.linkAnswering h 0x10#8 (.refused .badState) }) ∧
     (s.capture.haltPending = false →
       (s.capture.state = .disarmed →
         exec (.arm h) s = .next
           { s with
             power := s.powerAtArm
             capture := { s.capture with state := .armed }
             sync := { s.sync with bounces := 0 }
             link := s.linkAnswering h 0x10#8 .done }) ∧
       (s.capture.state = .armed →
         exec (.arm h) s = .next { s with power := s.powerAtArm, link := s.linkAnswering h 0x10#8 .done }) ∧
       (s.capture.state.working = true →
         exec (.arm h) s = .next
           { s with
             power := s.powerAtArm
             capture := { s.capture with disarmPending := false }
             link := s.linkAnswering h 0x10#8 .done })) ∧
     (s.capture.state.working = false →
       exec (.disarm h) s = .next
         { s with
           capture := { s.capture with state := .disarmed, pendingRelease := none }
           clock := { s.clock with alarm := none }
           link := s.linkAnswering h 0x11#8 .done }) ∧
     (s.capture.state.working = true →
       exec (.disarm h) s = .next
         { s with
           capture := { s.capture with disarmPending := true, haltPending := false, pendingRelease := none }
           clock := { s.clock with alarm := none }
           link := s.linkAnswering h 0x11#8 .done }) ∧
     (s.capture.state = .halted →
       exec (.resume h) s = .next
         { s with
           capture := { s.capture with state := .armed }
           sync := { s.sync with bounces := 0 }
           link := s.linkAnswering h 0x12#8 .done }) ∧
     (s.capture.state ≠ .halted → s.capture.haltPending = true →
       exec (.resume h) s = .next
         { s with capture := { s.capture with haltPending := false }, link := s.linkAnswering h 0x12#8 .done }) ∧
     (s.capture.state ≠ .halted → s.capture.haltPending = false →
       exec (.resume h) s = .next { s with link := s.linkAnswering h 0x12#8 (.refused .badState) })) ∧
  (∀ (h : ReqHeader) (T : Time) (v : Word32) (s : State), s.calm → s.power.state ≠ .sleep → s.member.state = .ready →
     (s.member.straps.fitted.release = false →
       exec (.release h T) s = .next { s with link := s.linkAnswering h 0x13#8 (.refused .notMember) }) ∧
     (s.member.straps.fitted.release = true →
       (s.capture.state ≠ .armed →
         exec (.release h T) s = .next { s with link := s.linkAnswering h 0x13#8 (.refused .badState) }) ∧
       (s.capture.state = .armed →
         (s.clock.linkTime.toNat + 60000000 < T.toNat →
           exec (.release h T) s = .next { s with link := s.linkAnswering h 0x13#8 (.refused .badValue) }) ∧
         (T ≤ s.clock.linkTime →
           exec (.release h T) s = .next
             { s with
               capture := { s.capture with pendingRelease := none }
               clock := { s.clock with alarm := none, pulse := some 0 }
               link := s.linkAnswering h 0x13#8 (.doneWith [1#8]) }) ∧
         (s.clock.linkTime < T → T.toNat ≤ s.clock.linkTime.toNat + 60000000 →
           exec (.release h T) s = .next
             { s with
               capture := { s.capture with pendingRelease := some T }
               clock := { s.clock with alarm := some T }
               link := s.linkAnswering h 0x13#8 (.doneWith [0#8]) }))) ∧
     (100 ≤ v.toNat → v.toNat ≤ 1000000 →
       exec (.exposure h v) s = .next
         { s with capture := { s.capture with shutter := v.toNat }, link := s.linkAnswering h 0x14#8 .done }) ∧
     (v.toNat < 100 ∨ 1000000 < v.toNat →
       exec (.exposure h v) s = .next { s with link := s.linkAnswering h 0x14#8 (.refused .badValue) }) ∧
     (s.capture.state ≠ .armed →
       exec (.takeDark h v) s = .next { s with link := s.linkAnswering h 0x15#8 (.refused .badState) }) ∧
     (s.capture.state = .armed →
       (v = 0#32 ∨ 3600000 < v.toNat →
         exec (.takeDark h v) s = .next { s with link := s.linkAnswering h 0x15#8 (.refused .badValue) }) ∧
       (1 ≤ v.toNat → v.toNat ≤ 3600000 →
         ∃ t, exec (.takeDark h v) s = .next t ∧
           t = { s with
             capture := { s.capture with state := .darkExposing }
             dark := { s.dark with
               valid := false
               capture := some { phase := .exposing, shot := 0#32, duration := v.toNat * 1000, captureEnd := none,
                                 scanned := 0 } }
             clock := { s.clock with timers := { s.clock.timers with
               dark := { s.clock.timers.dark with request := .load (v.toNat * 100) } } }
             link := s.linkAnswering h 0x15#8 .done
             ring := { s.ring with slots := t.ring.slots }
             develop := { s.develop with job := t.develop.job } } ∧
           ∀ n x, s.slot? n = some x → ∃ y, t.slot? n = some y ∧ y = { x with dark := y.dark } ∧
             (x.dark = some .used → x.tag = .raw → y.dark = some .none) ∧ (x.dark ≠ some .used → y.dark = x.dark))))

/-- The tables of Keep, Discard and ForgetHot, with their answers. A kept tile is open to the Transfer Unit, which may choose it
(R153). A Discard frees the slot (R89): its job stops, its bands, owed Seams and bulk frame go, the Transfer Unit leaves the tile
and chooses again, and a placement that goes with the shot is voided and returns its buffers and grants, from which the waiting
claims are served (R131, R149, R161, R170; the service itself: `ClaimIsGrantedOrWaits`); Done is the last frame. The sleep test
(R183) follows. -/
def Obligations.KeepDiscardAndForgetHot : Prop :=
  ∀ (h : ReqHeader) (n : Shot) (s : State), s.inForce → s.calm → s.ringOk →
    (s.entry? n = none →
      exec (.keep h n) s = .next { s with link := s.linkAnswering h 0x20#8 (.refused .notFound) }) ∧
    (∀ x, s.slot? n = some x →
      (x.tag ≠ .held → exec (.keep h n) s = .next { s with link := s.linkAnswering h 0x20#8 (.refused .badState) }) ∧
      (x.tag = .held →
        ∃ u v : State, exec (.keep h n) s = .next { v with link := v.linkAnswering h 0x20#8 .done } ∧
          u = { s with ring := { s.ring with slots := u.ring.slots } } ∧ u.slot? n = some { x with tag := .developed } ∧
          sameOtherSlots n s u ∧ u.tileChosen v)) ∧
    (h.toAll = false →
      exec (.discard h n) s = .next { s with link := s.linkAnswering h 0x21#8 (.refused .badValue) }) ∧
    (h.toAll = true →
      (s.entry? n = none →
        exec (.discard h n) s = .next { s with link := s.linkAnswering h 0x21#8 (.refused .notFound) }) ∧
      (∀ x, s.slot? n = some x →
        (x.tag = .exposing ∨ x.tag = .reading →
          exec (.discard h n) s = .next { s with link := s.linkAnswering h 0x21#8 (.refused .busy) }) ∧
        (x.tag = .raw ∨ x.tag = .developing ∨ x.tag = .held ∨ x.tag = .developed →
          ∃ t u v w : State, exec (.discard h n) s = .next t.sleepTest ∧ s.shotGone n u ∧
            (s.transfer.current ≠ some n → v = u) ∧
            (s.transfer.current = some n → State.tileChosen { u with transfer := { u.transfer with current := none } } v) ∧
            (s.card.placed? n = none → w = v) ∧
            (∀ p e, s.card.placed? n = some p → s.entry? n = some e →
              w = (State.serve { v with card := { s.card.without n with
                writes := cancelWrites (Write.ofPlaced p) s.card.writes ++ [p.voidRecord p.closeFlags e] } }).ejected) ∧
            t = { w with link := w.linkAnswering h 0x21#8 .done, ring := t.ring, develop := t.develop } ∧
            t.entry? n = none ∧ t.slot? n = none ∧ t.ring.top = s.ring.top ∧ t.ring.next = s.ring.next ∧
            t.card.placements = s.card.placements.eraseP (·.shot == n) ∧ t.capture = s.capture ∧ t.member = s.member ∧
            t.sync = s.sync ∧ t.power = s.power ∧ t.dark = s.dark ∧
            (∀ m, m ≠ n → t.entry? m = v.entry? m ∧ (t.entry? m).isSome = (s.entry? m).isSome) ∧
            (∀ m y, m ≠ n → s.slot? m = some y → (y.tag ≠ .raw → t.slot? m = some y) ∧
              (y.tag = .raw → t.slot? m = some y ∨ t.slot? m = some { y with tag := .developing }))))) ∧
    ((∃ m x, s.slot? m = some x ∧ x.tag = .developing) ∨ (∃ k, s.dark.capture = some k ∧ k.phase = .scanning) →
      exec (.forgetHot h) s = .next { s with link := s.linkAnswering h 0x22#8 (.refused .busy) }) ∧
    ((∀ m x, s.slot? m = some x → x.tag ≠ .developing) → (∀ k, s.dark.capture = some k → k.phase ≠ .scanning) →
      exec (.forgetHot h) s = .next
        { s with
          dark := { s.dark with defects := s.dark.defects.filter (·.origin != .hot), overflow := 0 }
          link := s.linkAnswering h 0x22#8 .done })

/-- Histogram answers the shot and its bins for the shot the statistics area holds, and NoData otherwise; Status answers its
report, the bytes as the layout of R195 places them, and then clears the records of the classes at level 0 (R176). -/
def Obligations.HistogramAndStatusReport : Prop :=
  ∀ (h : ReqHeader) (n : Shot) (s : State), s.calm → s.power.state ≠ .sleep →
    (s.inForce →
      (∀ bins, s.develop.stats = .histogram n bins → n ≠ 0#32 →
        exec (.histogram h n) s = .next
          { s with link := s.linkAnswering h 0x23#8 (.report (beBytes 4 n.toNat ++ bins.flatMap (beBytes 4))) }) ∧
      (n = 0#32 ∨ (∀ bins, s.develop.stats ≠ .histogram n bins) →
        exec (.histogram h n) s = .next { s with link := s.linkAnswering h 0x23#8 (.refused .noData) })) ∧
    (s.inForce ∨ s.member.state = .duplicate ∨ (s.member.state = .rolling ∧ s.member.rejoin = true) →
      s.notices.records.length = 11 → s.settings.noticeLevels.length = 11 →
      ∃ t, exec (.status h) s = .next t ∧
        t = { s with link := s.linkAnswering h 0x30#8 (.report s.report), notices := t.notices } ∧
        t.notices.records.length = 11 ∧
        ∀ i, i < 11 → t.notices.records.getD i none =
          if s.settings.noticeLevels.getD i 0 = 0 then none else s.notices.records.getD i none) ∧
    (s.ring.slots.length = 8 → s.reportedAs s.report)

/-- DumpWake in Configuring and Ready: a wake record held is answered and the area becomes invalid; a histogram, or an invalid
area, is answered NoData and nothing changes. While the area holds the wake record a Histogram is answered NoData; a completed
develop job writes its histogram over it. -/
def Obligations.DumpWakeReturnsTheRecordOnce : Prop :=
  ∀ (h : ReqHeader) (s : State), s.inForce → s.calm →
    (∀ bytes, s.develop.stats = .wakeRecord bytes →
      exec (.dumpWake h) s = .next
        { s with
          develop := { s.develop with stats := .invalid }
          link := s.linkAnswering h 0x31#8 { result := .data, reason := none, data := bytes } }) ∧
    (∀ n bins, s.develop.stats = .histogram n bins ∨ s.develop.stats = .invalid →
      exec (.dumpWake h) s = .next
        { s with link := s.linkAnswering h 0x31#8 { result := .refused, reason := some .noData, data := [] } }) ∧
    (∀ bytes, s.develop.stats = .wakeRecord bytes →
      (∀ n, exec (.histogram h n) s = .next { s with link := s.linkAnswering h 0x23#8 (.refused .noData) }) ∧
      (∀ j x, s.ringOk → s.develop.job = some j → j.phase = .finish → s.slot? j.shot = some x →
        ∃ t bins, exec .phaseFinishComplete s = .next t ∧ t.develop.stats = .histogram j.shot bins))

/-! ## Power (chapter 11) -/

/-- A Sleep request in Ready enters Doze, with the capture state forced toward Disarmed; Sleep itself is entered from Doze once
nothing is in the ring, on the placement list, in development or in a queue, and it leaves the blocks as given. The sleep test is
made in the event of a Sleep request that enters Doze (R182, R183), and SLEEP_ENTRY is the test itself.
MODEL'S CHOICE (log 13): the slot areas and the dark samples are empty after the entry; (log 4) a Sleep request taken in Doze
makes no test of its own. -/
def Obligations.SleepPassesThroughDoze : Prop :=
  ∀ (h : ReqHeader) (s : State), s.calm →
    exec .sleepEntry s = .next s.sleepTest ∧
    (s.member.state = .ready → s.power.state = .doze →
      exec (.sleep h) s = .next { s with link := s.linkAnswering h 0x32#8 .done }) ∧
    (s.member.state = .ready → s.power.state = .active →
      ∃ t : State, exec (.sleep h) s = .next t.sleepTest ∧
        t = { s with power := { s.power with state := .doze, sleepPending := true }, capture := t.capture, clock := t.clock,
                     link := s.linkAnswering h 0x32#8 .done } ∧
        t.clock.alarm = none ∧ t.clock.linkTime = s.clock.linkTime ∧ t.clock.pulse = s.clock.pulse ∧
        t.capture = { s.capture with
          pendingRelease := none, haltPending := false
          state := if s.capture.state.working then s.capture.state else .disarmed
          disarmPending := if s.capture.state.working then true else s.capture.disarmPending }) ∧
    (s.power.state ≠ .doze ∨ (∃ o ∈ s.ring.slots, o ≠ none) ∨ s.card.placements ≠ [] ∨ s.develop.job ≠ none ∨
        (s.link.detached = false ∧ (s.link.urgent ≠ [] ∨ s.link.control ≠ [] ∨ s.link.urgentHeld ≠ [] ∨
          s.link.controlHeld ≠ [])) →
      exec .sleepEntry s = .next s) ∧
    (s.power.state = .doze → (∀ o ∈ s.ring.slots, o = none) → s.card.placements = [] → s.develop.job = none →
      (s.link.detached = true ∨ (s.link.urgent = [] ∧ s.link.control = [] ∧ s.link.urgentHeld = [] ∧
        s.link.controlHeld = [])) →
      ∃ t, exec .sleepEntry s = .next t ∧
        t.power = { state := .sleep, sleepPending := false, wakeCause := none, candidate := none
                    latched := if s.member.straps.fitted.sync then s.sync.accepted
                               else some s.settings.syncPolarity.openLevel } ∧
        t.clock = { s.clock with
          alarm := none, pulse := none
          timers := { roll := {}, mark := {}, attribution := {}, pulse := {}, exposureLimit := {}, dark := {}, quiet := {},
                      seam := {} } } ∧
        t.capture = { s.capture with
          state := .disarmed, disarmPending := false, haltPending := false, exposure := none, quiet := []
          pendingRelease := none } ∧
        t.dark = { s.dark with valid := false, capture := none, samples := [] } ∧
        t.card = { letter := s.card.letter, medium := s.card.medium } ∧
        t.notices.records = List.replicate 11 none ∧
        t.ring = { s.ring with areas := List.replicate 8 {} } ∧
        t.member = s.member ∧ t.develop = s.develop ∧ t.link = s.link ∧ t.transfer.current = none ∧
        t.sync = { s.sync with candidate := none } ∧ t.pending = s.pending)

/-- A Wake that names the station returns it from Doze to Active and wakes it from Sleep with cause Frame; a sync level that
has lasted its interval wakes it with cause Sync, and an insertion with cause Card. A wake writes the wake record, empties the
link's queues, queues Wake to 15 with its cause where the cause is its own, starts the mark timer, mounts the card that is in the
socket (R151), enters Rolling with the rejoin flag and raises Woke.
In Sleep with WakeOnSync On, a level other than the latched one that lasts its interval wakes the station; a return to the
latched level ends the test and counts nothing.
MODEL'S CHOICE (log 9): the interval is measured by the samples counted, ten microseconds each; (log 53): the CardState of the
mount's beginning is pending beside Woke. -/
def Obligations.WakesEnterTheRejoinRollCall : Prop :=
  (∀ (source : Node) (mask : Byte) (cause : WakeFrameCause) (s : State), s.calm →
     (mask.getLsbD s.self.toNat = false ∨ s.power.state = .active →
       exec (.wakeTaken source mask cause) s = .next s) ∧
     (mask.getLsbD s.self.toNat = true → s.power.state = .doze →
       exec (.wakeTaken source mask cause) s = .next
         { s with power := { s.power with state := .active, sleepPending := false } }) ∧
     (mask.getLsbD s.self.toNat = true → s.power.state = .sleep →
       ∃ t, exec (.wakeTaken source mask cause) s = .next t ∧
         s.wokenAs .frame (wakeRecordBytes .frame (source.setWidth 8) 2 s.clock.linkTime (Msg.wake mask cause).body) t ∧
         s.mountsAtWake t ∧ t.link.control = s.rollAtEntry true) ∧
     (∀ a c, s.power.state = .sleep → s.member.straps.fitted.sync = true → s.settings.wakeOnSync = true →
       s.power.latched = some a → s.power.candidate = some c → c.interval ≤ c.samples * 10 →
       ∃ t, exec .syncWake s = .next t ∧ s.wokenAs .sync (wakeRecordBytes .sync 15#8 0 s.clock.linkTime []) t ∧
         s.mountsAtWake t ∧ s.wakeQueued .sync t) ∧
     (∀ m, s.power.state = .sleep → s.cardStation = true → s.card.medium = none →
       ∃ t, exec (.cardInserted m) s = .next t ∧ s.wokenAs .card (wakeRecordBytes .card 15#8 0 s.clock.linkTime []) t ∧
         t.card = { s.card with medium := some m, state := .mounting, roll := none } ∧
         t.notices.records.getD 5 none = some { data := .cardState s.card.letter .mounting 0#32 0#16 0#32, count := 1 } ∧
         s.wakeQueued .card t)) ∧
  (∀ (a : Level) (s : State),
     s.power.state = .sleep → s.member.straps.fitted.sync = true → s.settings.wakeOnSync = true → s.power.latched = some a →
     exec (.syncSample a) s = .next { s with power := { s.power with candidate := none } } ∧
     (s.power.candidate = none → exec (.syncSample (Level.other a)) s = .next
       { s with power := { s.power with
           candidate := some { since := s.clock.linkTime, samples := 1, interval := s.settings.debounce } } }) ∧
     (∀ c, s.power.candidate = some c → c.samples * 10 < c.interval → exec (.syncSample (Level.other a)) s = .next
       { s with power := { s.power with candidate := some { c with samples := c.samples + 1 } } }) ∧
     (∀ c, s.power.candidate = some c → c.interval ≤ c.samples * 10 →
       exec (.syncSample (Level.other a)) s = exec .syncWake s))

/-! ## The whole machine -/

/-- A frame as a station puts it on the link is free of fault and not malformed, and its body read back by its kind is the
frame: no field of a frame that is taken is lost or read for another. Answers and Notices are left out: they go to no block of a
station (R2, R172), and no station reads one. -/
def Obligations.FramesReadBackAsSent : Prop :=
  ∀ (source : Node) (dst : BitVec 4) (m : Msg), source ≠ 6#3 → takenBody m = true →
    Msg.parse m.kind m.body = some m ∧ (Frame.wire source { dst := dst, msg := m }).faulty = false ∧
      (Frame.wire source { dst := dst, msg := m }).malformed = false

/-- Every step keeps the card's bytes in canonical form, the queues and the buffer pool within their capacities, the fixed
number of slots, slot areas and notice records, every setting in its range (R33), and every timer's count and length within the
16 bits of a channel or the 32 bits of a wide timer (R45). -/
def Obligations.StepsKeepTheCapacities : Prop :=
  ∀ s t : State, s.withinCapacity → (∀ c ∈ s.pending, c.wf = true) → step s = .next t →
    t.withinCapacity ∧ ∀ c ∈ t.pending, c.wf = true

/-- Every step keeps slots and roster entries in step with one another, the shots of the ring rising from the oldest to TOP and
below the next shot number (R82, R80), and the placement list without a second entry of a shot and without a shot that the roster does not hold (R148,
R149). -/
def Obligations.StepsKeepRosterAndRingTogether : Prop :=
  ∀ s t : State, s.shotsInStep → step s = .next t → t.shotsInStep

/-- After reset the machine is within its capacities, and its ring and roster are in step. -/
def Obligations.ResetKeepsTheInvariants : Prop :=
  State.reset.withinCapacity ∧ State.reset.shotsInStep ∧ State.reset.pending = []
end

