-- ==== Sys2Proof/Laws/Card.lean ====
section
/-! SUPPORT. What a change of the first matching element of a list does (placements, progress and grants are kept so), and the
card's shared operations in the words of the statements (R140, R161-R165). -/

namespace Sys2Proof.Machine

/-! ## The first that matches -/

/-- Nothing is lost or added. -/
theorem updFirst_length {α : Type} (p : α → Bool) (f : α → α) (l : List α) : (updFirst p f l).length = l.length := by
  induction l with
  | nil => rfl
  | cons a as ih => unfold updFirst; split <;> simp [ih]

/-- The element that is found is the changed one. -/
theorem updFirst_find {α : Type} (p : α → Bool) (f : α → α) (hf : ∀ a, p (f a) = p a) (l : List α) (x : α) (h : l.find? p = some x) :
    (updFirst p f l).find? p = some (f x) := by
  induction l with
  | nil => cases h
  | cons a as ih =>
    cases ha : p a with
    | true =>
      rw [List.find?_cons, ha] at h
      cases h
      simp [updFirst, ha, hf]
    | false =>
      rw [List.find?_cons, ha] at h
      simp only [updFirst, ha, Bool.false_eq_true, if_false, List.find?_cons]
      exact ih h

/-- What is looked for among the others is found as before. -/
theorem updFirst_find_other {α : Type} (p q : α → Bool) (f : α → α) (l : List α) (h : ∀ a, p a = true → q a = false ∧ q (f a) = false) :
    (updFirst p f l).find? q = l.find? q := by
  induction l with
  | nil => rfl
  | cons a as ih =>
    unfold updFirst
    split
    · rename_i hp
      simp [h a hp]
    · simp only [List.find?_cons, ih]

/-- Two changes of the first that matches are one. -/
theorem updFirst_comp {α : Type} (p : α → Bool) (f g : α → α) (hf : ∀ a, p (f a) = p a) (l : List α) :
    updFirst p g (updFirst p f l) = updFirst p (fun a => g (f a)) l := by
  induction l with
  | nil => rfl
  | cons a as ih => cases h : p a <;> simp [updFirst, h, hf, ih]

/-- A change matters at the element that is found alone. -/
theorem updFirst_congr {α : Type} (p : α → Bool) (f g : α → α) (l : List α) (h : ∀ x, l.find? p = some x → f x = g x) :
    updFirst p f l = updFirst p g l := by
  induction l with
  | nil => rfl
  | cons a as ih =>
    cases hp : p a with
    | true => simp only [updFirst, hp, if_true]; rw [h a (by simp [hp])]
    | false =>
      simp only [updFirst, hp, Bool.false_eq_true, if_false]
      rw [ih fun x hx => h x (by simpa [hp] using hx)]

/-- An element that is taken out need not be changed first. -/
theorem updFirst_eraseP {α : Type} (p : α → Bool) (f : α → α) (hf : ∀ a, p (f a) = p a) (l : List α) :
    (updFirst p f l).eraseP p = l.eraseP p := by
  induction l with
  | nil => rfl
  | cons a as ih => cases h : p a <;> simp [updFirst, h, hf, ih]

/-- Two changes of a placement are one, whatever the write queue becomes between them. -/
theorem Card.updPlaced_updPlaced (n : Shot) (f g : Placed → Placed) (hf : ∀ p, (f p).shot = p.shot) (w : List Write) (c : Card) :
    Card.updPlaced n g { Card.updPlaced n f c with writes := w } =
      { Card.updPlaced n (fun p => g (f p)) c with writes := w } := by
  unfold Card.updPlaced
  dsimp only
  rw [updFirst_comp _ _ _ (fun a => by rw [hf])]

/-- Two changes of a member's progress are one. -/
theorem Placed.updProgress_updProgress (m : Node) (f g : Progress → Progress) (hf : ∀ p, (f p).member = p.member) (q : Placed) :
    Placed.updProgress m g (Placed.updProgress m f q) = Placed.updProgress m (fun r => g (f r)) q := by
  unfold Placed.updProgress
  dsimp only
  rw [updFirst_comp _ _ _ (fun a => by rw [hf])]

/-! ## The card -/

/-- The length rows of R162 in the words of the statements. -/
theorem badLength_eq (b : SegmentBody) (s : State) : badLength s.settings b = !s.segmentFits b := by
  unfold badLength State.segmentFits
  rw [Bool.eq_iff_iff]
  cases h : b.close with
  | none => by_cases h1 : b.payload.length = segmentBytes s.settings <;> simp [h1]
  | some c => simp

/-- The eject test in the words of the statements (R140). -/
theorem State.ejectTest_eq (s : State) : s.ejectTest = s.ejected := by
  unfold State.ejectTest State.ejected State.doIf
  by_cases h : s.card.state = .ejecting ∧ s.card.placements = [] ∧ s.card.writes = []
  · rw [if_pos (by simp [h]), if_pos h]; rfl
  · rw [if_neg h, if_neg]; simpa [and_assoc] using h

/-- With no claim waiting the service does nothing (R161). -/
theorem State.serve_nothing (s : State) (h : s.card.waiting = []) : s.serve = s := by
  unfold State.serve
  rw [h]
  rfl

/-- An Unplace for SumFailure: the placement is dropped with its queued writes, the waiting claims are served, and the eject test
is made (R165). -/
theorem State.unplaceSumFailure_eq (p : Placed) (k : Socket) (s : State) (hk : s.card.letter = some k) :
    s.unplaceSumFailure p = (State.serve
      { s with
        card := { s.card.without p.shot with writes := cancelWrites (Write.ofPlaced p) s.card.writes }
        link := s.linkAfter 15#4 (.unplace p.shot k .sumFailure) }).ejected := by
  unfold State.unplaceSumFailure
  rw [hk]
  dsimp only
  rw [State.ejectTest_eq]
  rfl

end Sys2Proof.Machine
end

