-- ==== Sys2Proof/Laws/State.lean ====
section
/-! SUPPORT. What each update of one block does to each field of the state, true by definition and ready for `simp`, and the
laws of conditional updates and of timer updates. -/

namespace Sys2Proof.Machine

/-! `onMember` -/

@[simp] theorem State.onMember_member (f : Membership → Membership) (s : State) : (s.onMember f).member = f s.member := rfl
@[simp] theorem State.onMember_link (f : Membership → Membership) (s : State) : (s.onMember f).link = s.link := rfl
@[simp] theorem State.onMember_clock (f : Membership → Membership) (s : State) : (s.onMember f).clock = s.clock := rfl
@[simp] theorem State.onMember_sync (f : Membership → Membership) (s : State) : (s.onMember f).sync = s.sync := rfl
@[simp] theorem State.onMember_capture (f : Membership → Membership) (s : State) : (s.onMember f).capture = s.capture := rfl
@[simp] theorem State.onMember_ring (f : Membership → Membership) (s : State) : (s.onMember f).ring = s.ring := rfl
@[simp] theorem State.onMember_dark (f : Membership → Membership) (s : State) : (s.onMember f).dark = s.dark := rfl
@[simp] theorem State.onMember_develop (f : Membership → Membership) (s : State) : (s.onMember f).develop = s.develop := rfl
@[simp] theorem State.onMember_transfer (f : Membership → Membership) (s : State) : (s.onMember f).transfer = s.transfer := rfl
@[simp] theorem State.onMember_card (f : Membership → Membership) (s : State) : (s.onMember f).card = s.card := rfl
@[simp] theorem State.onMember_notices (f : Membership → Membership) (s : State) : (s.onMember f).notices = s.notices := rfl
@[simp] theorem State.onMember_power (f : Membership → Membership) (s : State) : (s.onMember f).power = s.power := rfl
@[simp] theorem State.onMember_pending (f : Membership → Membership) (s : State) : (s.onMember f).pending = s.pending := rfl

/-! `onLink` -/

@[simp] theorem State.onLink_member (f : Link → Link) (s : State) : (s.onLink f).member = s.member := rfl
@[simp] theorem State.onLink_link (f : Link → Link) (s : State) : (s.onLink f).link = f s.link := rfl
@[simp] theorem State.onLink_clock (f : Link → Link) (s : State) : (s.onLink f).clock = s.clock := rfl
@[simp] theorem State.onLink_sync (f : Link → Link) (s : State) : (s.onLink f).sync = s.sync := rfl
@[simp] theorem State.onLink_capture (f : Link → Link) (s : State) : (s.onLink f).capture = s.capture := rfl
@[simp] theorem State.onLink_ring (f : Link → Link) (s : State) : (s.onLink f).ring = s.ring := rfl
@[simp] theorem State.onLink_dark (f : Link → Link) (s : State) : (s.onLink f).dark = s.dark := rfl
@[simp] theorem State.onLink_develop (f : Link → Link) (s : State) : (s.onLink f).develop = s.develop := rfl
@[simp] theorem State.onLink_transfer (f : Link → Link) (s : State) : (s.onLink f).transfer = s.transfer := rfl
@[simp] theorem State.onLink_card (f : Link → Link) (s : State) : (s.onLink f).card = s.card := rfl
@[simp] theorem State.onLink_notices (f : Link → Link) (s : State) : (s.onLink f).notices = s.notices := rfl
@[simp] theorem State.onLink_power (f : Link → Link) (s : State) : (s.onLink f).power = s.power := rfl
@[simp] theorem State.onLink_pending (f : Link → Link) (s : State) : (s.onLink f).pending = s.pending := rfl

/-! `onClock` -/

@[simp] theorem State.onClock_member (f : Clock → Clock) (s : State) : (s.onClock f).member = s.member := rfl
@[simp] theorem State.onClock_link (f : Clock → Clock) (s : State) : (s.onClock f).link = s.link := rfl
@[simp] theorem State.onClock_clock (f : Clock → Clock) (s : State) : (s.onClock f).clock = f s.clock := rfl
@[simp] theorem State.onClock_sync (f : Clock → Clock) (s : State) : (s.onClock f).sync = s.sync := rfl
@[simp] theorem State.onClock_capture (f : Clock → Clock) (s : State) : (s.onClock f).capture = s.capture := rfl
@[simp] theorem State.onClock_ring (f : Clock → Clock) (s : State) : (s.onClock f).ring = s.ring := rfl
@[simp] theorem State.onClock_dark (f : Clock → Clock) (s : State) : (s.onClock f).dark = s.dark := rfl
@[simp] theorem State.onClock_develop (f : Clock → Clock) (s : State) : (s.onClock f).develop = s.develop := rfl
@[simp] theorem State.onClock_transfer (f : Clock → Clock) (s : State) : (s.onClock f).transfer = s.transfer := rfl
@[simp] theorem State.onClock_card (f : Clock → Clock) (s : State) : (s.onClock f).card = s.card := rfl
@[simp] theorem State.onClock_notices (f : Clock → Clock) (s : State) : (s.onClock f).notices = s.notices := rfl
@[simp] theorem State.onClock_power (f : Clock → Clock) (s : State) : (s.onClock f).power = s.power := rfl
@[simp] theorem State.onClock_pending (f : Clock → Clock) (s : State) : (s.onClock f).pending = s.pending := rfl

/-! `onSync` -/

@[simp] theorem State.onSync_member (f : SyncInput → SyncInput) (s : State) : (s.onSync f).member = s.member := rfl
@[simp] theorem State.onSync_link (f : SyncInput → SyncInput) (s : State) : (s.onSync f).link = s.link := rfl
@[simp] theorem State.onSync_clock (f : SyncInput → SyncInput) (s : State) : (s.onSync f).clock = s.clock := rfl
@[simp] theorem State.onSync_sync (f : SyncInput → SyncInput) (s : State) : (s.onSync f).sync = f s.sync := rfl
@[simp] theorem State.onSync_capture (f : SyncInput → SyncInput) (s : State) : (s.onSync f).capture = s.capture := rfl
@[simp] theorem State.onSync_ring (f : SyncInput → SyncInput) (s : State) : (s.onSync f).ring = s.ring := rfl
@[simp] theorem State.onSync_dark (f : SyncInput → SyncInput) (s : State) : (s.onSync f).dark = s.dark := rfl
@[simp] theorem State.onSync_develop (f : SyncInput → SyncInput) (s : State) : (s.onSync f).develop = s.develop := rfl
@[simp] theorem State.onSync_transfer (f : SyncInput → SyncInput) (s : State) : (s.onSync f).transfer = s.transfer := rfl
@[simp] theorem State.onSync_card (f : SyncInput → SyncInput) (s : State) : (s.onSync f).card = s.card := rfl
@[simp] theorem State.onSync_notices (f : SyncInput → SyncInput) (s : State) : (s.onSync f).notices = s.notices := rfl
@[simp] theorem State.onSync_power (f : SyncInput → SyncInput) (s : State) : (s.onSync f).power = s.power := rfl
@[simp] theorem State.onSync_pending (f : SyncInput → SyncInput) (s : State) : (s.onSync f).pending = s.pending := rfl

/-! `onCapture` -/

@[simp] theorem State.onCapture_member (f : Capture → Capture) (s : State) : (s.onCapture f).member = s.member := rfl
@[simp] theorem State.onCapture_link (f : Capture → Capture) (s : State) : (s.onCapture f).link = s.link := rfl
@[simp] theorem State.onCapture_clock (f : Capture → Capture) (s : State) : (s.onCapture f).clock = s.clock := rfl
@[simp] theorem State.onCapture_sync (f : Capture → Capture) (s : State) : (s.onCapture f).sync = s.sync := rfl
@[simp] theorem State.onCapture_capture (f : Capture → Capture) (s : State) : (s.onCapture f).capture = f s.capture := rfl
@[simp] theorem State.onCapture_ring (f : Capture → Capture) (s : State) : (s.onCapture f).ring = s.ring := rfl
@[simp] theorem State.onCapture_dark (f : Capture → Capture) (s : State) : (s.onCapture f).dark = s.dark := rfl
@[simp] theorem State.onCapture_develop (f : Capture → Capture) (s : State) : (s.onCapture f).develop = s.develop := rfl
@[simp] theorem State.onCapture_transfer (f : Capture → Capture) (s : State) : (s.onCapture f).transfer = s.transfer := rfl
@[simp] theorem State.onCapture_card (f : Capture → Capture) (s : State) : (s.onCapture f).card = s.card := rfl
@[simp] theorem State.onCapture_notices (f : Capture → Capture) (s : State) : (s.onCapture f).notices = s.notices := rfl
@[simp] theorem State.onCapture_power (f : Capture → Capture) (s : State) : (s.onCapture f).power = s.power := rfl
@[simp] theorem State.onCapture_pending (f : Capture → Capture) (s : State) : (s.onCapture f).pending = s.pending := rfl

/-! `onRing` -/

@[simp] theorem State.onRing_member (f : Ring → Ring) (s : State) : (s.onRing f).member = s.member := rfl
@[simp] theorem State.onRing_link (f : Ring → Ring) (s : State) : (s.onRing f).link = s.link := rfl
@[simp] theorem State.onRing_clock (f : Ring → Ring) (s : State) : (s.onRing f).clock = s.clock := rfl
@[simp] theorem State.onRing_sync (f : Ring → Ring) (s : State) : (s.onRing f).sync = s.sync := rfl
@[simp] theorem State.onRing_capture (f : Ring → Ring) (s : State) : (s.onRing f).capture = s.capture := rfl
@[simp] theorem State.onRing_ring (f : Ring → Ring) (s : State) : (s.onRing f).ring = f s.ring := rfl
@[simp] theorem State.onRing_dark (f : Ring → Ring) (s : State) : (s.onRing f).dark = s.dark := rfl
@[simp] theorem State.onRing_develop (f : Ring → Ring) (s : State) : (s.onRing f).develop = s.develop := rfl
@[simp] theorem State.onRing_transfer (f : Ring → Ring) (s : State) : (s.onRing f).transfer = s.transfer := rfl
@[simp] theorem State.onRing_card (f : Ring → Ring) (s : State) : (s.onRing f).card = s.card := rfl
@[simp] theorem State.onRing_notices (f : Ring → Ring) (s : State) : (s.onRing f).notices = s.notices := rfl
@[simp] theorem State.onRing_power (f : Ring → Ring) (s : State) : (s.onRing f).power = s.power := rfl
@[simp] theorem State.onRing_pending (f : Ring → Ring) (s : State) : (s.onRing f).pending = s.pending := rfl

/-! `onDark` -/

@[simp] theorem State.onDark_member (f : Dark → Dark) (s : State) : (s.onDark f).member = s.member := rfl
@[simp] theorem State.onDark_link (f : Dark → Dark) (s : State) : (s.onDark f).link = s.link := rfl
@[simp] theorem State.onDark_clock (f : Dark → Dark) (s : State) : (s.onDark f).clock = s.clock := rfl
@[simp] theorem State.onDark_sync (f : Dark → Dark) (s : State) : (s.onDark f).sync = s.sync := rfl
@[simp] theorem State.onDark_capture (f : Dark → Dark) (s : State) : (s.onDark f).capture = s.capture := rfl
@[simp] theorem State.onDark_ring (f : Dark → Dark) (s : State) : (s.onDark f).ring = s.ring := rfl
@[simp] theorem State.onDark_dark (f : Dark → Dark) (s : State) : (s.onDark f).dark = f s.dark := rfl
@[simp] theorem State.onDark_develop (f : Dark → Dark) (s : State) : (s.onDark f).develop = s.develop := rfl
@[simp] theorem State.onDark_transfer (f : Dark → Dark) (s : State) : (s.onDark f).transfer = s.transfer := rfl
@[simp] theorem State.onDark_card (f : Dark → Dark) (s : State) : (s.onDark f).card = s.card := rfl
@[simp] theorem State.onDark_notices (f : Dark → Dark) (s : State) : (s.onDark f).notices = s.notices := rfl
@[simp] theorem State.onDark_power (f : Dark → Dark) (s : State) : (s.onDark f).power = s.power := rfl
@[simp] theorem State.onDark_pending (f : Dark → Dark) (s : State) : (s.onDark f).pending = s.pending := rfl

/-! `onDevelop` -/

@[simp] theorem State.onDevelop_member (f : Develop → Develop) (s : State) : (s.onDevelop f).member = s.member := rfl
@[simp] theorem State.onDevelop_link (f : Develop → Develop) (s : State) : (s.onDevelop f).link = s.link := rfl
@[simp] theorem State.onDevelop_clock (f : Develop → Develop) (s : State) : (s.onDevelop f).clock = s.clock := rfl
@[simp] theorem State.onDevelop_sync (f : Develop → Develop) (s : State) : (s.onDevelop f).sync = s.sync := rfl
@[simp] theorem State.onDevelop_capture (f : Develop → Develop) (s : State) : (s.onDevelop f).capture = s.capture := rfl
@[simp] theorem State.onDevelop_ring (f : Develop → Develop) (s : State) : (s.onDevelop f).ring = s.ring := rfl
@[simp] theorem State.onDevelop_dark (f : Develop → Develop) (s : State) : (s.onDevelop f).dark = s.dark := rfl
@[simp] theorem State.onDevelop_develop (f : Develop → Develop) (s : State) : (s.onDevelop f).develop = f s.develop := rfl
@[simp] theorem State.onDevelop_transfer (f : Develop → Develop) (s : State) : (s.onDevelop f).transfer = s.transfer := rfl
@[simp] theorem State.onDevelop_card (f : Develop → Develop) (s : State) : (s.onDevelop f).card = s.card := rfl
@[simp] theorem State.onDevelop_notices (f : Develop → Develop) (s : State) : (s.onDevelop f).notices = s.notices := rfl
@[simp] theorem State.onDevelop_power (f : Develop → Develop) (s : State) : (s.onDevelop f).power = s.power := rfl
@[simp] theorem State.onDevelop_pending (f : Develop → Develop) (s : State) : (s.onDevelop f).pending = s.pending := rfl

/-! `onTransfer` -/

@[simp] theorem State.onTransfer_member (f : TransferUnit → TransferUnit) (s : State) : (s.onTransfer f).member = s.member := rfl
@[simp] theorem State.onTransfer_link (f : TransferUnit → TransferUnit) (s : State) : (s.onTransfer f).link = s.link := rfl
@[simp] theorem State.onTransfer_clock (f : TransferUnit → TransferUnit) (s : State) : (s.onTransfer f).clock = s.clock := rfl
@[simp] theorem State.onTransfer_sync (f : TransferUnit → TransferUnit) (s : State) : (s.onTransfer f).sync = s.sync := rfl
@[simp] theorem State.onTransfer_capture (f : TransferUnit → TransferUnit) (s : State) : (s.onTransfer f).capture = s.capture := rfl
@[simp] theorem State.onTransfer_ring (f : TransferUnit → TransferUnit) (s : State) : (s.onTransfer f).ring = s.ring := rfl
@[simp] theorem State.onTransfer_dark (f : TransferUnit → TransferUnit) (s : State) : (s.onTransfer f).dark = s.dark := rfl
@[simp] theorem State.onTransfer_develop (f : TransferUnit → TransferUnit) (s : State) : (s.onTransfer f).develop = s.develop := rfl
@[simp] theorem State.onTransfer_transfer (f : TransferUnit → TransferUnit) (s : State) : (s.onTransfer f).transfer = f s.transfer := rfl
@[simp] theorem State.onTransfer_card (f : TransferUnit → TransferUnit) (s : State) : (s.onTransfer f).card = s.card := rfl
@[simp] theorem State.onTransfer_notices (f : TransferUnit → TransferUnit) (s : State) : (s.onTransfer f).notices = s.notices := rfl
@[simp] theorem State.onTransfer_power (f : TransferUnit → TransferUnit) (s : State) : (s.onTransfer f).power = s.power := rfl
@[simp] theorem State.onTransfer_pending (f : TransferUnit → TransferUnit) (s : State) : (s.onTransfer f).pending = s.pending := rfl

/-! `onCard` -/

@[simp] theorem State.onCard_member (f : Card → Card) (s : State) : (s.onCard f).member = s.member := rfl
@[simp] theorem State.onCard_link (f : Card → Card) (s : State) : (s.onCard f).link = s.link := rfl
@[simp] theorem State.onCard_clock (f : Card → Card) (s : State) : (s.onCard f).clock = s.clock := rfl
@[simp] theorem State.onCard_sync (f : Card → Card) (s : State) : (s.onCard f).sync = s.sync := rfl
@[simp] theorem State.onCard_capture (f : Card → Card) (s : State) : (s.onCard f).capture = s.capture := rfl
@[simp] theorem State.onCard_ring (f : Card → Card) (s : State) : (s.onCard f).ring = s.ring := rfl
@[simp] theorem State.onCard_dark (f : Card → Card) (s : State) : (s.onCard f).dark = s.dark := rfl
@[simp] theorem State.onCard_develop (f : Card → Card) (s : State) : (s.onCard f).develop = s.develop := rfl
@[simp] theorem State.onCard_transfer (f : Card → Card) (s : State) : (s.onCard f).transfer = s.transfer := rfl
@[simp] theorem State.onCard_card (f : Card → Card) (s : State) : (s.onCard f).card = f s.card := rfl
@[simp] theorem State.onCard_notices (f : Card → Card) (s : State) : (s.onCard f).notices = s.notices := rfl
@[simp] theorem State.onCard_power (f : Card → Card) (s : State) : (s.onCard f).power = s.power := rfl
@[simp] theorem State.onCard_pending (f : Card → Card) (s : State) : (s.onCard f).pending = s.pending := rfl

/-! `onNotices` -/

@[simp] theorem State.onNotices_member (f : Notices → Notices) (s : State) : (s.onNotices f).member = s.member := rfl
@[simp] theorem State.onNotices_link (f : Notices → Notices) (s : State) : (s.onNotices f).link = s.link := rfl
@[simp] theorem State.onNotices_clock (f : Notices → Notices) (s : State) : (s.onNotices f).clock = s.clock := rfl
@[simp] theorem State.onNotices_sync (f : Notices → Notices) (s : State) : (s.onNotices f).sync = s.sync := rfl
@[simp] theorem State.onNotices_capture (f : Notices → Notices) (s : State) : (s.onNotices f).capture = s.capture := rfl
@[simp] theorem State.onNotices_ring (f : Notices → Notices) (s : State) : (s.onNotices f).ring = s.ring := rfl
@[simp] theorem State.onNotices_dark (f : Notices → Notices) (s : State) : (s.onNotices f).dark = s.dark := rfl
@[simp] theorem State.onNotices_develop (f : Notices → Notices) (s : State) : (s.onNotices f).develop = s.develop := rfl
@[simp] theorem State.onNotices_transfer (f : Notices → Notices) (s : State) : (s.onNotices f).transfer = s.transfer := rfl
@[simp] theorem State.onNotices_card (f : Notices → Notices) (s : State) : (s.onNotices f).card = s.card := rfl
@[simp] theorem State.onNotices_notices (f : Notices → Notices) (s : State) : (s.onNotices f).notices = f s.notices := rfl
@[simp] theorem State.onNotices_power (f : Notices → Notices) (s : State) : (s.onNotices f).power = s.power := rfl
@[simp] theorem State.onNotices_pending (f : Notices → Notices) (s : State) : (s.onNotices f).pending = s.pending := rfl

/-! `onPower` -/

@[simp] theorem State.onPower_member (f : Power → Power) (s : State) : (s.onPower f).member = s.member := rfl
@[simp] theorem State.onPower_link (f : Power → Power) (s : State) : (s.onPower f).link = s.link := rfl
@[simp] theorem State.onPower_clock (f : Power → Power) (s : State) : (s.onPower f).clock = s.clock := rfl
@[simp] theorem State.onPower_sync (f : Power → Power) (s : State) : (s.onPower f).sync = s.sync := rfl
@[simp] theorem State.onPower_capture (f : Power → Power) (s : State) : (s.onPower f).capture = s.capture := rfl
@[simp] theorem State.onPower_ring (f : Power → Power) (s : State) : (s.onPower f).ring = s.ring := rfl
@[simp] theorem State.onPower_dark (f : Power → Power) (s : State) : (s.onPower f).dark = s.dark := rfl
@[simp] theorem State.onPower_develop (f : Power → Power) (s : State) : (s.onPower f).develop = s.develop := rfl
@[simp] theorem State.onPower_transfer (f : Power → Power) (s : State) : (s.onPower f).transfer = s.transfer := rfl
@[simp] theorem State.onPower_card (f : Power → Power) (s : State) : (s.onPower f).card = s.card := rfl
@[simp] theorem State.onPower_notices (f : Power → Power) (s : State) : (s.onPower f).notices = s.notices := rfl
@[simp] theorem State.onPower_power (f : Power → Power) (s : State) : (s.onPower f).power = f s.power := rfl
@[simp] theorem State.onPower_pending (f : Power → Power) (s : State) : (s.onPower f).pending = s.pending := rfl

/-! `onPending` -/

@[simp] theorem State.onPending_member (f : List Instr → List Instr) (s : State) : (s.onPending f).member = s.member := rfl
@[simp] theorem State.onPending_link (f : List Instr → List Instr) (s : State) : (s.onPending f).link = s.link := rfl
@[simp] theorem State.onPending_clock (f : List Instr → List Instr) (s : State) : (s.onPending f).clock = s.clock := rfl
@[simp] theorem State.onPending_sync (f : List Instr → List Instr) (s : State) : (s.onPending f).sync = s.sync := rfl
@[simp] theorem State.onPending_capture (f : List Instr → List Instr) (s : State) : (s.onPending f).capture = s.capture := rfl
@[simp] theorem State.onPending_ring (f : List Instr → List Instr) (s : State) : (s.onPending f).ring = s.ring := rfl
@[simp] theorem State.onPending_dark (f : List Instr → List Instr) (s : State) : (s.onPending f).dark = s.dark := rfl
@[simp] theorem State.onPending_develop (f : List Instr → List Instr) (s : State) : (s.onPending f).develop = s.develop := rfl
@[simp] theorem State.onPending_transfer (f : List Instr → List Instr) (s : State) : (s.onPending f).transfer = s.transfer := rfl
@[simp] theorem State.onPending_card (f : List Instr → List Instr) (s : State) : (s.onPending f).card = s.card := rfl
@[simp] theorem State.onPending_notices (f : List Instr → List Instr) (s : State) : (s.onPending f).notices = s.notices := rfl
@[simp] theorem State.onPending_power (f : List Instr → List Instr) (s : State) : (s.onPending f).power = s.power := rfl
@[simp] theorem State.onPending_pending (f : List Instr → List Instr) (s : State) : (s.onPending f).pending = f s.pending := rfl

/-! Conditional updates -/

@[simp] theorem State.doIf_true (f : State → State) (s : State) : s.doIf true f = f s := rfl

@[simp] theorem State.doIf_false (f : State → State) (s : State) : s.doIf false f = s := rfl

/-- What holds of a state whichever way a condition goes holds of its conditional update. -/
theorem State.doIf_ind {P : State → Prop} (b : Bool) (f : State → State) (s : State) (hs : P s) (hf : P (f s)) :
    P (s.doIf b f) := by
  cases b
  · exact hs
  · exact hf

/-- A value that an update keeps is kept by its conditional update. -/
theorem State.doIf_keeps {α : Type} (g : State → α) (b : Bool) (f : State → State) (s : State) (h : g (f s) = g s) :
    g (s.doIf b f) = g s := by
  cases b
  · rfl
  · exact h

/-! Timers -/

@[simp] theorem Timers.get_upd_self (t : Timers) (f : Timer → Timer) (i : TimerId) : (t.upd f i).get i = f (t.get i) := by
  cases i <;> rfl

theorem Timers.get_upd_ne (t : Timers) (f : Timer → Timer) (i j : TimerId) (h : i ≠ j) : (t.upd f i).get j = t.get j := by
  cases i <;> cases j <;> first | rfl | exact absurd rfl h

@[simp] theorem State.timer_onTimer_self (i : TimerId) (f : Timer → Timer) (s : State) :
    (s.onTimer i f).timer i = f (s.timer i) := Timers.get_upd_self ..

theorem State.timer_onTimer_ne (i j : TimerId) (f : Timer → Timer) (s : State) (h : i ≠ j) :
    (s.onTimer i f).timer j = s.timer j := Timers.get_upd_ne _ _ _ _ h

/-- A timer update changes the clock's timers alone. -/
theorem State.onTimer_eq (i : TimerId) (f : Timer → Timer) (s : State) :
    s.onTimer i f = { s with clock := { s.clock with timers := s.clock.timers.upd f i } } := rfl

end Sys2Proof.Machine
end

