-- ==== Sys2Proof/Laws/Clock.lean ====
section
/-! SUPPORT. The Station Clock's operations: link time going forward, the alarm, and a channel at an edge (R38, R44, R48). -/

namespace Sys2Proof.Machine

/-- Link time some microseconds later, as a number. -/
theorem Time.plus_toNat (t : Time) (k : Nat) : (Time.plus t k).toNat = min (t.toNat + k) (2 ^ 64 - 1) := by
  unfold Time.plus
  rw [BitVec.toNat_ofNat, Nat.mod_eq_of_lt]
  omega

/-- Link time never goes back. -/
theorem Time.le_plus (t : Time) (k : Nat) : t ≤ Time.plus t k := by
  rw [BitVec.le_def, Time.plus_toNat]
  have := t.isLt
  omega

/-- Where the armed target is not reached, only link time moves. -/
theorem State.advance_quiet (k : Nat) (s : State) (h : ∀ T, s.clock.alarm = some T → Time.plus s.clock.linkTime k < T) :
    s.advance k = { s with clock := { s.clock with linkTime := Time.plus s.clock.linkTime k } } := by
  unfold State.advance State.testAlarm State.doIf
  rw [if_neg]
  · rfl
  · simp only [Clock.alarmDue, State.onClock]
    cases ha : s.clock.alarm with
    | none => simp
    | some T =>
      have hT := h T ha
      simp only [Option.any_some]
      exact fun h' => BitVec.not_le.mpr hT (of_decide_eq_true h')

/-- Where the armed target is reached or passed, the alarm fires. -/
theorem State.advance_fires (k : Nat) (s : State) (T : Time) (ha : s.clock.alarm = some T)
    (h : T ≤ Time.plus s.clock.linkTime k) :
    s.advance k = { s with
      clock := { s.clock with linkTime := Time.plus s.clock.linkTime k, alarm := none, pulse := some 0 }
      capture := { s.capture with pendingRelease := none } } := by
  unfold State.advance State.testAlarm State.doIf
  rw [if_pos]
  · rfl
  · simp only [Clock.alarmDue, State.onClock, ha]
    simpa using h

/-- A channel with a start or restart pending loads at the edge (R44). -/
theorem Timer.edge_load (c : Bool) (t : Timer) (n : Nat) (h : t.request = .load n) :
    t.edge c = { t with count := .counting n n, request := .none } := by
  simp [Timer.edge, h]

/-- A channel with a stop pending is Idle after the edge (R44). -/
theorem Timer.edge_stop (c : Bool) (t : Timer) (h : t.request = .stop) :
    t.edge c = { t with count := .idle, request := .none } := by
  simp [Timer.edge, h]

/-- A channel counts down while more than one edge is left (R44). -/
theorem Timer.edge_count (c : Bool) (t : Timer) (p n : Nat) (hr : t.request = .none) (h : t.count = .counting (p + 2) n) :
    t.edge c = { t with count := .counting (p + 1) n } := by
  simp [Timer.edge, hr, h]

/-- A channel with one edge left expires (R44). -/
theorem Timer.edge_expires (c : Bool) (t : Timer) (n : Nat) (hr : t.request = .none) (h : t.count = .counting 1 n) :
    t.edge c = { t with count := if c then .counting n n else .idle, due := true } := by
  simp [Timer.edge, hr, h]

/-- A start of a timer is a Load request of its length, and the count is left (R43). -/
theorem Timer.load_positive (t : Timer) (n : Nat) (h : n ≠ 0) : t.load n = { t with request := .load n } := by
  simp [Timer.load, h]

/-- A timer of length 0 completes at once: its expiry is on its way, and its channel goes Idle at the next edge (R45). -/
theorem Timer.load_zero (t : Timer) : t.load 0 = { t with request := .stop, due := true } := by
  simp [Timer.load]

/-- The channel runs in Starting and in Running (R43). -/
theorem Timer.running_reported (t : Timer) : t.running = true ↔ t.reported = .starting ∨ t.reported = .running := by
  unfold Timer.running
  cases t.reported <;> simp

/-- An Idle channel with nothing pending does nothing (R44). -/
theorem Timer.edge_idle (c : Bool) (t : Timer) (hr : t.request = .none) (h : t.count = .idle) : t.edge c = t := by
  simp [Timer.edge, hr, h]

/-- Without an expiry on its way, nothing is handled. -/
theorem State.expiry_not_due (id : TimerId) (handle : State → State) (s : State) (h : (s.timer id).due = false) :
    s.onExpiry id handle = s := by
  simp [State.onExpiry, h]

end Sys2Proof.Machine
end

