-- ==== Sys2Proof/Laws/Develop.lean ====
section
/-! SUPPORT. The edges of a develop job and the seam store: the band of a key leaves the store, an edge's wait ends, and edges that
are resolved already are passed (R118, R127). -/

namespace Sys2Proof.Machine

/-- Taking the band of a key out of a store that holds no key twice leaves the bands of other keys (R118, R128). -/
theorem eraseP_hasKey (m : Nat) (n : Shot) : ∀ store : List Band, (store.map fun b => (b.neighbour, b.shot)).Nodup →
    store.eraseP (Band.hasKey m n) = store.filter fun b => !(b.neighbour == m && b.shot == n) := by
  intro store
  induction store with
  | nil => intro _; rfl
  | cons b bs ih =>
    intro hn
    rw [List.map_cons, List.nodup_cons] at hn
    by_cases hb : Band.hasKey m n b = true
    · have hk : b.neighbour = m ∧ b.shot = n := by simpa [Band.hasKey] using hb
      rw [List.eraseP_cons_of_pos hb, List.filter_cons_of_neg (by simp [hk])]
      refine (List.filter_eq_self.mpr fun a ha => ?_).symm
      rw [Bool.not_eq_true', ← Bool.not_eq_true]
      intro h
      have hq : a.neighbour = m ∧ a.shot = n := by simpa using h
      exact hn.1 (List.mem_map.mpr ⟨a, ha, by simp [hq, hk]⟩)
    · have hk : ¬(b.neighbour = m ∧ b.shot = n) := by simpa [Band.hasKey] using hb
      rw [List.eraseP_cons_of_neg hb, ih hn.2, List.filter_cons_of_pos (by rw [Bool.not_eq_true', ← Bool.not_eq_true]; simpa using hk)]

/-- Edges that are Band or OneSided are passed, and the resolving goes on behind them (R118). -/
theorem resolveEdges_passes (n : Shot) (after : List Edge) (store : List Band) : ∀ before : List Edge,
    (∀ b ∈ before, b.state = .oneSided ∨ ∃ l, b.state = .band l) →
    resolveEdges n (before ++ after) store =
      (before ++ (resolveEdges n after store).1, (resolveEdges n after store).2) := by
  intro before
  induction before with
  | nil => intro _; rfl
  | cons b bs ih =>
    intro h
    have ht := ih fun x hx => h x (List.mem_cons_of_mem b hx)
    rcases h b List.mem_cons_self with hb | ⟨l, hb⟩ <;> simp [resolveEdges, hb, ht]

/-- The end of a wait changes the edge that waits, and no other (R118). -/
theorem endWait_edges (st : EdgeState) (e : Edge) (after : List Edge) (he : e.state = .waiting) : ∀ before : List Edge,
    (∀ b ∈ before, b.state = .oneSided ∨ ∃ l, b.state = .band l) →
    updFirst (fun e => e.state == .waiting) (fun e => { e with state := st }) (before ++ e :: after) =
      before ++ { e with state := st } :: after := by
  intro before
  induction before with
  | nil => intro _; simp [updFirst, he]
  | cons b bs ih =>
    intro h
    have ht := ih fun x hx => h x (List.mem_cons_of_mem b hx)
    rcases h b List.mem_cons_self with hb | ⟨l, hb⟩ <;> simp [updFirst, hb, ht]

end Sys2Proof.Machine
end

