-- ==== Sys2Proof/Laws/Frames.lean ====
section
/-! SUPPORT. What each operation on the state leaves unchanged: one lemma per operation, ready for `simp`, so that no proof
unfolds an operation to find a field it does not touch. -/

set_option linter.unusedTactic false
set_option linter.unreachableTactic false
set_option linter.unnecessarySeqFocus false

namespace Sys2Proof.Machine

/-! ## Fields under a condition, and operations on one block -/

@[simp] theorem Clock.ite_linkTime (b : Prop) [Decidable b] (c d : Clock) : (if b then c else d).linkTime = if b then c.linkTime else d.linkTime := apply_ite Clock.linkTime b c d
@[simp] theorem Card.ite_medium (b : Prop) [Decidable b] (c d : Card) : (if b then c else d).medium = if b then c.medium else d.medium := apply_ite Card.medium b c d
@[simp] theorem Ring.ite_next (b : Prop) [Decidable b] (c d : Ring) : (if b then c else d).next = if b then c.next else d.next := apply_ite Ring.next b c d
@[simp] theorem Membership.ite_straps (b : Prop) [Decidable b] (c d : Membership) : (if b then c else d).straps = if b then c.straps else d.straps := apply_ite Membership.straps b c d
@[simp] theorem Membership.ite_serial (b : Prop) [Decidable b] (c d : Membership) : (if b then c else d).serial = if b then c.serial else d.serial := apply_ite Membership.serial b c d
@[simp] theorem Membership.ite_settings (b : Prop) [Decidable b] (c d : Membership) : (if b then c else d).settings = if b then c.settings else d.settings := apply_ite Membership.settings b c d
@[simp] theorem Ring.updSlot_next (n : Shot) (f : Slot → Slot) (r : Ring) : (Ring.updSlot n f r).next = r.next := rfl
@[simp] theorem Ring.updEntry_next (n : Shot) (f : Entry → Entry) (r : Ring) : (Ring.updEntry n f r).next = r.next := rfl
@[simp] theorem Ring.remove_next (n : Shot) (r : Ring) : (Ring.remove n r).next = r.next := rfl
@[simp] theorem Ring.admit_next (n : Shot) (start : Time) (e : Entry) (r : Ring) : (Ring.admitShot n start e r).next = r.next := rfl
@[simp] theorem Ring.updArea_next (i : Nat) (f : Area → Area) (r : Ring) : (Ring.updArea i f r).next = r.next := rfl
@[simp] theorem Card.setGrant_medium (g : GrantRecord) (c : Card) : (Card.setGrant g c).medium = c.medium := rfl
@[simp] theorem Card.updPlaced_medium (n : Shot) (f : Placed → Placed) (c : Card) : (Card.updPlaced n f c).medium = c.medium := rfl
@[simp] theorem Card.dropGrants_medium (n : Shot) (c : Card) : (Card.dropGrants n c).medium = c.medium := rfl
@[simp] theorem Card.reserve_medium (e : Entry) (r : Roll) (blocks : Nat) (c : Card) : (Card.reserve e r blocks c).medium = c.medium := rfl
@[simp] theorem Card.dropPlaced_medium (p : Placed) (c : Card) : (Card.dropPlaced p c).medium = c.medium := rfl
@[simp] theorem Card.spendGrant_medium (m : Node) (c : Card) : (Card.spendGrant m c).medium = c.medium := rfl
@[simp] theorem Card.restart_medium (c : Card) : (Card.restart c).medium = c.medium := rfl
@[simp] theorem Card.clearBuffers_medium (c : Card) : (Card.clearBuffers c).medium = c.medium := rfl
@[simp] theorem Clock.sleep_linkTime (c : Clock) : (Clock.sleep c).linkTime = c.linkTime := rfl
@[simp] theorem Card.wait_medium (q : Claim) (c : Card) : (Card.wait q c).medium = c.medium := by unfold Card.wait; split <;> rfl
@[simp] theorem Clock.edge_linkTime (c : Clock) : c.edge.linkTime = c.linkTime := by unfold Clock.edge; (repeat' split) <;> rfl
@[simp] theorem State.fresh_pending (straps : Straps) (serial : Word32) (linkBusy : Bool) (s : State) : (s.fresh straps serial linkBusy).pending = s.pending := rfl
@[simp] theorem Membership.restart_straps (b : Bool) (m : Membership) : (Membership.restart b m).straps = m.straps := by cases b <;> rfl
@[simp] theorem Membership.restart_serial (b : Bool) (m : Membership) : (Membership.restart b m).serial = m.serial := by cases b <;> rfl
@[simp] theorem State.doIf_member (b : Bool) (f : State → State) (s : State) : (s.doIf b f).member = if b then (f s).member else s.member := by cases b <;> rfl
@[simp] theorem foldl_member {α : Type} (f : State → α → State) (hk : ∀ t x, (f t x).member = t.member) (l : List α) (s : State) : (l.foldl f s).member = s.member := by
  induction l generalizing s with
  | nil => rfl
  | cons x xs ih => simp [List.foldl, ih, hk]
@[simp] theorem State.doIf_link (b : Bool) (f : State → State) (s : State) : (s.doIf b f).link = if b then (f s).link else s.link := by cases b <;> rfl
@[simp] theorem foldl_link {α : Type} (f : State → α → State) (hk : ∀ t x, (f t x).link = t.link) (l : List α) (s : State) : (l.foldl f s).link = s.link := by
  induction l generalizing s with
  | nil => rfl
  | cons x xs ih => simp [List.foldl, ih, hk]
@[simp] theorem State.doIf_clock (b : Bool) (f : State → State) (s : State) : (s.doIf b f).clock = if b then (f s).clock else s.clock := by cases b <;> rfl
@[simp] theorem foldl_clock {α : Type} (f : State → α → State) (hk : ∀ t x, (f t x).clock = t.clock) (l : List α) (s : State) : (l.foldl f s).clock = s.clock := by
  induction l generalizing s with
  | nil => rfl
  | cons x xs ih => simp [List.foldl, ih, hk]
@[simp] theorem State.doIf_sync (b : Bool) (f : State → State) (s : State) : (s.doIf b f).sync = if b then (f s).sync else s.sync := by cases b <;> rfl
@[simp] theorem foldl_sync {α : Type} (f : State → α → State) (hk : ∀ t x, (f t x).sync = t.sync) (l : List α) (s : State) : (l.foldl f s).sync = s.sync := by
  induction l generalizing s with
  | nil => rfl
  | cons x xs ih => simp [List.foldl, ih, hk]
@[simp] theorem State.doIf_capture (b : Bool) (f : State → State) (s : State) : (s.doIf b f).capture = if b then (f s).capture else s.capture := by cases b <;> rfl
@[simp] theorem foldl_capture {α : Type} (f : State → α → State) (hk : ∀ t x, (f t x).capture = t.capture) (l : List α) (s : State) : (l.foldl f s).capture = s.capture := by
  induction l generalizing s with
  | nil => rfl
  | cons x xs ih => simp [List.foldl, ih, hk]
@[simp] theorem State.doIf_ring (b : Bool) (f : State → State) (s : State) : (s.doIf b f).ring = if b then (f s).ring else s.ring := by cases b <;> rfl
@[simp] theorem foldl_ring {α : Type} (f : State → α → State) (hk : ∀ t x, (f t x).ring = t.ring) (l : List α) (s : State) : (l.foldl f s).ring = s.ring := by
  induction l generalizing s with
  | nil => rfl
  | cons x xs ih => simp [List.foldl, ih, hk]
@[simp] theorem State.doIf_dark (b : Bool) (f : State → State) (s : State) : (s.doIf b f).dark = if b then (f s).dark else s.dark := by cases b <;> rfl
@[simp] theorem foldl_dark {α : Type} (f : State → α → State) (hk : ∀ t x, (f t x).dark = t.dark) (l : List α) (s : State) : (l.foldl f s).dark = s.dark := by
  induction l generalizing s with
  | nil => rfl
  | cons x xs ih => simp [List.foldl, ih, hk]
@[simp] theorem State.doIf_develop (b : Bool) (f : State → State) (s : State) : (s.doIf b f).develop = if b then (f s).develop else s.develop := by cases b <;> rfl
@[simp] theorem foldl_develop {α : Type} (f : State → α → State) (hk : ∀ t x, (f t x).develop = t.develop) (l : List α) (s : State) : (l.foldl f s).develop = s.develop := by
  induction l generalizing s with
  | nil => rfl
  | cons x xs ih => simp [List.foldl, ih, hk]
@[simp] theorem State.doIf_transfer (b : Bool) (f : State → State) (s : State) : (s.doIf b f).transfer = if b then (f s).transfer else s.transfer := by cases b <;> rfl
@[simp] theorem foldl_transfer {α : Type} (f : State → α → State) (hk : ∀ t x, (f t x).transfer = t.transfer) (l : List α) (s : State) : (l.foldl f s).transfer = s.transfer := by
  induction l generalizing s with
  | nil => rfl
  | cons x xs ih => simp [List.foldl, ih, hk]
@[simp] theorem State.doIf_card (b : Bool) (f : State → State) (s : State) : (s.doIf b f).card = if b then (f s).card else s.card := by cases b <;> rfl
@[simp] theorem foldl_card {α : Type} (f : State → α → State) (hk : ∀ t x, (f t x).card = t.card) (l : List α) (s : State) : (l.foldl f s).card = s.card := by
  induction l generalizing s with
  | nil => rfl
  | cons x xs ih => simp [List.foldl, ih, hk]
@[simp] theorem State.doIf_notices (b : Bool) (f : State → State) (s : State) : (s.doIf b f).notices = if b then (f s).notices else s.notices := by cases b <;> rfl
@[simp] theorem foldl_notices {α : Type} (f : State → α → State) (hk : ∀ t x, (f t x).notices = t.notices) (l : List α) (s : State) : (l.foldl f s).notices = s.notices := by
  induction l generalizing s with
  | nil => rfl
  | cons x xs ih => simp [List.foldl, ih, hk]
@[simp] theorem State.doIf_power (b : Bool) (f : State → State) (s : State) : (s.doIf b f).power = if b then (f s).power else s.power := by cases b <;> rfl
@[simp] theorem foldl_power {α : Type} (f : State → α → State) (hk : ∀ t x, (f t x).power = t.power) (l : List α) (s : State) : (l.foldl f s).power = s.power := by
  induction l generalizing s with
  | nil => rfl
  | cons x xs ih => simp [List.foldl, ih, hk]
@[simp] theorem State.doIf_pending (b : Bool) (f : State → State) (s : State) : (s.doIf b f).pending = if b then (f s).pending else s.pending := by cases b <;> rfl
@[simp] theorem foldl_pending {α : Type} (f : State → α → State) (hk : ∀ t x, (f t x).pending = t.pending) (l : List α) (s : State) : (l.foldl f s).pending = s.pending := by
  induction l generalizing s with
  | nil => rfl
  | cons x xs ih => simp [List.foldl, ih, hk]
@[simp] theorem State.doIf_linkTime (b : Bool) (f : State → State) (s : State) : (s.doIf b f).clock.linkTime = if b then (f s).clock.linkTime else s.clock.linkTime := by cases b <;> rfl
@[simp] theorem foldl_linkTime {α : Type} (f : State → α → State) (hk : ∀ t x, (f t x).clock.linkTime = t.clock.linkTime) (l : List α) (s : State) : (l.foldl f s).clock.linkTime = s.clock.linkTime := by
  induction l generalizing s with
  | nil => rfl
  | cons x xs ih => simp [List.foldl, ih, hk]
@[simp] theorem State.doIf_medium (b : Bool) (f : State → State) (s : State) : (s.doIf b f).card.medium = if b then (f s).card.medium else s.card.medium := by cases b <;> rfl
@[simp] theorem foldl_medium {α : Type} (f : State → α → State) (hk : ∀ t x, (f t x).card.medium = t.card.medium) (l : List α) (s : State) : (l.foldl f s).card.medium = s.card.medium := by
  induction l generalizing s with
  | nil => rfl
  | cons x xs ih => simp [List.foldl, ih, hk]
@[simp] theorem State.doIf_next (b : Bool) (f : State → State) (s : State) : (s.doIf b f).ring.next = if b then (f s).ring.next else s.ring.next := by cases b <;> rfl
@[simp] theorem foldl_next {α : Type} (f : State → α → State) (hk : ∀ t x, (f t x).ring.next = t.ring.next) (l : List α) (s : State) : (l.foldl f s).ring.next = s.ring.next := by
  induction l generalizing s with
  | nil => rfl
  | cons x xs ih => simp [List.foldl, ih, hk]
@[simp] theorem State.doIf_straps (b : Bool) (f : State → State) (s : State) : (s.doIf b f).member.straps = if b then (f s).member.straps else s.member.straps := by cases b <;> rfl
@[simp] theorem foldl_straps {α : Type} (f : State → α → State) (hk : ∀ t x, (f t x).member.straps = t.member.straps) (l : List α) (s : State) : (l.foldl f s).member.straps = s.member.straps := by
  induction l generalizing s with
  | nil => rfl
  | cons x xs ih => simp [List.foldl, ih, hk]
@[simp] theorem State.doIf_serial (b : Bool) (f : State → State) (s : State) : (s.doIf b f).member.serial = if b then (f s).member.serial else s.member.serial := by cases b <;> rfl
@[simp] theorem foldl_serial {α : Type} (f : State → α → State) (hk : ∀ t x, (f t x).member.serial = t.member.serial) (l : List α) (s : State) : (l.foldl f s).member.serial = s.member.serial := by
  induction l generalizing s with
  | nil => rfl
  | cons x xs ih => simp [List.foldl, ih, hk]
@[simp] theorem State.doIf_settings (b : Bool) (f : State → State) (s : State) : (s.doIf b f).member.settings = if b then (f s).member.settings else s.member.settings := by cases b <;> rfl
@[simp] theorem foldl_settings {α : Type} (f : State → α → State) (hk : ∀ t x, (f t x).member.settings = t.member.settings) (l : List α) (s : State) : (l.foldl f s).member.settings = s.member.settings := by
  induction l generalizing s with
  | nil => rfl
  | cons x xs ih => simp [List.foldl, ih, hk]

/-! ## The operations -/

@[simp] theorem State.onTimer_frame (id : TimerId) (f : Timer → Timer) (s : State) :
    (State.onTimer id f s).member = s.member ∧ (State.onTimer id f s).link = s.link ∧
    (State.onTimer id f s).sync = s.sync ∧ (State.onTimer id f s).capture = s.capture ∧
    (State.onTimer id f s).ring = s.ring ∧ (State.onTimer id f s).dark = s.dark ∧
    (State.onTimer id f s).develop = s.develop ∧ (State.onTimer id f s).transfer = s.transfer ∧
    (State.onTimer id f s).card = s.card ∧ (State.onTimer id f s).notices = s.notices ∧
    (State.onTimer id f s).power = s.power ∧ (State.onTimer id f s).pending = s.pending ∧
    (State.onTimer id f s).clock.linkTime = s.clock.linkTime := by
  and_intros <;> (unfold State.onTimer; (try dsimp only); (repeat' split) <;> simp)

@[simp] theorem State.loadTimer_frame (id : TimerId) (n : Nat) (s : State) :
    (State.loadTimer id n s).member = s.member ∧ (State.loadTimer id n s).link = s.link ∧
    (State.loadTimer id n s).sync = s.sync ∧ (State.loadTimer id n s).capture = s.capture ∧
    (State.loadTimer id n s).ring = s.ring ∧ (State.loadTimer id n s).dark = s.dark ∧
    (State.loadTimer id n s).develop = s.develop ∧ (State.loadTimer id n s).transfer = s.transfer ∧
    (State.loadTimer id n s).card = s.card ∧ (State.loadTimer id n s).notices = s.notices ∧
    (State.loadTimer id n s).power = s.power ∧ (State.loadTimer id n s).pending = s.pending ∧
    (State.loadTimer id n s).clock.linkTime = s.clock.linkTime := by
  and_intros <;> (unfold State.loadTimer; (try dsimp only); (repeat' split) <;> simp)

@[simp] theorem State.stopTimer_frame (id : TimerId) (s : State) :
    (State.stopTimer id s).member = s.member ∧ (State.stopTimer id s).link = s.link ∧
    (State.stopTimer id s).sync = s.sync ∧ (State.stopTimer id s).capture = s.capture ∧
    (State.stopTimer id s).ring = s.ring ∧ (State.stopTimer id s).dark = s.dark ∧
    (State.stopTimer id s).develop = s.develop ∧ (State.stopTimer id s).transfer = s.transfer ∧
    (State.stopTimer id s).card = s.card ∧ (State.stopTimer id s).notices = s.notices ∧
    (State.stopTimer id s).power = s.power ∧ (State.stopTimer id s).pending = s.pending ∧
    (State.stopTimer id s).clock.linkTime = s.clock.linkTime := by
  and_intros <;> (unfold State.stopTimer; (try dsimp only); (repeat' split) <;> simp)

@[simp] theorem State.onExpiry_member (id : TimerId) (handle : State → State) (s : State) (hk : ∀ t, (handle t).member = t.member) :
    (State.onExpiry id handle s).member = s.member := by
  unfold State.onExpiry; (try dsimp only); (repeat' split) <;> simp [hk]
@[simp] theorem State.onExpiry_link (id : TimerId) (handle : State → State) (s : State) (hk : ∀ t, (handle t).link = t.link) :
    (State.onExpiry id handle s).link = s.link := by
  unfold State.onExpiry; (try dsimp only); (repeat' split) <;> simp [hk]
@[simp] theorem State.onExpiry_sync (id : TimerId) (handle : State → State) (s : State) (hk : ∀ t, (handle t).sync = t.sync) :
    (State.onExpiry id handle s).sync = s.sync := by
  unfold State.onExpiry; (try dsimp only); (repeat' split) <;> simp [hk]
@[simp] theorem State.onExpiry_capture (id : TimerId) (handle : State → State) (s : State) (hk : ∀ t, (handle t).capture = t.capture) :
    (State.onExpiry id handle s).capture = s.capture := by
  unfold State.onExpiry; (try dsimp only); (repeat' split) <;> simp [hk]
@[simp] theorem State.onExpiry_ring (id : TimerId) (handle : State → State) (s : State) (hk : ∀ t, (handle t).ring = t.ring) :
    (State.onExpiry id handle s).ring = s.ring := by
  unfold State.onExpiry; (try dsimp only); (repeat' split) <;> simp [hk]
@[simp] theorem State.onExpiry_dark (id : TimerId) (handle : State → State) (s : State) (hk : ∀ t, (handle t).dark = t.dark) :
    (State.onExpiry id handle s).dark = s.dark := by
  unfold State.onExpiry; (try dsimp only); (repeat' split) <;> simp [hk]
@[simp] theorem State.onExpiry_develop (id : TimerId) (handle : State → State) (s : State) (hk : ∀ t, (handle t).develop = t.develop) :
    (State.onExpiry id handle s).develop = s.develop := by
  unfold State.onExpiry; (try dsimp only); (repeat' split) <;> simp [hk]
@[simp] theorem State.onExpiry_transfer (id : TimerId) (handle : State → State) (s : State) (hk : ∀ t, (handle t).transfer = t.transfer) :
    (State.onExpiry id handle s).transfer = s.transfer := by
  unfold State.onExpiry; (try dsimp only); (repeat' split) <;> simp [hk]
@[simp] theorem State.onExpiry_card (id : TimerId) (handle : State → State) (s : State) (hk : ∀ t, (handle t).card = t.card) :
    (State.onExpiry id handle s).card = s.card := by
  unfold State.onExpiry; (try dsimp only); (repeat' split) <;> simp [hk]
@[simp] theorem State.onExpiry_notices (id : TimerId) (handle : State → State) (s : State) (hk : ∀ t, (handle t).notices = t.notices) :
    (State.onExpiry id handle s).notices = s.notices := by
  unfold State.onExpiry; (try dsimp only); (repeat' split) <;> simp [hk]
@[simp] theorem State.onExpiry_power (id : TimerId) (handle : State → State) (s : State) (hk : ∀ t, (handle t).power = t.power) :
    (State.onExpiry id handle s).power = s.power := by
  unfold State.onExpiry; (try dsimp only); (repeat' split) <;> simp [hk]
@[simp] theorem State.onExpiry_pending (id : TimerId) (handle : State → State) (s : State) (hk : ∀ t, (handle t).pending = t.pending) :
    (State.onExpiry id handle s).pending = s.pending := by
  unfold State.onExpiry; (try dsimp only); (repeat' split) <;> simp [hk]
@[simp] theorem State.onExpiry_linkTime (id : TimerId) (handle : State → State) (s : State) (hk : ∀ t, (handle t).clock.linkTime = t.clock.linkTime) :
    (State.onExpiry id handle s).clock.linkTime = s.clock.linkTime := by
  unfold State.onExpiry; (try dsimp only); (repeat' split) <;> simp [hk]
@[simp] theorem State.onExpiry_medium (id : TimerId) (handle : State → State) (s : State) (hk : ∀ t, (handle t).card.medium = t.card.medium) :
    (State.onExpiry id handle s).card.medium = s.card.medium := by
  unfold State.onExpiry; (try dsimp only); (repeat' split) <;> simp [hk]
@[simp] theorem State.onExpiry_next (id : TimerId) (handle : State → State) (s : State) (hk : ∀ t, (handle t).ring.next = t.ring.next) :
    (State.onExpiry id handle s).ring.next = s.ring.next := by
  unfold State.onExpiry; (try dsimp only); (repeat' split) <;> simp [hk]
@[simp] theorem State.onExpiry_straps (id : TimerId) (handle : State → State) (s : State) (hk : ∀ t, (handle t).member.straps = t.member.straps) :
    (State.onExpiry id handle s).member.straps = s.member.straps := by
  unfold State.onExpiry; (try dsimp only); (repeat' split) <;> simp [hk]
@[simp] theorem State.onExpiry_serial (id : TimerId) (handle : State → State) (s : State) (hk : ∀ t, (handle t).member.serial = t.member.serial) :
    (State.onExpiry id handle s).member.serial = s.member.serial := by
  unfold State.onExpiry; (try dsimp only); (repeat' split) <;> simp [hk]
@[simp] theorem State.onExpiry_settings (id : TimerId) (handle : State → State) (s : State) (hk : ∀ t, (handle t).member.settings = t.member.settings) :
    (State.onExpiry id handle s).member.settings = s.member.settings := by
  unfold State.onExpiry; (try dsimp only); (repeat' split) <;> simp [hk]

@[simp] theorem State.queue_frame (dst : BitVec 4) (msg : Msg) (s : State) :
    (State.queue dst msg s).member = s.member ∧ (State.queue dst msg s).clock = s.clock ∧
    (State.queue dst msg s).sync = s.sync ∧ (State.queue dst msg s).capture = s.capture ∧
    (State.queue dst msg s).ring = s.ring ∧ (State.queue dst msg s).dark = s.dark ∧
    (State.queue dst msg s).develop = s.develop ∧ (State.queue dst msg s).transfer = s.transfer ∧
    (State.queue dst msg s).card = s.card ∧ (State.queue dst msg s).notices = s.notices ∧
    (State.queue dst msg s).power = s.power ∧ (State.queue dst msg s).pending = s.pending := by
  and_intros <;> (unfold State.queue; (try dsimp only); (repeat' split) <;> simp)

@[simp] theorem State.broadcast_frame (msg : Msg) (s : State) :
    (State.broadcast msg s).member = s.member ∧ (State.broadcast msg s).clock = s.clock ∧
    (State.broadcast msg s).sync = s.sync ∧ (State.broadcast msg s).capture = s.capture ∧
    (State.broadcast msg s).ring = s.ring ∧ (State.broadcast msg s).dark = s.dark ∧
    (State.broadcast msg s).develop = s.develop ∧ (State.broadcast msg s).transfer = s.transfer ∧
    (State.broadcast msg s).card = s.card ∧ (State.broadcast msg s).notices = s.notices ∧
    (State.broadcast msg s).power = s.power ∧ (State.broadcast msg s).pending = s.pending := by
  and_intros <;> (unfold State.broadcast; (try dsimp only); (repeat' split) <;> simp)

@[simp] theorem State.cancelBulk_frame (p : Msg → Bool) (s : State) :
    (State.cancelBulk p s).member = s.member ∧ (State.cancelBulk p s).clock = s.clock ∧
    (State.cancelBulk p s).sync = s.sync ∧ (State.cancelBulk p s).capture = s.capture ∧
    (State.cancelBulk p s).ring = s.ring ∧ (State.cancelBulk p s).dark = s.dark ∧
    (State.cancelBulk p s).develop = s.develop ∧ (State.cancelBulk p s).transfer = s.transfer ∧
    (State.cancelBulk p s).card = s.card ∧ (State.cancelBulk p s).notices = s.notices ∧
    (State.cancelBulk p s).power = s.power ∧ (State.cancelBulk p s).pending = s.pending := by
  and_intros <;> (unfold State.cancelBulk; (try dsimp only); (repeat' split) <;> simp)

@[simp] theorem State.raise_frame (d : NoticeData) (s : State) :
    (State.raise d s).member = s.member ∧ (State.raise d s).link = s.link ∧ (State.raise d s).clock = s.clock ∧
    (State.raise d s).sync = s.sync ∧ (State.raise d s).capture = s.capture ∧ (State.raise d s).ring = s.ring ∧
    (State.raise d s).dark = s.dark ∧ (State.raise d s).develop = s.develop ∧
    (State.raise d s).transfer = s.transfer ∧ (State.raise d s).card = s.card ∧ (State.raise d s).power = s.power ∧
    (State.raise d s).pending = s.pending := by
  and_intros <;> (unfold State.raise; (try dsimp only); (repeat' split) <;> simp)

@[simp] theorem State.updSlot_frame (n : Shot) (f : Slot → Slot) (s : State) :
    (State.updSlot n f s).member = s.member ∧ (State.updSlot n f s).link = s.link ∧
    (State.updSlot n f s).clock = s.clock ∧ (State.updSlot n f s).sync = s.sync ∧
    (State.updSlot n f s).capture = s.capture ∧ (State.updSlot n f s).dark = s.dark ∧
    (State.updSlot n f s).develop = s.develop ∧ (State.updSlot n f s).transfer = s.transfer ∧
    (State.updSlot n f s).card = s.card ∧ (State.updSlot n f s).notices = s.notices ∧
    (State.updSlot n f s).power = s.power ∧ (State.updSlot n f s).pending = s.pending ∧
    (State.updSlot n f s).ring.next = s.ring.next := by
  and_intros <;> (unfold State.updSlot; (try dsimp only); (repeat' split) <;> simp)

@[simp] theorem State.updEntry_frame (n : Shot) (f : Entry → Entry) (s : State) :
    (State.updEntry n f s).member = s.member ∧ (State.updEntry n f s).link = s.link ∧
    (State.updEntry n f s).clock = s.clock ∧ (State.updEntry n f s).sync = s.sync ∧
    (State.updEntry n f s).capture = s.capture ∧ (State.updEntry n f s).dark = s.dark ∧
    (State.updEntry n f s).develop = s.develop ∧ (State.updEntry n f s).transfer = s.transfer ∧
    (State.updEntry n f s).card = s.card ∧ (State.updEntry n f s).notices = s.notices ∧
    (State.updEntry n f s).power = s.power ∧ (State.updEntry n f s).pending = s.pending ∧
    (State.updEntry n f s).ring.next = s.ring.next := by
  and_intros <;> (unfold State.updEntry; (try dsimp only); (repeat' split) <;> simp)

@[simp] theorem State.raiseCardState_frame (s : State) :
    (State.raiseCardState s).member = s.member ∧ (State.raiseCardState s).link = s.link ∧
    (State.raiseCardState s).clock = s.clock ∧ (State.raiseCardState s).sync = s.sync ∧
    (State.raiseCardState s).capture = s.capture ∧ (State.raiseCardState s).ring = s.ring ∧
    (State.raiseCardState s).dark = s.dark ∧ (State.raiseCardState s).develop = s.develop ∧
    (State.raiseCardState s).transfer = s.transfer ∧ (State.raiseCardState s).card = s.card ∧
    (State.raiseCardState s).power = s.power ∧ (State.raiseCardState s).pending = s.pending := by
  and_intros <;> (unfold State.raiseCardState; (try dsimp only); (repeat' split) <;> simp)

@[simp] theorem State.changeCard_frame (st : CardState) (roll : Option Roll) (s : State) :
    (State.changeCard st roll s).member = s.member ∧ (State.changeCard st roll s).link = s.link ∧
    (State.changeCard st roll s).clock = s.clock ∧ (State.changeCard st roll s).sync = s.sync ∧
    (State.changeCard st roll s).capture = s.capture ∧ (State.changeCard st roll s).ring = s.ring ∧
    (State.changeCard st roll s).dark = s.dark ∧ (State.changeCard st roll s).develop = s.develop ∧
    (State.changeCard st roll s).transfer = s.transfer ∧ (State.changeCard st roll s).power = s.power ∧
    (State.changeCard st roll s).pending = s.pending ∧ (State.changeCard st roll s).card.medium = s.card.medium := by
  and_intros <;> (unfold State.changeCard; (try dsimp only); (repeat' split) <;> simp)

@[simp] theorem State.ejectTest_frame (s : State) :
    (State.ejectTest s).member = s.member ∧ (State.ejectTest s).link = s.link ∧ (State.ejectTest s).clock = s.clock ∧
    (State.ejectTest s).sync = s.sync ∧ (State.ejectTest s).capture = s.capture ∧ (State.ejectTest s).ring = s.ring ∧
    (State.ejectTest s).dark = s.dark ∧ (State.ejectTest s).develop = s.develop ∧
    (State.ejectTest s).transfer = s.transfer ∧ (State.ejectTest s).power = s.power ∧
    (State.ejectTest s).pending = s.pending ∧ (State.ejectTest s).card.medium = s.card.medium := by
  and_intros <;> (unfold State.ejectTest; (try dsimp only); (repeat' split) <;> simp)

@[simp] theorem State.sendGrant_frame (q : Claim) (count : Nat) (s : State) :
    (State.sendGrant q count s).member = s.member ∧ (State.sendGrant q count s).clock = s.clock ∧
    (State.sendGrant q count s).sync = s.sync ∧ (State.sendGrant q count s).capture = s.capture ∧
    (State.sendGrant q count s).ring = s.ring ∧ (State.sendGrant q count s).dark = s.dark ∧
    (State.sendGrant q count s).develop = s.develop ∧ (State.sendGrant q count s).transfer = s.transfer ∧
    (State.sendGrant q count s).card = s.card ∧ (State.sendGrant q count s).notices = s.notices ∧
    (State.sendGrant q count s).power = s.power ∧ (State.sendGrant q count s).pending = s.pending := by
  and_intros <;> (unfold State.sendGrant; (try dsimp only); (repeat' split) <;> simp)

@[simp] theorem State.grantClaim_frame (q : Claim) (s : State) :
    (State.grantClaim q s).member = s.member ∧ (State.grantClaim q s).clock = s.clock ∧
    (State.grantClaim q s).sync = s.sync ∧ (State.grantClaim q s).capture = s.capture ∧
    (State.grantClaim q s).ring = s.ring ∧ (State.grantClaim q s).dark = s.dark ∧
    (State.grantClaim q s).develop = s.develop ∧ (State.grantClaim q s).transfer = s.transfer ∧
    (State.grantClaim q s).notices = s.notices ∧ (State.grantClaim q s).power = s.power ∧
    (State.grantClaim q s).pending = s.pending ∧ (State.grantClaim q s).card.medium = s.card.medium := by
  and_intros <;> (unfold State.grantClaim; (try dsimp only); (repeat' split) <;> simp)

@[simp] theorem State.serveFrom_member (qs : List Claim) (s : State) :
    (State.serveFrom qs s).member = s.member := by
  induction qs generalizing s with
  | nil => simp [State.serveFrom]
  | cons q r ih => unfold State.serveFrom; split <;> simp [ih]
@[simp] theorem State.serveFrom_clock (qs : List Claim) (s : State) :
    (State.serveFrom qs s).clock = s.clock := by
  induction qs generalizing s with
  | nil => simp [State.serveFrom]
  | cons q r ih => unfold State.serveFrom; split <;> simp [ih]
@[simp] theorem State.serveFrom_sync (qs : List Claim) (s : State) :
    (State.serveFrom qs s).sync = s.sync := by
  induction qs generalizing s with
  | nil => simp [State.serveFrom]
  | cons q r ih => unfold State.serveFrom; split <;> simp [ih]
@[simp] theorem State.serveFrom_capture (qs : List Claim) (s : State) :
    (State.serveFrom qs s).capture = s.capture := by
  induction qs generalizing s with
  | nil => simp [State.serveFrom]
  | cons q r ih => unfold State.serveFrom; split <;> simp [ih]
@[simp] theorem State.serveFrom_ring (qs : List Claim) (s : State) :
    (State.serveFrom qs s).ring = s.ring := by
  induction qs generalizing s with
  | nil => simp [State.serveFrom]
  | cons q r ih => unfold State.serveFrom; split <;> simp [ih]
@[simp] theorem State.serveFrom_dark (qs : List Claim) (s : State) :
    (State.serveFrom qs s).dark = s.dark := by
  induction qs generalizing s with
  | nil => simp [State.serveFrom]
  | cons q r ih => unfold State.serveFrom; split <;> simp [ih]
@[simp] theorem State.serveFrom_develop (qs : List Claim) (s : State) :
    (State.serveFrom qs s).develop = s.develop := by
  induction qs generalizing s with
  | nil => simp [State.serveFrom]
  | cons q r ih => unfold State.serveFrom; split <;> simp [ih]
@[simp] theorem State.serveFrom_transfer (qs : List Claim) (s : State) :
    (State.serveFrom qs s).transfer = s.transfer := by
  induction qs generalizing s with
  | nil => simp [State.serveFrom]
  | cons q r ih => unfold State.serveFrom; split <;> simp [ih]
@[simp] theorem State.serveFrom_notices (qs : List Claim) (s : State) :
    (State.serveFrom qs s).notices = s.notices := by
  induction qs generalizing s with
  | nil => simp [State.serveFrom]
  | cons q r ih => unfold State.serveFrom; split <;> simp [ih]
@[simp] theorem State.serveFrom_power (qs : List Claim) (s : State) :
    (State.serveFrom qs s).power = s.power := by
  induction qs generalizing s with
  | nil => simp [State.serveFrom]
  | cons q r ih => unfold State.serveFrom; split <;> simp [ih]
@[simp] theorem State.serveFrom_pending (qs : List Claim) (s : State) :
    (State.serveFrom qs s).pending = s.pending := by
  induction qs generalizing s with
  | nil => simp [State.serveFrom]
  | cons q r ih => unfold State.serveFrom; split <;> simp [ih]
@[simp] theorem State.serveFrom_linkTime (qs : List Claim) (s : State) :
    (State.serveFrom qs s).clock.linkTime = s.clock.linkTime := by
  induction qs generalizing s with
  | nil => simp [State.serveFrom]
  | cons q r ih => unfold State.serveFrom; split <;> simp [ih]
@[simp] theorem State.serveFrom_medium (qs : List Claim) (s : State) :
    (State.serveFrom qs s).card.medium = s.card.medium := by
  induction qs generalizing s with
  | nil => simp [State.serveFrom]
  | cons q r ih => unfold State.serveFrom; split <;> simp [ih]
@[simp] theorem State.serveFrom_next (qs : List Claim) (s : State) :
    (State.serveFrom qs s).ring.next = s.ring.next := by
  induction qs generalizing s with
  | nil => simp [State.serveFrom]
  | cons q r ih => unfold State.serveFrom; split <;> simp [ih]
@[simp] theorem State.serveFrom_straps (qs : List Claim) (s : State) :
    (State.serveFrom qs s).member.straps = s.member.straps := by
  induction qs generalizing s with
  | nil => simp [State.serveFrom]
  | cons q r ih => unfold State.serveFrom; split <;> simp [ih]
@[simp] theorem State.serveFrom_serial (qs : List Claim) (s : State) :
    (State.serveFrom qs s).member.serial = s.member.serial := by
  induction qs generalizing s with
  | nil => simp [State.serveFrom]
  | cons q r ih => unfold State.serveFrom; split <;> simp [ih]
@[simp] theorem State.serveFrom_settings (qs : List Claim) (s : State) :
    (State.serveFrom qs s).member.settings = s.member.settings := by
  induction qs generalizing s with
  | nil => simp [State.serveFrom]
  | cons q r ih => unfold State.serveFrom; split <;> simp [ih]

@[simp] theorem State.serve_frame (s : State) :
    (State.serve s).member = s.member ∧ (State.serve s).clock = s.clock ∧ (State.serve s).sync = s.sync ∧
    (State.serve s).capture = s.capture ∧ (State.serve s).ring = s.ring ∧ (State.serve s).dark = s.dark ∧
    (State.serve s).develop = s.develop ∧ (State.serve s).transfer = s.transfer ∧
    (State.serve s).notices = s.notices ∧ (State.serve s).power = s.power ∧ (State.serve s).pending = s.pending ∧
    (State.serve s).card.medium = s.card.medium := by
  and_intros <;> (unfold State.serve; (try dsimp only); (repeat' split) <;> simp)

@[simp] theorem State.beginMount_frame (s : State) :
    (State.beginMount s).member = s.member ∧ (State.beginMount s).link = s.link ∧
    (State.beginMount s).clock = s.clock ∧ (State.beginMount s).sync = s.sync ∧
    (State.beginMount s).capture = s.capture ∧ (State.beginMount s).ring = s.ring ∧
    (State.beginMount s).dark = s.dark ∧ (State.beginMount s).develop = s.develop ∧
    (State.beginMount s).transfer = s.transfer ∧ (State.beginMount s).power = s.power ∧
    (State.beginMount s).pending = s.pending ∧ (State.beginMount s).card.medium = s.card.medium := by
  and_intros <;> (unfold State.beginMount; (try dsimp only); (repeat' split) <;> simp)

@[simp] theorem State.mountIfPresent_frame (s : State) :
    (State.mountIfPresent s).member = s.member ∧ (State.mountIfPresent s).link = s.link ∧
    (State.mountIfPresent s).clock = s.clock ∧ (State.mountIfPresent s).sync = s.sync ∧
    (State.mountIfPresent s).capture = s.capture ∧ (State.mountIfPresent s).ring = s.ring ∧
    (State.mountIfPresent s).dark = s.dark ∧ (State.mountIfPresent s).develop = s.develop ∧
    (State.mountIfPresent s).transfer = s.transfer ∧ (State.mountIfPresent s).power = s.power ∧
    (State.mountIfPresent s).pending = s.pending ∧ (State.mountIfPresent s).card.medium = s.card.medium := by
  and_intros <;> (unfold State.mountIfPresent; (try dsimp only); (repeat' split) <;> simp)

@[simp] theorem State.announce_frame (n : Shot) (k : Socket) (frameNo firstBlock : Nat) (s : State) :
    (State.announce n k frameNo firstBlock s).member = s.member ∧ (State.announce n k frameNo firstBlock s).clock = s.clock ∧
    (State.announce n k frameNo firstBlock s).sync = s.sync ∧ (State.announce n k frameNo firstBlock s).capture = s.capture ∧
    (State.announce n k frameNo firstBlock s).ring = s.ring ∧ (State.announce n k frameNo firstBlock s).dark = s.dark ∧
    (State.announce n k frameNo firstBlock s).develop = s.develop ∧
    (State.announce n k frameNo firstBlock s).transfer = s.transfer ∧
    (State.announce n k frameNo firstBlock s).card = s.card ∧
    (State.announce n k frameNo firstBlock s).notices = s.notices ∧
    (State.announce n k frameNo firstBlock s).power = s.power ∧
    (State.announce n k frameNo firstBlock s).pending = s.pending := by
  and_intros <;> (unfold State.announce; (try dsimp only); (repeat' split) <;> simp)

@[simp] theorem State.tryReserve_frame (e : Entry) (s : State) :
    (State.tryReserve e s).member = s.member ∧ (State.tryReserve e s).clock = s.clock ∧
    (State.tryReserve e s).sync = s.sync ∧ (State.tryReserve e s).capture = s.capture ∧
    (State.tryReserve e s).ring = s.ring ∧ (State.tryReserve e s).dark = s.dark ∧
    (State.tryReserve e s).develop = s.develop ∧ (State.tryReserve e s).transfer = s.transfer ∧
    (State.tryReserve e s).power = s.power ∧ (State.tryReserve e s).pending = s.pending ∧
    (State.tryReserve e s).card.medium = s.card.medium := by
  and_intros <;> (unfold State.tryReserve; (try dsimp only); (repeat' split) <;> simp)

@[simp] theorem State.placeAtAdmission_frame (e : Entry) (s : State) :
    (State.placeAtAdmission e s).member = s.member ∧ (State.placeAtAdmission e s).clock = s.clock ∧
    (State.placeAtAdmission e s).sync = s.sync ∧ (State.placeAtAdmission e s).capture = s.capture ∧
    (State.placeAtAdmission e s).ring = s.ring ∧ (State.placeAtAdmission e s).dark = s.dark ∧
    (State.placeAtAdmission e s).develop = s.develop ∧ (State.placeAtAdmission e s).transfer = s.transfer ∧
    (State.placeAtAdmission e s).power = s.power ∧ (State.placeAtAdmission e s).pending = s.pending ∧
    (State.placeAtAdmission e s).card.medium = s.card.medium := by
  and_intros <;> (unfold State.placeAtAdmission; (try dsimp only); (repeat' split) <;> simp)

@[simp] theorem State.rePlace_frame (s : State) :
    (State.rePlace s).member = s.member ∧ (State.rePlace s).clock = s.clock ∧ (State.rePlace s).sync = s.sync ∧
    (State.rePlace s).capture = s.capture ∧ (State.rePlace s).ring = s.ring ∧ (State.rePlace s).dark = s.dark ∧
    (State.rePlace s).develop = s.develop ∧ (State.rePlace s).transfer = s.transfer ∧
    (State.rePlace s).power = s.power ∧ (State.rePlace s).pending = s.pending ∧
    (State.rePlace s).card.medium = s.card.medium := by
  and_intros <;> (unfold State.rePlace; (try dsimp only); (repeat' split) <;> simp)

@[simp] theorem State.overflowDecide_frame (source : Node) (n : Shot) (socket : Socket) (s : State) :
    (State.overflowDecide source n socket s).member = s.member ∧
    (State.overflowDecide source n socket s).clock = s.clock ∧
    (State.overflowDecide source n socket s).sync = s.sync ∧
    (State.overflowDecide source n socket s).capture = s.capture ∧
    (State.overflowDecide source n socket s).ring = s.ring ∧ (State.overflowDecide source n socket s).dark = s.dark ∧
    (State.overflowDecide source n socket s).develop = s.develop ∧
    (State.overflowDecide source n socket s).transfer = s.transfer ∧
    (State.overflowDecide source n socket s).power = s.power ∧
    (State.overflowDecide source n socket s).pending = s.pending ∧
    (State.overflowDecide source n socket s).card.medium = s.card.medium := by
  and_intros <;> (unfold State.overflowDecide; (try dsimp only); (repeat' split) <;> simp)

@[simp] theorem State.voidPlacement_frame (e : Entry) (s : State) :
    (State.voidPlacement e s).member = s.member ∧ (State.voidPlacement e s).clock = s.clock ∧
    (State.voidPlacement e s).sync = s.sync ∧ (State.voidPlacement e s).capture = s.capture ∧
    (State.voidPlacement e s).ring = s.ring ∧ (State.voidPlacement e s).dark = s.dark ∧
    (State.voidPlacement e s).develop = s.develop ∧ (State.voidPlacement e s).transfer = s.transfer ∧
    (State.voidPlacement e s).power = s.power ∧ (State.voidPlacement e s).pending = s.pending ∧
    (State.voidPlacement e s).card.medium = s.card.medium := by
  and_intros <;> (unfold State.voidPlacement; (try dsimp only); (repeat' split) <;> simp)

@[simp] theorem State.unplaceSumFailure_frame (p : Placed) (s : State) :
    (State.unplaceSumFailure p s).member = s.member ∧ (State.unplaceSumFailure p s).clock = s.clock ∧
    (State.unplaceSumFailure p s).sync = s.sync ∧ (State.unplaceSumFailure p s).capture = s.capture ∧
    (State.unplaceSumFailure p s).ring = s.ring ∧ (State.unplaceSumFailure p s).dark = s.dark ∧
    (State.unplaceSumFailure p s).develop = s.develop ∧ (State.unplaceSumFailure p s).transfer = s.transfer ∧
    (State.unplaceSumFailure p s).power = s.power ∧ (State.unplaceSumFailure p s).pending = s.pending ∧
    (State.unplaceSumFailure p s).card.medium = s.card.medium := by
  and_intros <;> (unfold State.unplaceSumFailure; (try dsimp only); (repeat' split) <;> simp)

@[simp] theorem State.dropAll_frame (reason : UnplaceReason) (s : State) :
    (State.dropAll reason s).member = s.member ∧ (State.dropAll reason s).clock = s.clock ∧
    (State.dropAll reason s).sync = s.sync ∧ (State.dropAll reason s).capture = s.capture ∧
    (State.dropAll reason s).ring = s.ring ∧ (State.dropAll reason s).dark = s.dark ∧
    (State.dropAll reason s).develop = s.develop ∧ (State.dropAll reason s).transfer = s.transfer ∧
    (State.dropAll reason s).notices = s.notices ∧ (State.dropAll reason s).power = s.power ∧
    (State.dropAll reason s).pending = s.pending ∧ (State.dropAll reason s).card.medium = s.card.medium := by
  and_intros <;> (unfold State.dropAll; (try dsimp only); (repeat' split) <;> simp)

@[simp] theorem State.commitTest_frame (n : Shot) (s : State) :
    (State.commitTest n s).member = s.member ∧ (State.commitTest n s).link = s.link ∧
    (State.commitTest n s).clock = s.clock ∧ (State.commitTest n s).sync = s.sync ∧
    (State.commitTest n s).capture = s.capture ∧ (State.commitTest n s).ring = s.ring ∧
    (State.commitTest n s).dark = s.dark ∧ (State.commitTest n s).develop = s.develop ∧
    (State.commitTest n s).transfer = s.transfer ∧ (State.commitTest n s).notices = s.notices ∧
    (State.commitTest n s).power = s.power ∧ (State.commitTest n s).pending = s.pending ∧
    (State.commitTest n s).card.medium = s.card.medium := by
  and_intros <;> (unfold State.commitTest; (try dsimp only); (repeat' split) <;> simp)

@[simp] theorem State.claimSocket_frame (n : Shot) (k : Socket) (s : State) :
    (State.claimSocket n k s).member = s.member ∧ (State.claimSocket n k s).clock = s.clock ∧
    (State.claimSocket n k s).sync = s.sync ∧ (State.claimSocket n k s).capture = s.capture ∧
    (State.claimSocket n k s).dark = s.dark ∧ (State.claimSocket n k s).develop = s.develop ∧
    (State.claimSocket n k s).transfer = s.transfer ∧ (State.claimSocket n k s).card = s.card ∧
    (State.claimSocket n k s).notices = s.notices ∧ (State.claimSocket n k s).power = s.power ∧
    (State.claimSocket n k s).pending = s.pending ∧ (State.claimSocket n k s).ring.next = s.ring.next := by
  and_intros <;> (unfold State.claimSocket; (try dsimp only); (repeat' split) <;> simp)

@[simp] theorem State.claimTargets_frame (n : Shot) (s : State) :
    (State.claimTargets n s).member = s.member ∧ (State.claimTargets n s).clock = s.clock ∧
    (State.claimTargets n s).sync = s.sync ∧ (State.claimTargets n s).capture = s.capture ∧
    (State.claimTargets n s).dark = s.dark ∧ (State.claimTargets n s).develop = s.develop ∧
    (State.claimTargets n s).transfer = s.transfer ∧ (State.claimTargets n s).card = s.card ∧
    (State.claimTargets n s).notices = s.notices ∧ (State.claimTargets n s).power = s.power ∧
    (State.claimTargets n s).pending = s.pending ∧ (State.claimTargets n s).ring.next = s.ring.next := by
  and_intros <;> (unfold State.claimTargets; (try dsimp only); (repeat' split) <;> simp)

@[simp] theorem State.beginPass_frame (n : Shot) (s : State) :
    (State.beginPass n s).member = s.member ∧ (State.beginPass n s).clock = s.clock ∧
    (State.beginPass n s).sync = s.sync ∧ (State.beginPass n s).capture = s.capture ∧
    (State.beginPass n s).dark = s.dark ∧ (State.beginPass n s).develop = s.develop ∧
    (State.beginPass n s).transfer = s.transfer ∧ (State.beginPass n s).card = s.card ∧
    (State.beginPass n s).notices = s.notices ∧ (State.beginPass n s).power = s.power ∧
    (State.beginPass n s).pending = s.pending ∧ (State.beginPass n s).ring.next = s.ring.next := by
  and_intros <;> (unfold State.beginPass; (try dsimp only); (repeat' split) <;> simp)

@[simp] theorem State.chooseTile_frame (s : State) :
    (State.chooseTile s).member = s.member ∧ (State.chooseTile s).clock = s.clock ∧
    (State.chooseTile s).sync = s.sync ∧ (State.chooseTile s).capture = s.capture ∧
    (State.chooseTile s).dark = s.dark ∧ (State.chooseTile s).develop = s.develop ∧
    (State.chooseTile s).card = s.card ∧ (State.chooseTile s).notices = s.notices ∧
    (State.chooseTile s).power = s.power ∧ (State.chooseTile s).pending = s.pending ∧
    (State.chooseTile s).ring.next = s.ring.next := by
  and_intros <;> (unfold State.chooseTile; (try dsimp only); (repeat' split) <;> simp)

@[simp] theorem State.leaveTile_frame (n : Shot) (s : State) :
    (State.leaveTile n s).member = s.member ∧ (State.leaveTile n s).clock = s.clock ∧
    (State.leaveTile n s).sync = s.sync ∧ (State.leaveTile n s).capture = s.capture ∧
    (State.leaveTile n s).dark = s.dark ∧ (State.leaveTile n s).develop = s.develop ∧
    (State.leaveTile n s).card = s.card ∧ (State.leaveTile n s).notices = s.notices ∧
    (State.leaveTile n s).power = s.power ∧ (State.leaveTile n s).pending = s.pending ∧
    (State.leaveTile n s).ring.next = s.ring.next := by
  and_intros <;> (unfold State.leaveTile; (try dsimp only); (repeat' split) <;> simp)

@[simp] theorem State.endPassIfDone_frame (n : Shot) (s : State) :
    (State.endPassIfDone n s).member = s.member ∧ (State.endPassIfDone n s).clock = s.clock ∧
    (State.endPassIfDone n s).sync = s.sync ∧ (State.endPassIfDone n s).capture = s.capture ∧
    (State.endPassIfDone n s).dark = s.dark ∧ (State.endPassIfDone n s).develop = s.develop ∧
    (State.endPassIfDone n s).card = s.card ∧ (State.endPassIfDone n s).notices = s.notices ∧
    (State.endPassIfDone n s).power = s.power ∧ (State.endPassIfDone n s).pending = s.pending ∧
    (State.endPassIfDone n s).ring.next = s.ring.next := by
  and_intros <;> (unfold State.endPassIfDone; (try dsimp only); (repeat' split) <;> simp)

@[simp] theorem State.resolve_frame (s : State) :
    (State.resolve s).member = s.member ∧ (State.resolve s).link = s.link ∧ (State.resolve s).sync = s.sync ∧
    (State.resolve s).capture = s.capture ∧ (State.resolve s).ring = s.ring ∧ (State.resolve s).dark = s.dark ∧
    (State.resolve s).transfer = s.transfer ∧ (State.resolve s).card = s.card ∧
    (State.resolve s).notices = s.notices ∧ (State.resolve s).power = s.power ∧
    (State.resolve s).pending = s.pending ∧ (State.resolve s).clock.linkTime = s.clock.linkTime := by
  and_intros <;> (unfold State.resolve; (try dsimp only); (repeat' split) <;> simp)

@[simp] theorem State.tryStartJob_frame (s : State) :
    (State.tryStartJob s).member = s.member ∧ (State.tryStartJob s).link = s.link ∧
    (State.tryStartJob s).clock = s.clock ∧ (State.tryStartJob s).sync = s.sync ∧
    (State.tryStartJob s).capture = s.capture ∧ (State.tryStartJob s).dark = s.dark ∧
    (State.tryStartJob s).transfer = s.transfer ∧ (State.tryStartJob s).card = s.card ∧
    (State.tryStartJob s).notices = s.notices ∧ (State.tryStartJob s).power = s.power ∧
    (State.tryStartJob s).pending = s.pending ∧ (State.tryStartJob s).ring.next = s.ring.next := by
  and_intros <;> (unfold State.tryStartJob; (try dsimp only); (repeat' split) <;> simp)

@[simp] theorem State.stopJob_frame (s : State) :
    (State.stopJob s).member = s.member ∧ (State.stopJob s).link = s.link ∧ (State.stopJob s).sync = s.sync ∧
    (State.stopJob s).capture = s.capture ∧ (State.stopJob s).ring = s.ring ∧ (State.stopJob s).dark = s.dark ∧
    (State.stopJob s).transfer = s.transfer ∧ (State.stopJob s).card = s.card ∧
    (State.stopJob s).notices = s.notices ∧ (State.stopJob s).power = s.power ∧
    (State.stopJob s).pending = s.pending ∧ (State.stopJob s).clock.linkTime = s.clock.linkTime := by
  and_intros <;> (unfold State.stopJob; (try dsimp only); (repeat' split) <;> simp)

@[simp] theorem State.developFreed_frame (n : Shot) (s : State) :
    (State.developFreed n s).member = s.member ∧ (State.developFreed n s).sync = s.sync ∧
    (State.developFreed n s).capture = s.capture ∧ (State.developFreed n s).ring = s.ring ∧
    (State.developFreed n s).dark = s.dark ∧ (State.developFreed n s).transfer = s.transfer ∧
    (State.developFreed n s).card = s.card ∧ (State.developFreed n s).notices = s.notices ∧
    (State.developFreed n s).power = s.power ∧ (State.developFreed n s).pending = s.pending ∧
    (State.developFreed n s).clock.linkTime = s.clock.linkTime := by
  and_intros <;> (unfold State.developFreed; (try dsimp only); (repeat' split) <;> simp)

@[simp] theorem State.updJob_frame (f : Job → Job) (s : State) :
    (State.updJob f s).member = s.member ∧ (State.updJob f s).link = s.link ∧ (State.updJob f s).clock = s.clock ∧
    (State.updJob f s).sync = s.sync ∧ (State.updJob f s).capture = s.capture ∧ (State.updJob f s).ring = s.ring ∧
    (State.updJob f s).dark = s.dark ∧ (State.updJob f s).transfer = s.transfer ∧ (State.updJob f s).card = s.card ∧
    (State.updJob f s).notices = s.notices ∧ (State.updJob f s).power = s.power ∧
    (State.updJob f s).pending = s.pending := by
  and_intros <;> (unfold State.updJob; (try dsimp only); (repeat' split) <;> simp)

@[simp] theorem State.rework_frame (i : Nat) (f : List Sample → List Sample) (s : State) :
    (State.rework i f s).member = s.member ∧ (State.rework i f s).link = s.link ∧
    (State.rework i f s).clock = s.clock ∧ (State.rework i f s).sync = s.sync ∧
    (State.rework i f s).capture = s.capture ∧ (State.rework i f s).dark = s.dark ∧
    (State.rework i f s).develop = s.develop ∧ (State.rework i f s).transfer = s.transfer ∧
    (State.rework i f s).card = s.card ∧ (State.rework i f s).notices = s.notices ∧
    (State.rework i f s).power = s.power ∧ (State.rework i f s).pending = s.pending ∧
    (State.rework i f s).ring.next = s.ring.next := by
  and_intros <;> (unfold State.rework; (try dsimp only); (repeat' split) <;> simp)

@[simp] theorem State.freeSlot_frame (n : Shot) (s : State) :
    (State.freeSlot n s).member = s.member ∧ (State.freeSlot n s).sync = s.sync ∧
    (State.freeSlot n s).capture = s.capture ∧ (State.freeSlot n s).dark = s.dark ∧
    (State.freeSlot n s).power = s.power ∧ (State.freeSlot n s).pending = s.pending ∧
    (State.freeSlot n s).clock.linkTime = s.clock.linkTime ∧ (State.freeSlot n s).card.medium = s.card.medium ∧
    (State.freeSlot n s).ring.next = s.ring.next := by
  and_intros <;> (unfold State.freeSlot; (try dsimp only); (repeat' split) <;> simp)

@[simp] theorem State.completionTest_frame (n : Shot) (s : State) :
    (State.completionTest n s).member = s.member ∧ (State.completionTest n s).sync = s.sync ∧
    (State.completionTest n s).capture = s.capture ∧ (State.completionTest n s).dark = s.dark ∧
    (State.completionTest n s).power = s.power ∧ (State.completionTest n s).pending = s.pending ∧
    (State.completionTest n s).clock.linkTime = s.clock.linkTime ∧
    (State.completionTest n s).card.medium = s.card.medium ∧ (State.completionTest n s).ring.next = s.ring.next := by
  and_intros <;> (unfold State.completionTest; (try dsimp only); (repeat' split) <;> simp)

@[simp] theorem State.emptyRing_frame (s : State) :
    (State.emptyRing s).member = s.member ∧ (State.emptyRing s).sync = s.sync ∧
    (State.emptyRing s).capture = s.capture ∧ (State.emptyRing s).dark = s.dark ∧
    (State.emptyRing s).power = s.power ∧ (State.emptyRing s).pending = s.pending ∧
    (State.emptyRing s).clock.linkTime = s.clock.linkTime ∧ (State.emptyRing s).card.medium = s.card.medium ∧
    (State.emptyRing s).ring.next = s.ring.next := by
  and_intros <;> (unfold State.emptyRing; (try dsimp only); (repeat' split) <;> simp)

@[simp] theorem State.admit_frame (n : Shot) (start : Time) (s : State) :
    (State.admitShot n start s).member = s.member ∧ (State.admitShot n start s).clock = s.clock ∧
    (State.admitShot n start s).sync = s.sync ∧ (State.admitShot n start s).capture = s.capture ∧
    (State.admitShot n start s).dark = s.dark ∧ (State.admitShot n start s).develop = s.develop ∧
    (State.admitShot n start s).transfer = s.transfer ∧ (State.admitShot n start s).power = s.power ∧
    (State.admitShot n start s).pending = s.pending ∧ (State.admitShot n start s).card.medium = s.card.medium ∧
    (State.admitShot n start s).ring.next = s.ring.next := by
  and_intros <;> (unfold State.admitShot; (try dsimp only); (repeat' split) <;> simp)

@[simp] theorem State.invalidateDark_frame (s : State) :
    (State.invalidateDark s).member = s.member ∧ (State.invalidateDark s).link = s.link ∧
    (State.invalidateDark s).clock = s.clock ∧ (State.invalidateDark s).sync = s.sync ∧
    (State.invalidateDark s).capture = s.capture ∧ (State.invalidateDark s).transfer = s.transfer ∧
    (State.invalidateDark s).card = s.card ∧ (State.invalidateDark s).notices = s.notices ∧
    (State.invalidateDark s).power = s.power ∧ (State.invalidateDark s).pending = s.pending ∧
    (State.invalidateDark s).ring.next = s.ring.next := by
  and_intros <;> (unfold State.invalidateDark; (try dsimp only); (repeat' split) <;> simp)

@[simp] theorem State.startDark_frame (n : Shot) (duration : Nat) (s : State) :
    (State.startDark n duration s).member = s.member ∧ (State.startDark n duration s).link = s.link ∧
    (State.startDark n duration s).sync = s.sync ∧ (State.startDark n duration s).transfer = s.transfer ∧
    (State.startDark n duration s).card = s.card ∧ (State.startDark n duration s).notices = s.notices ∧
    (State.startDark n duration s).power = s.power ∧ (State.startDark n duration s).pending = s.pending ∧
    (State.startDark n duration s).clock.linkTime = s.clock.linkTime ∧
    (State.startDark n duration s).ring.next = s.ring.next := by
  and_intros <;> (unfold State.startDark; (try dsimp only); (repeat' split) <;> simp)

@[simp] theorem State.settleAwaiting_frame (n : Shot) (d : DarkStatus) (s : State) :
    (State.settleAwaiting n d s).member = s.member ∧ (State.settleAwaiting n d s).link = s.link ∧
    (State.settleAwaiting n d s).clock = s.clock ∧ (State.settleAwaiting n d s).sync = s.sync ∧
    (State.settleAwaiting n d s).capture = s.capture ∧ (State.settleAwaiting n d s).dark = s.dark ∧
    (State.settleAwaiting n d s).develop = s.develop ∧ (State.settleAwaiting n d s).transfer = s.transfer ∧
    (State.settleAwaiting n d s).card = s.card ∧ (State.settleAwaiting n d s).notices = s.notices ∧
    (State.settleAwaiting n d s).power = s.power ∧ (State.settleAwaiting n d s).pending = s.pending ∧
    (State.settleAwaiting n d s).ring.next = s.ring.next := by
  and_intros <;> (unfold State.settleAwaiting; (try dsimp only); (repeat' split) <;> simp)

@[simp] theorem State.abandonDark_frame (s : State) :
    (State.abandonDark s).member = s.member ∧ (State.abandonDark s).link = s.link ∧
    (State.abandonDark s).sync = s.sync ∧ (State.abandonDark s).transfer = s.transfer ∧
    (State.abandonDark s).card = s.card ∧ (State.abandonDark s).notices = s.notices ∧
    (State.abandonDark s).power = s.power ∧ (State.abandonDark s).pending = s.pending ∧
    (State.abandonDark s).clock.linkTime = s.clock.linkTime ∧ (State.abandonDark s).ring.next = s.ring.next := by
  and_intros <;> (unfold State.abandonDark; (try dsimp only); (repeat' split) <;> simp)

@[simp] theorem State.insertHot_frame (i : Nat) (s : State) :
    (State.insertHot i s).member = s.member ∧ (State.insertHot i s).link = s.link ∧
    (State.insertHot i s).clock = s.clock ∧ (State.insertHot i s).sync = s.sync ∧
    (State.insertHot i s).capture = s.capture ∧ (State.insertHot i s).ring = s.ring ∧
    (State.insertHot i s).develop = s.develop ∧ (State.insertHot i s).transfer = s.transfer ∧
    (State.insertHot i s).card = s.card ∧ (State.insertHot i s).notices = s.notices ∧
    (State.insertHot i s).power = s.power ∧ (State.insertHot i s).pending = s.pending := by
  and_intros <;> (unfold State.insertHot; (try dsimp only); (repeat' split) <;> simp)

@[simp] theorem State.cancelRelease_frame (s : State) :
    (State.cancelRelease s).member = s.member ∧ (State.cancelRelease s).link = s.link ∧
    (State.cancelRelease s).sync = s.sync ∧ (State.cancelRelease s).ring = s.ring ∧
    (State.cancelRelease s).dark = s.dark ∧ (State.cancelRelease s).develop = s.develop ∧
    (State.cancelRelease s).transfer = s.transfer ∧ (State.cancelRelease s).card = s.card ∧
    (State.cancelRelease s).notices = s.notices ∧ (State.cancelRelease s).power = s.power ∧
    (State.cancelRelease s).pending = s.pending ∧ (State.cancelRelease s).clock.linkTime = s.clock.linkTime := by
  and_intros <;> (unfold State.cancelRelease; (try dsimp only); (repeat' split) <;> simp)

@[simp] theorem State.recordOutcome_frame (n : Shot) (s : State) :
    (State.recordOutcome n s).member = s.member ∧ (State.recordOutcome n s).link = s.link ∧
    (State.recordOutcome n s).clock = s.clock ∧ (State.recordOutcome n s).sync = s.sync ∧
    (State.recordOutcome n s).capture = s.capture ∧ (State.recordOutcome n s).dark = s.dark ∧
    (State.recordOutcome n s).transfer = s.transfer ∧ (State.recordOutcome n s).card = s.card ∧
    (State.recordOutcome n s).notices = s.notices ∧ (State.recordOutcome n s).power = s.power ∧
    (State.recordOutcome n s).pending = s.pending ∧ (State.recordOutcome n s).ring.next = s.ring.next := by
  and_intros <;> (unfold State.recordOutcome; (try dsimp only); (repeat' split) <;> simp)

@[simp] theorem State.raiseShotOpened_frame (n : Shot) (s : State) :
    (State.raiseShotOpened n s).member = s.member ∧ (State.raiseShotOpened n s).link = s.link ∧
    (State.raiseShotOpened n s).clock = s.clock ∧ (State.raiseShotOpened n s).sync = s.sync ∧
    (State.raiseShotOpened n s).capture = s.capture ∧ (State.raiseShotOpened n s).ring = s.ring ∧
    (State.raiseShotOpened n s).dark = s.dark ∧ (State.raiseShotOpened n s).develop = s.develop ∧
    (State.raiseShotOpened n s).transfer = s.transfer ∧ (State.raiseShotOpened n s).card = s.card ∧
    (State.raiseShotOpened n s).power = s.power ∧ (State.raiseShotOpened n s).pending = s.pending := by
  and_intros <;> (unfold State.raiseShotOpened; (try dsimp only); (repeat' split) <;> simp)

@[simp] theorem State.settleOpener_frame (source : Node) (n : Shot) (s : State) :
    (State.settleOpener source n s).member = s.member ∧ (State.settleOpener source n s).link = s.link ∧
    (State.settleOpener source n s).clock = s.clock ∧ (State.settleOpener source n s).sync = s.sync ∧
    (State.settleOpener source n s).capture = s.capture ∧ (State.settleOpener source n s).dark = s.dark ∧
    (State.settleOpener source n s).develop = s.develop ∧ (State.settleOpener source n s).transfer = s.transfer ∧
    (State.settleOpener source n s).card = s.card ∧ (State.settleOpener source n s).power = s.power ∧
    (State.settleOpener source n s).pending = s.pending ∧ (State.settleOpener source n s).ring.next = s.ring.next := by
  and_intros <;> (unfold State.settleOpener; (try dsimp only); (repeat' split) <;> simp)

@[simp] theorem State.agreeOpen_frame (n : Shot) (t : Time) (s : State) :
    (State.agreeOpen n t s).member = s.member ∧ (State.agreeOpen n t s).link = s.link ∧
    (State.agreeOpen n t s).clock = s.clock ∧ (State.agreeOpen n t s).sync = s.sync ∧
    (State.agreeOpen n t s).capture = s.capture ∧ (State.agreeOpen n t s).dark = s.dark ∧
    (State.agreeOpen n t s).transfer = s.transfer ∧ (State.agreeOpen n t s).card = s.card ∧
    (State.agreeOpen n t s).notices = s.notices ∧ (State.agreeOpen n t s).power = s.power ∧
    (State.agreeOpen n t s).pending = s.pending ∧ (State.agreeOpen n t s).ring.next = s.ring.next := by
  and_intros <;> (unfold State.agreeOpen; (try dsimp only); (repeat' split) <;> simp)

@[simp] theorem State.takeAgreedOpen_frame (source : Node) (n : Shot) (t : Time) (s : State) :
    (State.takeAgreedOpen source n t s).member = s.member ∧ (State.takeAgreedOpen source n t s).link = s.link ∧
    (State.takeAgreedOpen source n t s).clock = s.clock ∧ (State.takeAgreedOpen source n t s).sync = s.sync ∧
    (State.takeAgreedOpen source n t s).capture = s.capture ∧ (State.takeAgreedOpen source n t s).dark = s.dark ∧
    (State.takeAgreedOpen source n t s).transfer = s.transfer ∧ (State.takeAgreedOpen source n t s).card = s.card ∧
    (State.takeAgreedOpen source n t s).power = s.power ∧ (State.takeAgreedOpen source n t s).pending = s.pending ∧
    (State.takeAgreedOpen source n t s).ring.next = s.ring.next := by
  and_intros <;> (unfold State.takeAgreedOpen; (try dsimp only); (repeat' split) <;> simp)

@[simp] theorem State.stopRunning_frame (id : TimerId) (s : State) :
    (State.stopRunning id s).member = s.member ∧ (State.stopRunning id s).link = s.link ∧
    (State.stopRunning id s).sync = s.sync ∧ (State.stopRunning id s).capture = s.capture ∧
    (State.stopRunning id s).ring = s.ring ∧ (State.stopRunning id s).dark = s.dark ∧
    (State.stopRunning id s).develop = s.develop ∧ (State.stopRunning id s).transfer = s.transfer ∧
    (State.stopRunning id s).card = s.card ∧ (State.stopRunning id s).notices = s.notices ∧
    (State.stopRunning id s).power = s.power ∧ (State.stopRunning id s).pending = s.pending ∧
    (State.stopRunning id s).clock.linkTime = s.clock.linkTime := by
  and_intros <;> (unfold State.stopRunning; (try dsimp only); (repeat' split) <;> simp)

@[simp] theorem State.endIntegration_frame (ownEnd : Time) (s : State) :
    (State.endIntegration ownEnd s).member = s.member ∧ (State.endIntegration ownEnd s).link = s.link ∧
    (State.endIntegration ownEnd s).dark = s.dark ∧ (State.endIntegration ownEnd s).transfer = s.transfer ∧
    (State.endIntegration ownEnd s).card = s.card ∧ (State.endIntegration ownEnd s).power = s.power ∧
    (State.endIntegration ownEnd s).pending = s.pending ∧
    (State.endIntegration ownEnd s).clock.linkTime = s.clock.linkTime ∧
    (State.endIntegration ownEnd s).ring.next = s.ring.next := by
  and_intros <;> (unfold State.endIntegration; (try dsimp only); (repeat' split) <;> simp)

@[simp] theorem State.markLimit_frame (n : Shot) (s : State) :
    (State.markLimit n s).member = s.member ∧ (State.markLimit n s).link = s.link ∧
    (State.markLimit n s).clock = s.clock ∧ (State.markLimit n s).sync = s.sync ∧
    (State.markLimit n s).dark = s.dark ∧ (State.markLimit n s).develop = s.develop ∧
    (State.markLimit n s).transfer = s.transfer ∧ (State.markLimit n s).card = s.card ∧
    (State.markLimit n s).notices = s.notices ∧ (State.markLimit n s).power = s.power ∧
    (State.markLimit n s).pending = s.pending ∧ (State.markLimit n s).ring.next = s.ring.next := by
  and_intros <;> (unfold State.markLimit; (try dsimp only); (repeat' split) <;> simp)

@[simp] theorem State.observe_frame (n : Shot) (t : Time) (s : State) :
    (State.observe n t s).member = s.member ∧ (State.observe n t s).link = s.link ∧
    (State.observe n t s).clock = s.clock ∧ (State.observe n t s).sync = s.sync ∧
    (State.observe n t s).ring = s.ring ∧ (State.observe n t s).dark = s.dark ∧
    (State.observe n t s).develop = s.develop ∧ (State.observe n t s).transfer = s.transfer ∧
    (State.observe n t s).card = s.card ∧ (State.observe n t s).notices = s.notices ∧
    (State.observe n t s).power = s.power ∧ (State.observe n t s).pending = s.pending := by
  and_intros <;> (unfold State.observe; (try dsimp only); (repeat' split) <;> simp)

@[simp] theorem State.admitTrigger_frame (n : Shot) (edge : Option Time) (start : Time) (s : State) :
    (State.admitTrigger n edge start s).member = s.member ∧ (State.admitTrigger n edge start s).sync = s.sync ∧
    (State.admitTrigger n edge start s).dark = s.dark ∧ (State.admitTrigger n edge start s).develop = s.develop ∧
    (State.admitTrigger n edge start s).transfer = s.transfer ∧ (State.admitTrigger n edge start s).power = s.power ∧
    (State.admitTrigger n edge start s).pending = s.pending ∧
    (State.admitTrigger n edge start s).clock.linkTime = s.clock.linkTime ∧
    (State.admitTrigger n edge start s).card.medium = s.card.medium ∧
    (State.admitTrigger n edge start s).ring.next = s.ring.next := by
  and_intros <;> (unfold State.admitTrigger; (try dsimp only); (repeat' split) <;> simp)

@[simp] theorem State.decideAdmission_frame (n : Shot) (edge : Option Time) (start : Time) (s : State) :
    (State.decideAdmission n edge start s).member = s.member ∧ (State.decideAdmission n edge start s).sync = s.sync ∧
    (State.decideAdmission n edge start s).dark = s.dark ∧
    (State.decideAdmission n edge start s).develop = s.develop ∧
    (State.decideAdmission n edge start s).transfer = s.transfer ∧
    (State.decideAdmission n edge start s).power = s.power ∧
    (State.decideAdmission n edge start s).pending = s.pending ∧
    (State.decideAdmission n edge start s).clock.linkTime = s.clock.linkTime ∧
    (State.decideAdmission n edge start s).card.medium = s.card.medium ∧
    (State.decideAdmission n edge start s).ring.next = s.ring.next := by
  and_intros <;> (unfold State.decideAdmission; (try dsimp only); (repeat' split) <;> simp)

@[simp] theorem State.giveWay_frame (s : State) :
    (State.giveWay s).member = s.member ∧ (State.giveWay s).sync = s.sync ∧ (State.giveWay s).transfer = s.transfer ∧
    (State.giveWay s).card = s.card ∧ (State.giveWay s).notices = s.notices ∧ (State.giveWay s).power = s.power ∧
    (State.giveWay s).pending = s.pending ∧ (State.giveWay s).clock.linkTime = s.clock.linkTime ∧
    (State.giveWay s).ring.next = s.ring.next := by
  and_intros <;> (unfold State.giveWay; (try dsimp only); (repeat' split) <;> simp)

@[simp] theorem State.fillQuiet_frame (s : State) :
    (State.fillQuiet s).member = s.member ∧ (State.fillQuiet s).sync = s.sync ∧ (State.fillQuiet s).ring = s.ring ∧
    (State.fillQuiet s).dark = s.dark ∧ (State.fillQuiet s).develop = s.develop ∧
    (State.fillQuiet s).transfer = s.transfer ∧ (State.fillQuiet s).card = s.card ∧
    (State.fillQuiet s).notices = s.notices ∧ (State.fillQuiet s).power = s.power ∧
    (State.fillQuiet s).pending = s.pending ∧ (State.fillQuiet s).clock.linkTime = s.clock.linkTime := by
  and_intros <;> (unfold State.fillQuiet; (try dsimp only); (repeat' split) <;> simp)

@[simp] theorem State.quietExpiry_frame (s : State) :
    (State.quietExpiry s).member = s.member ∧ (State.quietExpiry s).link = s.link ∧
    (State.quietExpiry s).clock = s.clock ∧ (State.quietExpiry s).sync = s.sync ∧
    (State.quietExpiry s).ring = s.ring ∧ (State.quietExpiry s).dark = s.dark ∧
    (State.quietExpiry s).develop = s.develop ∧ (State.quietExpiry s).transfer = s.transfer ∧
    (State.quietExpiry s).card = s.card ∧ (State.quietExpiry s).power = s.power ∧
    (State.quietExpiry s).pending = s.pending := by
  and_intros <;> (unfold State.quietExpiry; (try dsimp only); (repeat' split) <;> simp)

@[simp] theorem State.beginTrigger_frame (n : Shot) (s : State) :
    (State.beginTrigger n s).member = s.member ∧ (State.beginTrigger n s).sync = s.sync ∧
    (State.beginTrigger n s).transfer = s.transfer ∧ (State.beginTrigger n s).card = s.card ∧
    (State.beginTrigger n s).power = s.power ∧ (State.beginTrigger n s).pending = s.pending ∧
    (State.beginTrigger n s).clock.linkTime = s.clock.linkTime := by
  and_intros <;> (unfold State.beginTrigger; (try dsimp only); (repeat' split) <;> simp)

@[simp] theorem State.trigger_frame (n : Shot) (edge : Option Time) (start : Time) (s : State) :
    (State.trigger n edge start s).member = s.member ∧ (State.trigger n edge start s).sync = s.sync ∧
    (State.trigger n edge start s).transfer = s.transfer ∧ (State.trigger n edge start s).power = s.power ∧
    (State.trigger n edge start s).pending = s.pending ∧
    (State.trigger n edge start s).clock.linkTime = s.clock.linkTime ∧
    (State.trigger n edge start s).card.medium = s.card.medium := by
  and_intros <;> (unfold State.trigger; (try dsimp only); (repeat' split) <;> simp)

@[simp] theorem State.raiseNext_frame (n : Shot) (s : State) :
    (State.raiseNext n s).member = s.member ∧ (State.raiseNext n s).link = s.link ∧
    (State.raiseNext n s).clock = s.clock ∧ (State.raiseNext n s).sync = s.sync ∧
    (State.raiseNext n s).capture = s.capture ∧ (State.raiseNext n s).dark = s.dark ∧
    (State.raiseNext n s).develop = s.develop ∧ (State.raiseNext n s).transfer = s.transfer ∧
    (State.raiseNext n s).card = s.card ∧ (State.raiseNext n s).notices = s.notices ∧
    (State.raiseNext n s).power = s.power ∧ (State.raiseNext n s).pending = s.pending := by
  and_intros <;> (unfold State.raiseNext; (try dsimp only); (repeat' split) <;> simp)

@[simp] theorem State.clearQuiet_frame (s : State) :
    (State.clearQuiet s).member = s.member ∧ (State.clearQuiet s).link = s.link ∧ (State.clearQuiet s).sync = s.sync ∧
    (State.clearQuiet s).ring = s.ring ∧ (State.clearQuiet s).dark = s.dark ∧
    (State.clearQuiet s).develop = s.develop ∧ (State.clearQuiet s).transfer = s.transfer ∧
    (State.clearQuiet s).card = s.card ∧ (State.clearQuiet s).notices = s.notices ∧
    (State.clearQuiet s).power = s.power ∧ (State.clearQuiet s).pending = s.pending ∧
    (State.clearQuiet s).clock.linkTime = s.clock.linkTime := by
  and_intros <;> (unfold State.clearQuiet; (try dsimp only); (repeat' split) <;> simp)

@[simp] theorem State.abandonShot_frame (n : Shot) (s : State) :
    (State.abandonShot n s).member = s.member ∧ (State.abandonShot n s).link = s.link ∧
    (State.abandonShot n s).sync = s.sync ∧ (State.abandonShot n s).ring = s.ring ∧
    (State.abandonShot n s).dark = s.dark ∧ (State.abandonShot n s).develop = s.develop ∧
    (State.abandonShot n s).transfer = s.transfer ∧ (State.abandonShot n s).card = s.card ∧
    (State.abandonShot n s).notices = s.notices ∧ (State.abandonShot n s).power = s.power ∧
    (State.abandonShot n s).pending = s.pending ∧ (State.abandonShot n s).clock.linkTime = s.clock.linkTime := by
  and_intros <;> (unfold State.abandonShot; (try dsimp only); (repeat' split) <;> simp)

@[simp] theorem State.freeUnread_frame (n : Shot) (s : State) :
    (State.freeUnread n s).member = s.member ∧ (State.freeUnread n s).sync = s.sync ∧
    (State.freeUnread n s).capture = s.capture ∧ (State.freeUnread n s).dark = s.dark ∧
    (State.freeUnread n s).power = s.power ∧ (State.freeUnread n s).pending = s.pending ∧
    (State.freeUnread n s).clock.linkTime = s.clock.linkTime ∧ (State.freeUnread n s).card.medium = s.card.medium ∧
    (State.freeUnread n s).ring.next = s.ring.next := by
  and_intros <;> (unfold State.freeUnread; (try dsimp only); (repeat' split) <;> simp)

@[simp] theorem State.halt_frame (source : Node) (n : Shot) (reason : RefuseReason) (s : State) :
    (State.halt source n reason s).member = s.member ∧ (State.halt source n reason s).link = s.link ∧
    (State.halt source n reason s).sync = s.sync ∧ (State.halt source n reason s).ring = s.ring ∧
    (State.halt source n reason s).dark = s.dark ∧ (State.halt source n reason s).develop = s.develop ∧
    (State.halt source n reason s).transfer = s.transfer ∧ (State.halt source n reason s).card = s.card ∧
    (State.halt source n reason s).power = s.power ∧ (State.halt source n reason s).pending = s.pending ∧
    (State.halt source n reason s).clock.linkTime = s.clock.linkTime := by
  and_intros <;> (unfold State.halt; (try dsimp only); (repeat' split) <;> simp)

@[simp] theorem State.dropShot_frame (source : Node) (n : Shot) (reason : RefuseReason) (policy : Policy) (s : State) :
    (State.dropShot source n reason policy s).member = s.member ∧
    (State.dropShot source n reason policy s).sync = s.sync ∧
    (State.dropShot source n reason policy s).dark = s.dark ∧
    (State.dropShot source n reason policy s).power = s.power ∧
    (State.dropShot source n reason policy s).pending = s.pending ∧
    (State.dropShot source n reason policy s).clock.linkTime = s.clock.linkTime ∧
    (State.dropShot source n reason policy s).card.medium = s.card.medium ∧
    (State.dropShot source n reason policy s).ring.next = s.ring.next := by
  and_intros <;> (unfold State.dropShot; (try dsimp only); (repeat' split) <;> simp)

@[simp] theorem State.sendRoll_frame (s : State) :
    (State.sendRoll s).member = s.member ∧ (State.sendRoll s).clock = s.clock ∧ (State.sendRoll s).sync = s.sync ∧
    (State.sendRoll s).capture = s.capture ∧ (State.sendRoll s).ring = s.ring ∧ (State.sendRoll s).dark = s.dark ∧
    (State.sendRoll s).develop = s.develop ∧ (State.sendRoll s).transfer = s.transfer ∧
    (State.sendRoll s).card = s.card ∧ (State.sendRoll s).notices = s.notices ∧ (State.sendRoll s).power = s.power ∧
    (State.sendRoll s).pending = s.pending := by
  and_intros <;> (unfold State.sendRoll; (try dsimp only); (repeat' split) <;> simp)

@[simp] theorem State.startWait_frame (s : State) :
    (State.startWait s).member = s.member ∧ (State.startWait s).sync = s.sync ∧
    (State.startWait s).capture = s.capture ∧ (State.startWait s).ring = s.ring ∧ (State.startWait s).dark = s.dark ∧
    (State.startWait s).develop = s.develop ∧ (State.startWait s).transfer = s.transfer ∧
    (State.startWait s).card = s.card ∧ (State.startWait s).notices = s.notices ∧
    (State.startWait s).power = s.power ∧ (State.startWait s).pending = s.pending ∧
    (State.startWait s).clock.linkTime = s.clock.linkTime := by
  and_intros <;> (unfold State.startWait; (try dsimp only); (repeat' split) <;> simp)

@[simp] theorem State.setupRollCall_frame (rejoin : Bool) (s : State) :
    (State.setupRollCall rejoin s).sync = s.sync ∧ (State.setupRollCall rejoin s).capture = s.capture ∧
    (State.setupRollCall rejoin s).ring = s.ring ∧ (State.setupRollCall rejoin s).dark = s.dark ∧
    (State.setupRollCall rejoin s).develop = s.develop ∧ (State.setupRollCall rejoin s).transfer = s.transfer ∧
    (State.setupRollCall rejoin s).card = s.card ∧ (State.setupRollCall rejoin s).notices = s.notices ∧
    (State.setupRollCall rejoin s).power = s.power ∧ (State.setupRollCall rejoin s).pending = s.pending ∧
    (State.setupRollCall rejoin s).clock.linkTime = s.clock.linkTime ∧
    (State.setupRollCall rejoin s).member.straps = s.member.straps ∧
    (State.setupRollCall rejoin s).member.serial = s.member.serial ∧
    (State.setupRollCall rejoin s).member.settings = s.member.settings := by
  and_intros <;> (unfold State.setupRollCall; (try dsimp only); (repeat' split) <;> simp)

@[simp] theorem State.discardHeld_frame (s : State) :
    (State.discardHeld s).member = s.member ∧ (State.discardHeld s).clock = s.clock ∧
    (State.discardHeld s).sync = s.sync ∧ (State.discardHeld s).capture = s.capture ∧
    (State.discardHeld s).ring = s.ring ∧ (State.discardHeld s).dark = s.dark ∧
    (State.discardHeld s).transfer = s.transfer ∧ (State.discardHeld s).card = s.card ∧
    (State.discardHeld s).notices = s.notices ∧ (State.discardHeld s).power = s.power ∧
    (State.discardHeld s).pending = s.pending := by
  and_intros <;> (unfold State.discardHeld; (try dsimp only); (repeat' split) <;> simp)

@[simp] theorem State.exclude_frame (s : State) :
    (State.exclude s).sync = s.sync ∧ (State.exclude s).capture = s.capture ∧ (State.exclude s).ring = s.ring ∧
    (State.exclude s).dark = s.dark ∧ (State.exclude s).transfer = s.transfer ∧ (State.exclude s).card = s.card ∧
    (State.exclude s).notices = s.notices ∧ (State.exclude s).power = s.power ∧
    (State.exclude s).pending = s.pending ∧ (State.exclude s).clock.linkTime = s.clock.linkTime ∧
    (State.exclude s).member.straps = s.member.straps ∧ (State.exclude s).member.serial = s.member.serial ∧
    (State.exclude s).member.settings = s.member.settings := by
  and_intros <;> (unfold State.exclude; (try dsimp only); (repeat' split) <;> simp)

@[simp] theorem State.settleLetter_frame (s : State) :
    (State.settleLetter s).member = s.member ∧ (State.settleLetter s).link = s.link ∧
    (State.settleLetter s).clock = s.clock ∧ (State.settleLetter s).sync = s.sync ∧
    (State.settleLetter s).capture = s.capture ∧ (State.settleLetter s).ring = s.ring ∧
    (State.settleLetter s).dark = s.dark ∧ (State.settleLetter s).develop = s.develop ∧
    (State.settleLetter s).transfer = s.transfer ∧ (State.settleLetter s).notices = s.notices ∧
    (State.settleLetter s).power = s.power ∧ (State.settleLetter s).pending = s.pending ∧
    (State.settleLetter s).card.medium = s.card.medium := by
  and_intros <;> (unfold State.settleLetter; (try dsimp only); (repeat' split) <;> simp)

@[simp] theorem State.enterReady_frame (s : State) :
    (State.enterReady s).member = s.member ∧ (State.enterReady s).clock = s.clock ∧
    (State.enterReady s).sync = s.sync ∧ (State.enterReady s).capture = s.capture ∧
    (State.enterReady s).dark = s.dark ∧ (State.enterReady s).power = s.power ∧
    (State.enterReady s).pending = s.pending ∧ (State.enterReady s).card.medium = s.card.medium ∧
    (State.enterReady s).ring.next = s.ring.next := by
  and_intros <;> (unfold State.enterReady; (try dsimp only); (repeat' split) <;> simp)

@[simp] theorem State.leaveRolling_frame (st : StationState) (s : State) :
    (State.leaveRolling st s).clock = s.clock ∧ (State.leaveRolling st s).sync = s.sync ∧
    (State.leaveRolling st s).capture = s.capture ∧ (State.leaveRolling st s).ring = s.ring ∧
    (State.leaveRolling st s).dark = s.dark ∧ (State.leaveRolling st s).develop = s.develop ∧
    (State.leaveRolling st s).transfer = s.transfer ∧ (State.leaveRolling st s).notices = s.notices ∧
    (State.leaveRolling st s).power = s.power ∧ (State.leaveRolling st s).pending = s.pending ∧
    (State.leaveRolling st s).card.medium = s.card.medium ∧
    (State.leaveRolling st s).member.straps = s.member.straps ∧
    (State.leaveRolling st s).member.serial = s.member.serial ∧
    (State.leaveRolling st s).member.settings = s.member.settings := by
  and_intros <;> (unfold State.leaveRolling; (try dsimp only); (repeat' split) <;> simp)

@[simp] theorem State.endRollCall_frame (s : State) :
    (State.endRollCall s).sync = s.sync ∧ (State.endRollCall s).dark = s.dark ∧
    (State.endRollCall s).power = s.power ∧ (State.endRollCall s).pending = s.pending ∧
    (State.endRollCall s).clock.linkTime = s.clock.linkTime ∧ (State.endRollCall s).card.medium = s.card.medium ∧
    (State.endRollCall s).member.straps = s.member.straps ∧ (State.endRollCall s).member.serial = s.member.serial ∧
    (State.endRollCall s).member.settings = s.member.settings := by
  and_intros <;> (unfold State.endRollCall; (try dsimp only); (repeat' split) <;> simp)

@[simp] theorem State.rollExpiry_frame (s : State) :
    (State.rollExpiry s).sync = s.sync ∧ (State.rollExpiry s).dark = s.dark ∧ (State.rollExpiry s).power = s.power ∧
    (State.rollExpiry s).pending = s.pending ∧ (State.rollExpiry s).clock.linkTime = s.clock.linkTime ∧
    (State.rollExpiry s).card.medium = s.card.medium ∧ (State.rollExpiry s).member.straps = s.member.straps ∧
    (State.rollExpiry s).member.serial = s.member.serial ∧ (State.rollExpiry s).member.settings = s.member.settings := by
  and_intros <;> (unfold State.rollExpiry; (try dsimp only); (repeat' split) <;> simp)

@[simp] theorem State.metByFrame_frame (s : State) :
    (State.metByFrame s).sync = s.sync ∧ (State.metByFrame s).dark = s.dark ∧ (State.metByFrame s).power = s.power ∧
    (State.metByFrame s).pending = s.pending ∧ (State.metByFrame s).clock.linkTime = s.clock.linkTime ∧
    (State.metByFrame s).card.medium = s.card.medium ∧ (State.metByFrame s).member.straps = s.member.straps ∧
    (State.metByFrame s).member.serial = s.member.serial ∧ (State.metByFrame s).member.settings = s.member.settings := by
  and_intros <;> (unfold State.metByFrame; (try dsimp only); (repeat' split) <;> simp)

@[simp] theorem State.takeSettled_member (k : Taken) (handle : State → State) (s : State) (hk : ∀ t, (handle t).member = t.member) :
    (State.takeSettled k handle s).member = s.member := by
  unfold State.takeSettled; (try dsimp only); (repeat' split) <;> simp [hk]
@[simp] theorem State.takeSettled_link (k : Taken) (handle : State → State) (s : State) (hk : ∀ t, (handle t).link = t.link) :
    (State.takeSettled k handle s).link = s.link := by
  unfold State.takeSettled; (try dsimp only); (repeat' split) <;> simp [hk]
@[simp] theorem State.takeSettled_clock (k : Taken) (handle : State → State) (s : State) (hk : ∀ t, (handle t).clock = t.clock) :
    (State.takeSettled k handle s).clock = s.clock := by
  unfold State.takeSettled; (try dsimp only); (repeat' split) <;> simp [hk]
@[simp] theorem State.takeSettled_sync (k : Taken) (handle : State → State) (s : State) (hk : ∀ t, (handle t).sync = t.sync) :
    (State.takeSettled k handle s).sync = s.sync := by
  unfold State.takeSettled; (try dsimp only); (repeat' split) <;> simp [hk]
@[simp] theorem State.takeSettled_capture (k : Taken) (handle : State → State) (s : State) (hk : ∀ t, (handle t).capture = t.capture) :
    (State.takeSettled k handle s).capture = s.capture := by
  unfold State.takeSettled; (try dsimp only); (repeat' split) <;> simp [hk]
@[simp] theorem State.takeSettled_ring (k : Taken) (handle : State → State) (s : State) (hk : ∀ t, (handle t).ring = t.ring) :
    (State.takeSettled k handle s).ring = s.ring := by
  unfold State.takeSettled; (try dsimp only); (repeat' split) <;> simp [hk]
@[simp] theorem State.takeSettled_dark (k : Taken) (handle : State → State) (s : State) (hk : ∀ t, (handle t).dark = t.dark) :
    (State.takeSettled k handle s).dark = s.dark := by
  unfold State.takeSettled; (try dsimp only); (repeat' split) <;> simp [hk]
@[simp] theorem State.takeSettled_develop (k : Taken) (handle : State → State) (s : State) (hk : ∀ t, (handle t).develop = t.develop) :
    (State.takeSettled k handle s).develop = s.develop := by
  unfold State.takeSettled; (try dsimp only); (repeat' split) <;> simp [hk]
@[simp] theorem State.takeSettled_transfer (k : Taken) (handle : State → State) (s : State) (hk : ∀ t, (handle t).transfer = t.transfer) :
    (State.takeSettled k handle s).transfer = s.transfer := by
  unfold State.takeSettled; (try dsimp only); (repeat' split) <;> simp [hk]
@[simp] theorem State.takeSettled_card (k : Taken) (handle : State → State) (s : State) (hk : ∀ t, (handle t).card = t.card) :
    (State.takeSettled k handle s).card = s.card := by
  unfold State.takeSettled; (try dsimp only); (repeat' split) <;> simp [hk]
@[simp] theorem State.takeSettled_notices (k : Taken) (handle : State → State) (s : State) (hk : ∀ t, (handle t).notices = t.notices) :
    (State.takeSettled k handle s).notices = s.notices := by
  unfold State.takeSettled; (try dsimp only); (repeat' split) <;> simp [hk]
@[simp] theorem State.takeSettled_power (k : Taken) (handle : State → State) (s : State) (hk : ∀ t, (handle t).power = t.power) :
    (State.takeSettled k handle s).power = s.power := by
  unfold State.takeSettled; (try dsimp only); (repeat' split) <;> simp [hk]
@[simp] theorem State.takeSettled_pending (k : Taken) (handle : State → State) (s : State) (hk : ∀ t, (handle t).pending = t.pending) :
    (State.takeSettled k handle s).pending = s.pending := by
  unfold State.takeSettled; (try dsimp only); (repeat' split) <;> simp [hk]
@[simp] theorem State.takeSettled_linkTime (k : Taken) (handle : State → State) (s : State) (hk : ∀ t, (handle t).clock.linkTime = t.clock.linkTime) :
    (State.takeSettled k handle s).clock.linkTime = s.clock.linkTime := by
  unfold State.takeSettled; (try dsimp only); (repeat' split) <;> simp [hk]
@[simp] theorem State.takeSettled_medium (k : Taken) (handle : State → State) (s : State) (hk : ∀ t, (handle t).card.medium = t.card.medium) :
    (State.takeSettled k handle s).card.medium = s.card.medium := by
  unfold State.takeSettled; (try dsimp only); (repeat' split) <;> simp [hk]
@[simp] theorem State.takeSettled_next (k : Taken) (handle : State → State) (s : State) (hk : ∀ t, (handle t).ring.next = t.ring.next) :
    (State.takeSettled k handle s).ring.next = s.ring.next := by
  unfold State.takeSettled; (try dsimp only); (repeat' split) <;> simp [hk]
@[simp] theorem State.takeSettled_straps (k : Taken) (handle : State → State) (s : State) (hk : ∀ t, (handle t).member.straps = t.member.straps) :
    (State.takeSettled k handle s).member.straps = s.member.straps := by
  unfold State.takeSettled; (try dsimp only); (repeat' split) <;> simp [hk]
@[simp] theorem State.takeSettled_serial (k : Taken) (handle : State → State) (s : State) (hk : ∀ t, (handle t).member.serial = t.member.serial) :
    (State.takeSettled k handle s).member.serial = s.member.serial := by
  unfold State.takeSettled; (try dsimp only); (repeat' split) <;> simp [hk]
@[simp] theorem State.takeSettled_settings (k : Taken) (handle : State → State) (s : State) (hk : ∀ t, (handle t).member.settings = t.member.settings) :
    (State.takeSettled k handle s).member.settings = s.member.settings := by
  unfold State.takeSettled; (try dsimp only); (repeat' split) <;> simp [hk]

@[simp] theorem State.take_sync (k : Taken) (handle : State → State) (s : State) (hk : ∀ t, (handle t).sync = t.sync) :
    (State.take k handle s).sync = s.sync := by
  unfold State.take; (try dsimp only); (repeat' split) <;> simp [hk, State.doIf] <;> (repeat' split) <;> simp
@[simp] theorem State.take_dark (k : Taken) (handle : State → State) (s : State) (hk : ∀ t, (handle t).dark = t.dark) :
    (State.take k handle s).dark = s.dark := by
  unfold State.take; (try dsimp only); (repeat' split) <;> simp [hk, State.doIf] <;> (repeat' split) <;> simp
@[simp] theorem State.take_power (k : Taken) (handle : State → State) (s : State) (hk : ∀ t, (handle t).power = t.power) :
    (State.take k handle s).power = s.power := by
  unfold State.take; (try dsimp only); (repeat' split) <;> simp [hk, State.doIf] <;> (repeat' split) <;> simp
@[simp] theorem State.take_pending (k : Taken) (handle : State → State) (s : State) (hk : ∀ t, (handle t).pending = t.pending) :
    (State.take k handle s).pending = s.pending := by
  unfold State.take; (try dsimp only); (repeat' split) <;> simp [hk, State.doIf] <;> (repeat' split) <;> simp
@[simp] theorem State.take_linkTime (k : Taken) (handle : State → State) (s : State) (hk : ∀ t, (handle t).clock.linkTime = t.clock.linkTime) :
    (State.take k handle s).clock.linkTime = s.clock.linkTime := by
  unfold State.take; (try dsimp only); (repeat' split) <;> simp [hk, State.doIf] <;> (repeat' split) <;> simp
@[simp] theorem State.take_medium (k : Taken) (handle : State → State) (s : State) (hk : ∀ t, (handle t).card.medium = t.card.medium) :
    (State.take k handle s).card.medium = s.card.medium := by
  unfold State.take; (try dsimp only); (repeat' split) <;> simp [hk, State.doIf] <;> (repeat' split) <;> simp
@[simp] theorem State.take_straps (k : Taken) (handle : State → State) (s : State) (hk : ∀ t, (handle t).member.straps = t.member.straps) :
    (State.take k handle s).member.straps = s.member.straps := by
  unfold State.take; (try dsimp only); (repeat' split) <;> simp [hk, State.doIf] <;> (repeat' split) <;> simp
@[simp] theorem State.take_serial (k : Taken) (handle : State → State) (s : State) (hk : ∀ t, (handle t).member.serial = t.member.serial) :
    (State.take k handle s).member.serial = s.member.serial := by
  unfold State.take; (try dsimp only); (repeat' split) <;> simp [hk, State.doIf] <;> (repeat' split) <;> simp
@[simp] theorem State.take_settings (k : Taken) (handle : State → State) (s : State) (hk : ∀ t, (handle t).member.settings = t.member.settings) :
    (State.take k handle s).member.settings = s.member.settings := by
  unfold State.take; (try dsimp only); (repeat' split) <;> simp [hk, State.doIf] <;> (repeat' split) <;> simp

@[simp] theorem State.fireAlarm_frame (s : State) :
    (State.fireAlarm s).member = s.member ∧ (State.fireAlarm s).link = s.link ∧ (State.fireAlarm s).sync = s.sync ∧
    (State.fireAlarm s).ring = s.ring ∧ (State.fireAlarm s).dark = s.dark ∧ (State.fireAlarm s).develop = s.develop ∧
    (State.fireAlarm s).transfer = s.transfer ∧ (State.fireAlarm s).card = s.card ∧
    (State.fireAlarm s).notices = s.notices ∧ (State.fireAlarm s).power = s.power ∧
    (State.fireAlarm s).pending = s.pending ∧ (State.fireAlarm s).clock.linkTime = s.clock.linkTime := by
  and_intros <;> (unfold State.fireAlarm; (try dsimp only); (repeat' split) <;> simp)

@[simp] theorem State.testAlarm_frame (s : State) :
    (State.testAlarm s).member = s.member ∧ (State.testAlarm s).link = s.link ∧ (State.testAlarm s).sync = s.sync ∧
    (State.testAlarm s).ring = s.ring ∧ (State.testAlarm s).dark = s.dark ∧ (State.testAlarm s).develop = s.develop ∧
    (State.testAlarm s).transfer = s.transfer ∧ (State.testAlarm s).card = s.card ∧
    (State.testAlarm s).notices = s.notices ∧ (State.testAlarm s).power = s.power ∧
    (State.testAlarm s).pending = s.pending ∧ (State.testAlarm s).clock.linkTime = s.clock.linkTime := by
  and_intros <;> (unfold State.testAlarm; (try dsimp only); (repeat' split) <;> simp)

@[simp] theorem State.advance_frame (k : Nat) (s : State) :
    (State.advance k s).member = s.member ∧ (State.advance k s).link = s.link ∧ (State.advance k s).sync = s.sync ∧
    (State.advance k s).ring = s.ring ∧ (State.advance k s).dark = s.dark ∧ (State.advance k s).develop = s.develop ∧
    (State.advance k s).transfer = s.transfer ∧ (State.advance k s).card = s.card ∧
    (State.advance k s).notices = s.notices ∧ (State.advance k s).power = s.power ∧
    (State.advance k s).pending = s.pending := by
  and_intros <;> (unfold State.advance; (try dsimp only); (repeat' split) <;> simp)

@[simp] theorem State.edge_frame (s : State) :
    (State.edge s).member = s.member ∧ (State.edge s).link = s.link ∧ (State.edge s).sync = s.sync ∧
    (State.edge s).ring = s.ring ∧ (State.edge s).dark = s.dark ∧ (State.edge s).develop = s.develop ∧
    (State.edge s).transfer = s.transfer ∧ (State.edge s).card = s.card ∧ (State.edge s).notices = s.notices ∧
    (State.edge s).power = s.power ∧ (State.edge s).pending = s.pending := by
  and_intros <;> (unfold State.edge; (try dsimp only); (repeat' split) <;> simp)

@[simp] theorem State.microsecond_frame (s : State) :
    (State.microsecond s).member = s.member ∧ (State.microsecond s).link = s.link ∧
    (State.microsecond s).sync = s.sync ∧ (State.microsecond s).ring = s.ring ∧ (State.microsecond s).dark = s.dark ∧
    (State.microsecond s).develop = s.develop ∧ (State.microsecond s).transfer = s.transfer ∧
    (State.microsecond s).card = s.card ∧ (State.microsecond s).notices = s.notices ∧
    (State.microsecond s).power = s.power ∧ (State.microsecond s).pending = s.pending := by
  and_intros <;> (unfold State.microsecond; (try dsimp only); (repeat' split) <;> simp)

@[simp] theorem State.stepTo_frame (time frameStart : Time) (s : State) :
    (State.stepTo time frameStart s).member = s.member ∧ (State.stepTo time frameStart s).link = s.link ∧
    (State.stepTo time frameStart s).sync = s.sync ∧ (State.stepTo time frameStart s).ring = s.ring ∧
    (State.stepTo time frameStart s).dark = s.dark ∧ (State.stepTo time frameStart s).develop = s.develop ∧
    (State.stepTo time frameStart s).transfer = s.transfer ∧ (State.stepTo time frameStart s).card = s.card ∧
    (State.stepTo time frameStart s).notices = s.notices ∧ (State.stepTo time frameStart s).power = s.power ∧
    (State.stepTo time frameStart s).pending = s.pending := by
  and_intros <;> (unfold State.stepTo; (try dsimp only); (repeat' split) <;> simp)

@[simp] theorem State.clockMark_frame (time frameStart : Time) (s : State) :
    (State.clockMark time frameStart s).member = s.member ∧ (State.clockMark time frameStart s).link = s.link ∧
    (State.clockMark time frameStart s).sync = s.sync ∧ (State.clockMark time frameStart s).ring = s.ring ∧
    (State.clockMark time frameStart s).dark = s.dark ∧ (State.clockMark time frameStart s).develop = s.develop ∧
    (State.clockMark time frameStart s).transfer = s.transfer ∧ (State.clockMark time frameStart s).card = s.card ∧
    (State.clockMark time frameStart s).notices = s.notices ∧ (State.clockMark time frameStart s).power = s.power ∧
    (State.clockMark time frameStart s).pending = s.pending := by
  and_intros <;> (unfold State.clockMark; (try dsimp only); (repeat' split) <;> simp)

@[simp] theorem State.takeMark_frame (time frameStart : Time) (s : State) :
    (State.takeMark time frameStart s).sync = s.sync ∧ (State.takeMark time frameStart s).dark = s.dark ∧
    (State.takeMark time frameStart s).power = s.power ∧ (State.takeMark time frameStart s).pending = s.pending ∧
    (State.takeMark time frameStart s).card.medium = s.card.medium ∧
    (State.takeMark time frameStart s).member.straps = s.member.straps ∧
    (State.takeMark time frameStart s).member.serial = s.member.serial ∧
    (State.takeMark time frameStart s).member.settings = s.member.settings := by
  and_intros <;> (unfold State.takeMark; (try dsimp only); (repeat' split) <;> simp)

@[simp] theorem State.markExpiry_frame (s : State) :
    (State.markExpiry s).member = s.member ∧ (State.markExpiry s).clock = s.clock ∧
    (State.markExpiry s).sync = s.sync ∧ (State.markExpiry s).capture = s.capture ∧
    (State.markExpiry s).ring = s.ring ∧ (State.markExpiry s).dark = s.dark ∧
    (State.markExpiry s).develop = s.develop ∧ (State.markExpiry s).transfer = s.transfer ∧
    (State.markExpiry s).card = s.card ∧ (State.markExpiry s).notices = s.notices ∧
    (State.markExpiry s).power = s.power ∧ (State.markExpiry s).pending = s.pending := by
  and_intros <;> (unfold State.markExpiry; (try dsimp only); (repeat' split) <;> simp)

@[simp] theorem State.countToAlarm_frame (s : State) :
    (State.countToAlarm s).member = s.member ∧ (State.countToAlarm s).link = s.link ∧
    (State.countToAlarm s).sync = s.sync ∧ (State.countToAlarm s).ring = s.ring ∧
    (State.countToAlarm s).dark = s.dark ∧ (State.countToAlarm s).develop = s.develop ∧
    (State.countToAlarm s).transfer = s.transfer ∧ (State.countToAlarm s).card = s.card ∧
    (State.countToAlarm s).notices = s.notices ∧ (State.countToAlarm s).power = s.power ∧
    (State.countToAlarm s).pending = s.pending := by
  and_intros <;> (unfold State.countToAlarm; (try dsimp only); (repeat' split) <;> simp)

@[simp] theorem State.endPulse_frame (s : State) :
    (State.endPulse s).member = s.member ∧ (State.endPulse s).link = s.link ∧ (State.endPulse s).sync = s.sync ∧
    (State.endPulse s).ring = s.ring ∧ (State.endPulse s).dark = s.dark ∧ (State.endPulse s).develop = s.develop ∧
    (State.endPulse s).transfer = s.transfer ∧ (State.endPulse s).card = s.card ∧
    (State.endPulse s).notices = s.notices ∧ (State.endPulse s).power = s.power ∧
    (State.endPulse s).pending = s.pending := by
  and_intros <;> (unfold State.endPulse; (try dsimp only); (repeat' split) <;> simp)

@[simp] theorem State.captureDoze_frame (s : State) :
    (State.captureDoze s).member = s.member ∧ (State.captureDoze s).link = s.link ∧
    (State.captureDoze s).sync = s.sync ∧ (State.captureDoze s).ring = s.ring ∧ (State.captureDoze s).dark = s.dark ∧
    (State.captureDoze s).develop = s.develop ∧ (State.captureDoze s).transfer = s.transfer ∧
    (State.captureDoze s).card = s.card ∧ (State.captureDoze s).notices = s.notices ∧
    (State.captureDoze s).power = s.power ∧ (State.captureDoze s).pending = s.pending ∧
    (State.captureDoze s).clock.linkTime = s.clock.linkTime := by
  and_intros <;> (unfold State.captureDoze; (try dsimp only); (repeat' split) <;> simp)

@[simp] theorem State.enterDoze_frame (s : State) :
    (State.enterDoze s).member = s.member ∧ (State.enterDoze s).link = s.link ∧ (State.enterDoze s).sync = s.sync ∧
    (State.enterDoze s).ring = s.ring ∧ (State.enterDoze s).dark = s.dark ∧ (State.enterDoze s).develop = s.develop ∧
    (State.enterDoze s).transfer = s.transfer ∧ (State.enterDoze s).card = s.card ∧
    (State.enterDoze s).notices = s.notices ∧ (State.enterDoze s).pending = s.pending ∧
    (State.enterDoze s).clock.linkTime = s.clock.linkTime := by
  and_intros <;> (unfold State.enterDoze; (try dsimp only); (repeat' split) <;> simp)

@[simp] theorem State.leaveDoze_frame (s : State) :
    (State.leaveDoze s).member = s.member ∧ (State.leaveDoze s).link = s.link ∧ (State.leaveDoze s).clock = s.clock ∧
    (State.leaveDoze s).sync = s.sync ∧ (State.leaveDoze s).capture = s.capture ∧ (State.leaveDoze s).ring = s.ring ∧
    (State.leaveDoze s).dark = s.dark ∧ (State.leaveDoze s).develop = s.develop ∧
    (State.leaveDoze s).transfer = s.transfer ∧ (State.leaveDoze s).card = s.card ∧
    (State.leaveDoze s).notices = s.notices ∧ (State.leaveDoze s).pending = s.pending := by
  and_intros <;> (unfold State.leaveDoze; (try dsimp only); (repeat' split) <;> simp)

@[simp] theorem State.cardSleep_frame (s : State) :
    (State.cardSleep s).member = s.member ∧ (State.cardSleep s).link = s.link ∧ (State.cardSleep s).clock = s.clock ∧
    (State.cardSleep s).sync = s.sync ∧ (State.cardSleep s).capture = s.capture ∧ (State.cardSleep s).ring = s.ring ∧
    (State.cardSleep s).dark = s.dark ∧ (State.cardSleep s).develop = s.develop ∧
    (State.cardSleep s).transfer = s.transfer ∧ (State.cardSleep s).power = s.power ∧
    (State.cardSleep s).pending = s.pending ∧ (State.cardSleep s).card.medium = s.card.medium := by
  and_intros <;> (unfold State.cardSleep; (try dsimp only); (repeat' split) <;> simp)

@[simp] theorem State.captureSleep_frame (s : State) :
    (State.captureSleep s).member = s.member ∧ (State.captureSleep s).link = s.link ∧
    (State.captureSleep s).sync = s.sync ∧ (State.captureSleep s).transfer = s.transfer ∧
    (State.captureSleep s).card = s.card ∧ (State.captureSleep s).notices = s.notices ∧
    (State.captureSleep s).power = s.power ∧ (State.captureSleep s).pending = s.pending ∧
    (State.captureSleep s).clock.linkTime = s.clock.linkTime ∧ (State.captureSleep s).ring.next = s.ring.next := by
  and_intros <;> (unfold State.captureSleep; (try dsimp only); (repeat' split) <;> simp)

@[simp] theorem State.dropTileMemory_frame (s : State) :
    (State.dropTileMemory s).member = s.member ∧ (State.dropTileMemory s).link = s.link ∧
    (State.dropTileMemory s).clock = s.clock ∧ (State.dropTileMemory s).sync = s.sync ∧
    (State.dropTileMemory s).capture = s.capture ∧ (State.dropTileMemory s).develop = s.develop ∧
    (State.dropTileMemory s).transfer = s.transfer ∧ (State.dropTileMemory s).card = s.card ∧
    (State.dropTileMemory s).notices = s.notices ∧ (State.dropTileMemory s).power = s.power ∧
    (State.dropTileMemory s).pending = s.pending ∧ (State.dropTileMemory s).ring.next = s.ring.next := by
  and_intros <;> (unfold State.dropTileMemory; (try dsimp only); (repeat' split) <;> simp)

@[simp] theorem State.enterSleep_frame (s : State) :
    (State.enterSleep s).member = s.member ∧ (State.enterSleep s).link = s.link ∧
    (State.enterSleep s).pending = s.pending ∧ (State.enterSleep s).clock.linkTime = s.clock.linkTime ∧
    (State.enterSleep s).card.medium = s.card.medium ∧ (State.enterSleep s).ring.next = s.ring.next := by
  and_intros <;> (unfold State.enterSleep; (try dsimp only); (repeat' split) <;> simp)

@[simp] theorem State.sleepTest_frame (s : State) :
    (State.sleepTest s).member = s.member ∧ (State.sleepTest s).link = s.link ∧
    (State.sleepTest s).pending = s.pending ∧ (State.sleepTest s).clock.linkTime = s.clock.linkTime ∧
    (State.sleepTest s).card.medium = s.card.medium ∧ (State.sleepTest s).ring.next = s.ring.next := by
  and_intros <;> (unfold State.sleepTest; (try dsimp only); (repeat' split) <;> simp)

@[simp] theorem State.announceWake_frame (cause : WakeCause) (s : State) :
    (State.announceWake cause s).member = s.member ∧ (State.announceWake cause s).clock = s.clock ∧
    (State.announceWake cause s).sync = s.sync ∧ (State.announceWake cause s).capture = s.capture ∧
    (State.announceWake cause s).ring = s.ring ∧ (State.announceWake cause s).dark = s.dark ∧
    (State.announceWake cause s).develop = s.develop ∧ (State.announceWake cause s).transfer = s.transfer ∧
    (State.announceWake cause s).card = s.card ∧ (State.announceWake cause s).notices = s.notices ∧
    (State.announceWake cause s).power = s.power ∧ (State.announceWake cause s).pending = s.pending := by
  and_intros <;> (unfold State.announceWake; (try dsimp only); (repeat' split) <;> simp)

@[simp] theorem State.wakeUp_frame (cause : WakeCause) (source : Byte) (body : List Byte) (s : State) :
    (State.wakeUp cause source body s).capture = s.capture ∧ (State.wakeUp cause source body s).ring = s.ring ∧
    (State.wakeUp cause source body s).dark = s.dark ∧ (State.wakeUp cause source body s).transfer = s.transfer ∧
    (State.wakeUp cause source body s).pending = s.pending ∧
    (State.wakeUp cause source body s).clock.linkTime = s.clock.linkTime ∧
    (State.wakeUp cause source body s).card.medium = s.card.medium ∧
    (State.wakeUp cause source body s).member.straps = s.member.straps ∧
    (State.wakeUp cause source body s).member.serial = s.member.serial ∧
    (State.wakeUp cause source body s).member.settings = s.member.settings := by
  and_intros <;> (unfold State.wakeUp; (try dsimp only); (repeat' split) <;> simp)

@[simp] theorem State.wakeLocal_frame (cause : WakeCause) (s : State) :
    (State.wakeLocal cause s).capture = s.capture ∧ (State.wakeLocal cause s).ring = s.ring ∧
    (State.wakeLocal cause s).dark = s.dark ∧ (State.wakeLocal cause s).transfer = s.transfer ∧
    (State.wakeLocal cause s).pending = s.pending ∧ (State.wakeLocal cause s).clock.linkTime = s.clock.linkTime ∧
    (State.wakeLocal cause s).card.medium = s.card.medium ∧
    (State.wakeLocal cause s).member.straps = s.member.straps ∧
    (State.wakeLocal cause s).member.serial = s.member.serial ∧
    (State.wakeLocal cause s).member.settings = s.member.settings := by
  and_intros <;> (unfold State.wakeLocal; (try dsimp only); (repeat' split) <;> simp)

@[simp] theorem State.takeWake_frame (source : Node) (mask : Byte) (cause : WakeFrameCause) (s : State) :
    (State.takeWake source mask cause s).capture = s.capture ∧ (State.takeWake source mask cause s).ring = s.ring ∧
    (State.takeWake source mask cause s).dark = s.dark ∧ (State.takeWake source mask cause s).transfer = s.transfer ∧
    (State.takeWake source mask cause s).pending = s.pending ∧
    (State.takeWake source mask cause s).clock.linkTime = s.clock.linkTime ∧
    (State.takeWake source mask cause s).card.medium = s.card.medium ∧
    (State.takeWake source mask cause s).member.straps = s.member.straps ∧
    (State.takeWake source mask cause s).member.serial = s.member.serial ∧
    (State.takeWake source mask cause s).member.settings = s.member.settings := by
  and_intros <;> (unfold State.takeWake; (try dsimp only); (repeat' split) <;> simp)

@[simp] theorem State.closingEdge_frame (mayTrigger : Bool) (t : Time) (s : State) :
    (State.closingEdge mayTrigger t s).member = s.member ∧ (State.closingEdge mayTrigger t s).sync = s.sync ∧
    (State.closingEdge mayTrigger t s).transfer = s.transfer ∧ (State.closingEdge mayTrigger t s).power = s.power ∧
    (State.closingEdge mayTrigger t s).pending = s.pending ∧
    (State.closingEdge mayTrigger t s).clock.linkTime = s.clock.linkTime ∧
    (State.closingEdge mayTrigger t s).card.medium = s.card.medium := by
  and_intros <;> (unfold State.closingEdge; (try dsimp only); (repeat' split) <;> simp)

@[simp] theorem State.openingEdge_frame (t : Time) (s : State) :
    (State.openingEdge t s).member = s.member ∧ (State.openingEdge t s).dark = s.dark ∧
    (State.openingEdge t s).transfer = s.transfer ∧ (State.openingEdge t s).card = s.card ∧
    (State.openingEdge t s).power = s.power ∧ (State.openingEdge t s).pending = s.pending ∧
    (State.openingEdge t s).clock.linkTime = s.clock.linkTime ∧ (State.openingEdge t s).ring.next = s.ring.next := by
  and_intros <;> (unfold State.openingEdge; (try dsimp only); (repeat' split) <;> simp)

@[simp] theorem State.deliverEdge_frame (level : Level) (t : Time) (s : State) :
    (State.deliverEdge level t s).member = s.member ∧ (State.deliverEdge level t s).transfer = s.transfer ∧
    (State.deliverEdge level t s).pending = s.pending ∧
    (State.deliverEdge level t s).clock.linkTime = s.clock.linkTime ∧
    (State.deliverEdge level t s).card.medium = s.card.medium := by
  and_intros <;> (unfold State.deliverEdge; (try dsimp only); (repeat' split) <;> simp)

@[simp] theorem State.sampleAwake_frame (level : Level) (s : State) :
    (State.sampleAwake level s).member = s.member ∧ (State.sampleAwake level s).transfer = s.transfer ∧
    (State.sampleAwake level s).pending = s.pending ∧ (State.sampleAwake level s).clock.linkTime = s.clock.linkTime ∧
    (State.sampleAwake level s).card.medium = s.card.medium := by
  and_intros <;> (unfold State.sampleAwake; (try dsimp only); (repeat' split) <;> simp)

@[simp] theorem State.sampleAsleep_frame (level : Level) (s : State) :
    (State.sampleAsleep level s).capture = s.capture ∧ (State.sampleAsleep level s).ring = s.ring ∧
    (State.sampleAsleep level s).dark = s.dark ∧ (State.sampleAsleep level s).transfer = s.transfer ∧
    (State.sampleAsleep level s).pending = s.pending ∧
    (State.sampleAsleep level s).clock.linkTime = s.clock.linkTime ∧
    (State.sampleAsleep level s).card.medium = s.card.medium ∧
    (State.sampleAsleep level s).member.straps = s.member.straps ∧
    (State.sampleAsleep level s).member.serial = s.member.serial ∧
    (State.sampleAsleep level s).member.settings = s.member.settings := by
  and_intros <;> (unfold State.sampleAsleep; (try dsimp only); (repeat' split) <;> simp)

@[simp] theorem State.sample_frame (level : Level) (s : State) :
    (State.sample level s).transfer = s.transfer ∧ (State.sample level s).pending = s.pending ∧
    (State.sample level s).clock.linkTime = s.clock.linkTime ∧ (State.sample level s).card.medium = s.card.medium ∧
    (State.sample level s).member.straps = s.member.straps ∧ (State.sample level s).member.serial = s.member.serial ∧
    (State.sample level s).member.settings = s.member.settings := by
  and_intros <;> (unfold State.sample; (try dsimp only); (repeat' split) <;> simp)

@[simp] theorem State.captureOpen_frame (source : Node) (n : Shot) (t : Time) (s : State) :
    (State.captureOpen source n t s).member = s.member ∧ (State.captureOpen source n t s).sync = s.sync ∧
    (State.captureOpen source n t s).transfer = s.transfer ∧ (State.captureOpen source n t s).power = s.power ∧
    (State.captureOpen source n t s).pending = s.pending ∧
    (State.captureOpen source n t s).clock.linkTime = s.clock.linkTime ∧
    (State.captureOpen source n t s).card.medium = s.card.medium := by
  and_intros <;> (unfold State.captureOpen; (try dsimp only); (repeat' split) <;> simp)

@[simp] theorem State.captureClose_frame (n : Shot) (t : Time) (limit : Bool) (s : State) :
    (State.captureClose n t limit s).member = s.member ∧ (State.captureClose n t limit s).link = s.link ∧
    (State.captureClose n t limit s).dark = s.dark ∧ (State.captureClose n t limit s).transfer = s.transfer ∧
    (State.captureClose n t limit s).card = s.card ∧ (State.captureClose n t limit s).power = s.power ∧
    (State.captureClose n t limit s).pending = s.pending ∧
    (State.captureClose n t limit s).clock.linkTime = s.clock.linkTime ∧
    (State.captureClose n t limit s).ring.next = s.ring.next := by
  and_intros <;> (unfold State.captureClose; (try dsimp only); (repeat' split) <;> simp)

@[simp] theorem State.captureRefuse_frame (source : Node) (n : Shot) (reason : RefuseReason) (policy : Policy) (s : State) :
    (State.captureRefuse source n reason policy s).member = s.member ∧
    (State.captureRefuse source n reason policy s).pending = s.pending ∧
    (State.captureRefuse source n reason policy s).clock.linkTime = s.clock.linkTime ∧
    (State.captureRefuse source n reason policy s).card.medium = s.card.medium := by
  and_intros <;> (unfold State.captureRefuse; (try dsimp only); (repeat' split) <;> simp)

@[simp] theorem State.removeQuiet_frame (source : Node) (s : State) :
    (State.removeQuiet source s).member = s.member ∧ (State.removeQuiet source s).link = s.link ∧
    (State.removeQuiet source s).sync = s.sync ∧ (State.removeQuiet source s).ring = s.ring ∧
    (State.removeQuiet source s).dark = s.dark ∧ (State.removeQuiet source s).develop = s.develop ∧
    (State.removeQuiet source s).transfer = s.transfer ∧ (State.removeQuiet source s).card = s.card ∧
    (State.removeQuiet source s).notices = s.notices ∧ (State.removeQuiet source s).power = s.power ∧
    (State.removeQuiet source s).pending = s.pending ∧ (State.removeQuiet source s).clock.linkTime = s.clock.linkTime := by
  and_intros <;> (unfold State.removeQuiet; (try dsimp only); (repeat' split) <;> simp)

@[simp] theorem State.captureReadDone_frame (source : Node) (n : Shot) (kind : ReadKind) (darkFollows : Bool) (s : State) :
    (State.captureReadDone source n kind darkFollows s).member = s.member ∧
    (State.captureReadDone source n kind darkFollows s).link = s.link ∧
    (State.captureReadDone source n kind darkFollows s).sync = s.sync ∧
    (State.captureReadDone source n kind darkFollows s).ring = s.ring ∧
    (State.captureReadDone source n kind darkFollows s).dark = s.dark ∧
    (State.captureReadDone source n kind darkFollows s).develop = s.develop ∧
    (State.captureReadDone source n kind darkFollows s).transfer = s.transfer ∧
    (State.captureReadDone source n kind darkFollows s).card = s.card ∧
    (State.captureReadDone source n kind darkFollows s).power = s.power ∧
    (State.captureReadDone source n kind darkFollows s).pending = s.pending ∧
    (State.captureReadDone source n kind darkFollows s).clock.linkTime = s.clock.linkTime := by
  and_intros <;> (unfold State.captureReadDone; (try dsimp only); (repeat' split) <;> simp)

@[simp] theorem State.attributionExpiry_frame (s : State) :
    (State.attributionExpiry s).member = s.member ∧ (State.attributionExpiry s).link = s.link ∧
    (State.attributionExpiry s).clock = s.clock ∧ (State.attributionExpiry s).sync = s.sync ∧
    (State.attributionExpiry s).dark = s.dark ∧
    (State.attributionExpiry s).transfer = s.transfer ∧ (State.attributionExpiry s).card = s.card ∧
    (State.attributionExpiry s).notices = s.notices ∧ (State.attributionExpiry s).power = s.power ∧
    (State.attributionExpiry s).pending = s.pending ∧ (State.attributionExpiry s).ring.next = s.ring.next := by
  and_intros <;> (unfold State.attributionExpiry; (try dsimp only); (repeat' split) <;> simp)

@[simp] theorem State.pulseExpiry_frame (s : State) :
    (State.pulseExpiry s).member = s.member ∧ (State.pulseExpiry s).link = s.link ∧
    (State.pulseExpiry s).dark = s.dark ∧ (State.pulseExpiry s).transfer = s.transfer ∧
    (State.pulseExpiry s).card = s.card ∧ (State.pulseExpiry s).power = s.power ∧
    (State.pulseExpiry s).pending = s.pending ∧ (State.pulseExpiry s).clock.linkTime = s.clock.linkTime ∧
    (State.pulseExpiry s).ring.next = s.ring.next := by
  and_intros <;> (unfold State.pulseExpiry; (try dsimp only); (repeat' split) <;> simp)

@[simp] theorem State.limitExpiry_frame (s : State) :
    (State.limitExpiry s).member = s.member ∧ (State.limitExpiry s).dark = s.dark ∧
    (State.limitExpiry s).transfer = s.transfer ∧ (State.limitExpiry s).card = s.card ∧
    (State.limitExpiry s).power = s.power ∧ (State.limitExpiry s).pending = s.pending ∧
    (State.limitExpiry s).clock.linkTime = s.clock.linkTime ∧ (State.limitExpiry s).ring.next = s.ring.next := by
  and_intros <;> (unfold State.limitExpiry; (try dsimp only); (repeat' split) <;> simp)

@[simp] theorem State.supplyClose_frame (n : Shot) (s : State) :
    (State.supplyClose n s).member = s.member ∧ (State.supplyClose n s).link = s.link ∧
    (State.supplyClose n s).clock = s.clock ∧ (State.supplyClose n s).sync = s.sync ∧
    (State.supplyClose n s).capture = s.capture ∧ (State.supplyClose n s).dark = s.dark ∧
    (State.supplyClose n s).develop = s.develop ∧ (State.supplyClose n s).transfer = s.transfer ∧
    (State.supplyClose n s).card = s.card ∧ (State.supplyClose n s).notices = s.notices ∧
    (State.supplyClose n s).power = s.power ∧ (State.supplyClose n s).pending = s.pending ∧
    (State.supplyClose n s).ring.next = s.ring.next := by
  and_intros <;> (unfold State.supplyClose; (try dsimp only); (repeat' split) <;> simp)

@[simp] theorem State.applyDark_frame (n : Shot) (s : State) :
    (State.applyDark n s).member = s.member ∧ (State.applyDark n s).link = s.link ∧
    (State.applyDark n s).sync = s.sync ∧ (State.applyDark n s).transfer = s.transfer ∧
    (State.applyDark n s).card = s.card ∧ (State.applyDark n s).notices = s.notices ∧
    (State.applyDark n s).power = s.power ∧ (State.applyDark n s).pending = s.pending ∧
    (State.applyDark n s).clock.linkTime = s.clock.linkTime ∧ (State.applyDark n s).ring.next = s.ring.next := by
  and_intros <;> (unfold State.applyDark; (try dsimp only); (repeat' split) <;> simp)

@[simp] theorem State.endReadout_frame (s : State) :
    (State.endReadout s).member = s.member ∧ (State.endReadout s).link = s.link ∧
    (State.endReadout s).clock = s.clock ∧ (State.endReadout s).sync = s.sync ∧ (State.endReadout s).ring = s.ring ∧
    (State.endReadout s).dark = s.dark ∧ (State.endReadout s).develop = s.develop ∧
    (State.endReadout s).transfer = s.transfer ∧ (State.endReadout s).card = s.card ∧
    (State.endReadout s).notices = s.notices ∧ (State.endReadout s).power = s.power ∧
    (State.endReadout s).pending = s.pending := by
  and_intros <;> (unfold State.endReadout; (try dsimp only); (repeat' split) <;> simp)

@[simp] theorem State.readoutDone_frame (samples : List Sample) (s : State) :
    (State.readoutDone samples s).member = s.member ∧ (State.readoutDone samples s).pending = s.pending ∧
    (State.readoutDone samples s).clock.linkTime = s.clock.linkTime ∧
    (State.readoutDone samples s).card.medium = s.card.medium ∧ (State.readoutDone samples s).ring.next = s.ring.next := by
  and_intros <;> (unfold State.readoutDone; (try dsimp only); (repeat' split) <;> simp)

@[simp] theorem State.updDarkCapture_frame (f : DarkCapture → DarkCapture) (s : State) :
    (State.updDarkCapture f s).member = s.member ∧ (State.updDarkCapture f s).link = s.link ∧
    (State.updDarkCapture f s).clock = s.clock ∧ (State.updDarkCapture f s).sync = s.sync ∧
    (State.updDarkCapture f s).capture = s.capture ∧ (State.updDarkCapture f s).ring = s.ring ∧
    (State.updDarkCapture f s).develop = s.develop ∧ (State.updDarkCapture f s).transfer = s.transfer ∧
    (State.updDarkCapture f s).card = s.card ∧ (State.updDarkCapture f s).notices = s.notices ∧
    (State.updDarkCapture f s).power = s.power ∧ (State.updDarkCapture f s).pending = s.pending := by
  and_intros <;> (unfold State.updDarkCapture; (try dsimp only); (repeat' split) <;> simp)

@[simp] theorem State.darkExpiry_frame (s : State) :
    (State.darkExpiry s).member = s.member ∧ (State.darkExpiry s).link = s.link ∧
    (State.darkExpiry s).clock = s.clock ∧ (State.darkExpiry s).sync = s.sync ∧ (State.darkExpiry s).ring = s.ring ∧
    (State.darkExpiry s).develop = s.develop ∧ (State.darkExpiry s).transfer = s.transfer ∧
    (State.darkExpiry s).card = s.card ∧ (State.darkExpiry s).notices = s.notices ∧
    (State.darkExpiry s).power = s.power ∧ (State.darkExpiry s).pending = s.pending := by
  and_intros <;> (unfold State.darkExpiry; (try dsimp only); (repeat' split) <;> simp)

@[simp] theorem State.darkReadoutDone_frame (samples : List Sample) (s : State) :
    (State.darkReadoutDone samples s).member = s.member ∧ (State.darkReadoutDone samples s).link = s.link ∧
    (State.darkReadoutDone samples s).clock = s.clock ∧ (State.darkReadoutDone samples s).sync = s.sync ∧
    (State.darkReadoutDone samples s).capture = s.capture ∧ (State.darkReadoutDone samples s).ring = s.ring ∧
    (State.darkReadoutDone samples s).develop = s.develop ∧ (State.darkReadoutDone samples s).transfer = s.transfer ∧
    (State.darkReadoutDone samples s).card = s.card ∧ (State.darkReadoutDone samples s).notices = s.notices ∧
    (State.darkReadoutDone samples s).power = s.power ∧ (State.darkReadoutDone samples s).pending = s.pending := by
  and_intros <;> (unfold State.darkReadoutDone; (try dsimp only); (repeat' split) <;> simp)

@[simp] theorem State.scanStep_frame (s : State) :
    (State.scanStep s).member = s.member ∧ (State.scanStep s).link = s.link ∧ (State.scanStep s).clock = s.clock ∧
    (State.scanStep s).sync = s.sync ∧ (State.scanStep s).capture = s.capture ∧ (State.scanStep s).ring = s.ring ∧
    (State.scanStep s).develop = s.develop ∧ (State.scanStep s).transfer = s.transfer ∧
    (State.scanStep s).card = s.card ∧ (State.scanStep s).notices = s.notices ∧ (State.scanStep s).power = s.power ∧
    (State.scanStep s).pending = s.pending := by
  and_intros <;> (unfold State.scanStep; (try dsimp only); (repeat' split) <;> simp)

@[simp] theorem State.completeDark_frame (c : DarkCapture) (s : State) :
    (State.completeDark c s).member = s.member ∧ (State.completeDark c s).clock = s.clock ∧
    (State.completeDark c s).sync = s.sync ∧ (State.completeDark c s).transfer = s.transfer ∧
    (State.completeDark c s).card = s.card ∧ (State.completeDark c s).notices = s.notices ∧
    (State.completeDark c s).power = s.power ∧ (State.completeDark c s).pending = s.pending ∧
    (State.completeDark c s).ring.next = s.ring.next := by
  and_intros <;> (unfold State.completeDark; (try dsimp only); (repeat' split) <;> simp)

@[simp] theorem State.scanDone_frame (s : State) :
    (State.scanDone s).member = s.member ∧ (State.scanDone s).clock = s.clock ∧ (State.scanDone s).sync = s.sync ∧
    (State.scanDone s).transfer = s.transfer ∧ (State.scanDone s).card = s.card ∧
    (State.scanDone s).notices = s.notices ∧ (State.scanDone s).power = s.power ∧
    (State.scanDone s).pending = s.pending ∧ (State.scanDone s).ring.next = s.ring.next := by
  and_intros <;> (unfold State.scanDone; (try dsimp only); (repeat' split) <;> simp)

@[simp] theorem State.inPhase_member (p : Phase) (f : Job → State → State) (s : State) (hk : ∀ j t, (f j t).member = t.member) :
    (State.inPhase p f s).member = s.member := by
  unfold State.inPhase; (try dsimp only); (repeat' split) <;> simp [hk]
@[simp] theorem State.inPhase_link (p : Phase) (f : Job → State → State) (s : State) (hk : ∀ j t, (f j t).link = t.link) :
    (State.inPhase p f s).link = s.link := by
  unfold State.inPhase; (try dsimp only); (repeat' split) <;> simp [hk]
@[simp] theorem State.inPhase_clock (p : Phase) (f : Job → State → State) (s : State) (hk : ∀ j t, (f j t).clock = t.clock) :
    (State.inPhase p f s).clock = s.clock := by
  unfold State.inPhase; (try dsimp only); (repeat' split) <;> simp [hk]
@[simp] theorem State.inPhase_sync (p : Phase) (f : Job → State → State) (s : State) (hk : ∀ j t, (f j t).sync = t.sync) :
    (State.inPhase p f s).sync = s.sync := by
  unfold State.inPhase; (try dsimp only); (repeat' split) <;> simp [hk]
@[simp] theorem State.inPhase_capture (p : Phase) (f : Job → State → State) (s : State) (hk : ∀ j t, (f j t).capture = t.capture) :
    (State.inPhase p f s).capture = s.capture := by
  unfold State.inPhase; (try dsimp only); (repeat' split) <;> simp [hk]
@[simp] theorem State.inPhase_ring (p : Phase) (f : Job → State → State) (s : State) (hk : ∀ j t, (f j t).ring = t.ring) :
    (State.inPhase p f s).ring = s.ring := by
  unfold State.inPhase; (try dsimp only); (repeat' split) <;> simp [hk]
@[simp] theorem State.inPhase_dark (p : Phase) (f : Job → State → State) (s : State) (hk : ∀ j t, (f j t).dark = t.dark) :
    (State.inPhase p f s).dark = s.dark := by
  unfold State.inPhase; (try dsimp only); (repeat' split) <;> simp [hk]
@[simp] theorem State.inPhase_develop (p : Phase) (f : Job → State → State) (s : State) (hk : ∀ j t, (f j t).develop = t.develop) :
    (State.inPhase p f s).develop = s.develop := by
  unfold State.inPhase; (try dsimp only); (repeat' split) <;> simp [hk]
@[simp] theorem State.inPhase_transfer (p : Phase) (f : Job → State → State) (s : State) (hk : ∀ j t, (f j t).transfer = t.transfer) :
    (State.inPhase p f s).transfer = s.transfer := by
  unfold State.inPhase; (try dsimp only); (repeat' split) <;> simp [hk]
@[simp] theorem State.inPhase_card (p : Phase) (f : Job → State → State) (s : State) (hk : ∀ j t, (f j t).card = t.card) :
    (State.inPhase p f s).card = s.card := by
  unfold State.inPhase; (try dsimp only); (repeat' split) <;> simp [hk]
@[simp] theorem State.inPhase_notices (p : Phase) (f : Job → State → State) (s : State) (hk : ∀ j t, (f j t).notices = t.notices) :
    (State.inPhase p f s).notices = s.notices := by
  unfold State.inPhase; (try dsimp only); (repeat' split) <;> simp [hk]
@[simp] theorem State.inPhase_power (p : Phase) (f : Job → State → State) (s : State) (hk : ∀ j t, (f j t).power = t.power) :
    (State.inPhase p f s).power = s.power := by
  unfold State.inPhase; (try dsimp only); (repeat' split) <;> simp [hk]
@[simp] theorem State.inPhase_pending (p : Phase) (f : Job → State → State) (s : State) (hk : ∀ j t, (f j t).pending = t.pending) :
    (State.inPhase p f s).pending = s.pending := by
  unfold State.inPhase; (try dsimp only); (repeat' split) <;> simp [hk]
@[simp] theorem State.inPhase_linkTime (p : Phase) (f : Job → State → State) (s : State) (hk : ∀ j t, (f j t).clock.linkTime = t.clock.linkTime) :
    (State.inPhase p f s).clock.linkTime = s.clock.linkTime := by
  unfold State.inPhase; (try dsimp only); (repeat' split) <;> simp [hk]
@[simp] theorem State.inPhase_medium (p : Phase) (f : Job → State → State) (s : State) (hk : ∀ j t, (f j t).card.medium = t.card.medium) :
    (State.inPhase p f s).card.medium = s.card.medium := by
  unfold State.inPhase; (try dsimp only); (repeat' split) <;> simp [hk]
@[simp] theorem State.inPhase_next (p : Phase) (f : Job → State → State) (s : State) (hk : ∀ j t, (f j t).ring.next = t.ring.next) :
    (State.inPhase p f s).ring.next = s.ring.next := by
  unfold State.inPhase; (try dsimp only); (repeat' split) <;> simp [hk]
@[simp] theorem State.inPhase_straps (p : Phase) (f : Job → State → State) (s : State) (hk : ∀ j t, (f j t).member.straps = t.member.straps) :
    (State.inPhase p f s).member.straps = s.member.straps := by
  unfold State.inPhase; (try dsimp only); (repeat' split) <;> simp [hk]
@[simp] theorem State.inPhase_serial (p : Phase) (f : Job → State → State) (s : State) (hk : ∀ j t, (f j t).member.serial = t.member.serial) :
    (State.inPhase p f s).member.serial = s.member.serial := by
  unfold State.inPhase; (try dsimp only); (repeat' split) <;> simp [hk]
@[simp] theorem State.inPhase_settings (p : Phase) (f : Job → State → State) (s : State) (hk : ∀ j t, (f j t).member.settings = t.member.settings) :
    (State.inPhase p f s).member.settings = s.member.settings := by
  unfold State.inPhase; (try dsimp only); (repeat' split) <;> simp [hk]

@[simp] theorem State.endBase_frame (j : Job) (s : State) :
    (State.endBase j s).member = s.member ∧ (State.endBase j s).link = s.link ∧ (State.endBase j s).clock = s.clock ∧
    (State.endBase j s).sync = s.sync ∧ (State.endBase j s).capture = s.capture ∧ (State.endBase j s).dark = s.dark ∧
    (State.endBase j s).transfer = s.transfer ∧ (State.endBase j s).card = s.card ∧
    (State.endBase j s).notices = s.notices ∧ (State.endBase j s).power = s.power ∧
    (State.endBase j s).pending = s.pending ∧ (State.endBase j s).ring.next = s.ring.next := by
  and_intros <;> (unfold State.endBase; (try dsimp only); (repeat' split) <;> simp)

@[simp] theorem State.endInterior_frame (j : Job) (s : State) :
    (State.endInterior j s).member = s.member ∧ (State.endInterior j s).link = s.link ∧
    (State.endInterior j s).sync = s.sync ∧ (State.endInterior j s).capture = s.capture ∧
    (State.endInterior j s).dark = s.dark ∧ (State.endInterior j s).transfer = s.transfer ∧
    (State.endInterior j s).card = s.card ∧ (State.endInterior j s).notices = s.notices ∧
    (State.endInterior j s).power = s.power ∧ (State.endInterior j s).pending = s.pending ∧
    (State.endInterior j s).clock.linkTime = s.clock.linkTime ∧ (State.endInterior j s).ring.next = s.ring.next := by
  and_intros <;> (unfold State.endInterior; (try dsimp only); (repeat' split) <;> simp)

@[simp] theorem State.timeOutEdge_frame (j : Job) (s : State) :
    (State.timeOutEdge j s).member = s.member ∧ (State.timeOutEdge j s).link = s.link ∧
    (State.timeOutEdge j s).sync = s.sync ∧ (State.timeOutEdge j s).capture = s.capture ∧
    (State.timeOutEdge j s).ring = s.ring ∧ (State.timeOutEdge j s).dark = s.dark ∧
    (State.timeOutEdge j s).transfer = s.transfer ∧ (State.timeOutEdge j s).card = s.card ∧
    (State.timeOutEdge j s).notices = s.notices ∧ (State.timeOutEdge j s).power = s.power ∧
    (State.timeOutEdge j s).pending = s.pending ∧ (State.timeOutEdge j s).clock.linkTime = s.clock.linkTime := by
  and_intros <;> (unfold State.timeOutEdge; (try dsimp only); (repeat' split) <;> simp)

@[simp] theorem State.endEdge_frame (j : Job) (s : State) :
    (State.endEdge j s).member = s.member ∧ (State.endEdge j s).link = s.link ∧ (State.endEdge j s).clock = s.clock ∧
    (State.endEdge j s).sync = s.sync ∧ (State.endEdge j s).capture = s.capture ∧ (State.endEdge j s).dark = s.dark ∧
    (State.endEdge j s).transfer = s.transfer ∧ (State.endEdge j s).card = s.card ∧
    (State.endEdge j s).notices = s.notices ∧ (State.endEdge j s).power = s.power ∧
    (State.endEdge j s).pending = s.pending ∧ (State.endEdge j s).ring.next = s.ring.next := by
  and_intros <;> (unfold State.endEdge; (try dsimp only); (repeat' split) <;> simp)

@[simp] theorem State.endGain_frame (j : Job) (s : State) :
    (State.endGain j s).member = s.member ∧ (State.endGain j s).link = s.link ∧ (State.endGain j s).clock = s.clock ∧
    (State.endGain j s).sync = s.sync ∧ (State.endGain j s).capture = s.capture ∧ (State.endGain j s).dark = s.dark ∧
    (State.endGain j s).transfer = s.transfer ∧ (State.endGain j s).card = s.card ∧
    (State.endGain j s).notices = s.notices ∧ (State.endGain j s).power = s.power ∧
    (State.endGain j s).pending = s.pending ∧ (State.endGain j s).ring.next = s.ring.next := by
  and_intros <;> (unfold State.endGain; (try dsimp only); (repeat' split) <;> simp)

@[simp] theorem State.endFinish_frame (j : Job) (s : State) :
    (State.endFinish j s).member = s.member ∧ (State.endFinish j s).pending = s.pending ∧
    (State.endFinish j s).clock.linkTime = s.clock.linkTime ∧ (State.endFinish j s).card.medium = s.card.medium ∧
    (State.endFinish j s).ring.next = s.ring.next := by
  and_intros <;> (unfold State.endFinish; (try dsimp only); (repeat' split) <;> simp)

@[simp] theorem State.seamExpiry_frame (s : State) :
    (State.seamExpiry s).member = s.member ∧ (State.seamExpiry s).link = s.link ∧
    (State.seamExpiry s).sync = s.sync ∧ (State.seamExpiry s).capture = s.capture ∧
    (State.seamExpiry s).ring = s.ring ∧ (State.seamExpiry s).dark = s.dark ∧
    (State.seamExpiry s).transfer = s.transfer ∧ (State.seamExpiry s).card = s.card ∧
    (State.seamExpiry s).notices = s.notices ∧ (State.seamExpiry s).power = s.power ∧
    (State.seamExpiry s).pending = s.pending ∧ (State.seamExpiry s).clock.linkTime = s.clock.linkTime := by
  and_intros <;> (unfold State.seamExpiry State.inPhase; (try dsimp only); (repeat' split) <;> simp)

@[simp] theorem State.lateBand_frame (s : State) :
    (State.lateBand s).member = s.member ∧ (State.lateBand s).link = s.link ∧ (State.lateBand s).clock = s.clock ∧
    (State.lateBand s).sync = s.sync ∧ (State.lateBand s).capture = s.capture ∧ (State.lateBand s).ring = s.ring ∧
    (State.lateBand s).dark = s.dark ∧ (State.lateBand s).transfer = s.transfer ∧ (State.lateBand s).card = s.card ∧
    (State.lateBand s).notices = s.notices ∧ (State.lateBand s).power = s.power ∧
    (State.lateBand s).pending = s.pending := by
  and_intros <;> (unfold State.lateBand; (try dsimp only); (repeat' split) <;> simp)

@[simp] theorem State.endWaitByBand_frame (s : State) :
    (State.endWaitByBand s).member = s.member ∧ (State.endWaitByBand s).link = s.link ∧
    (State.endWaitByBand s).sync = s.sync ∧ (State.endWaitByBand s).capture = s.capture ∧
    (State.endWaitByBand s).ring = s.ring ∧ (State.endWaitByBand s).dark = s.dark ∧
    (State.endWaitByBand s).transfer = s.transfer ∧ (State.endWaitByBand s).card = s.card ∧
    (State.endWaitByBand s).notices = s.notices ∧ (State.endWaitByBand s).power = s.power ∧
    (State.endWaitByBand s).pending = s.pending ∧ (State.endWaitByBand s).clock.linkTime = s.clock.linkTime := by
  and_intros <;> (unfold State.endWaitByBand; (try dsimp only); (repeat' split) <;> simp)

@[simp] theorem State.keepBand_frame (source : Node) (n : Shot) (band : List Word16) (s : State) :
    (State.keepBand source n band s).member = s.member ∧ (State.keepBand source n band s).link = s.link ∧
    (State.keepBand source n band s).sync = s.sync ∧ (State.keepBand source n band s).capture = s.capture ∧
    (State.keepBand source n band s).ring = s.ring ∧ (State.keepBand source n band s).dark = s.dark ∧
    (State.keepBand source n band s).transfer = s.transfer ∧ (State.keepBand source n band s).card = s.card ∧
    (State.keepBand source n band s).notices = s.notices ∧ (State.keepBand source n band s).power = s.power ∧
    (State.keepBand source n band s).pending = s.pending ∧
    (State.keepBand source n band s).clock.linkTime = s.clock.linkTime := by
  and_intros <;> (unfold State.keepBand; (try dsimp only); (repeat' split) <;> simp)

@[simp] theorem State.engineSeam_frame (source : Node) (n : Shot) (d : Direction) (band : List Word16) (s : State) :
    (State.engineSeam source n d band s).member = s.member ∧ (State.engineSeam source n d band s).link = s.link ∧
    (State.engineSeam source n d band s).sync = s.sync ∧ (State.engineSeam source n d band s).capture = s.capture ∧
    (State.engineSeam source n d band s).ring = s.ring ∧ (State.engineSeam source n d band s).dark = s.dark ∧
    (State.engineSeam source n d band s).transfer = s.transfer ∧ (State.engineSeam source n d band s).card = s.card ∧
    (State.engineSeam source n d band s).notices = s.notices ∧ (State.engineSeam source n d band s).power = s.power ∧
    (State.engineSeam source n d band s).pending = s.pending ∧
    (State.engineSeam source n d band s).clock.linkTime = s.clock.linkTime := by
  and_intros <;> (unfold State.engineSeam; (try dsimp only); (repeat' split) <;> simp)

@[simp] theorem State.ringPlace_frame (n : Shot) (k : Socket) (o : PlaceOutcome) (s : State) :
    (State.ringPlace n k o s).member = s.member ∧ (State.ringPlace n k o s).link = s.link ∧
    (State.ringPlace n k o s).clock = s.clock ∧ (State.ringPlace n k o s).sync = s.sync ∧
    (State.ringPlace n k o s).capture = s.capture ∧ (State.ringPlace n k o s).dark = s.dark ∧
    (State.ringPlace n k o s).develop = s.develop ∧ (State.ringPlace n k o s).transfer = s.transfer ∧
    (State.ringPlace n k o s).card = s.card ∧ (State.ringPlace n k o s).notices = s.notices ∧
    (State.ringPlace n k o s).power = s.power ∧ (State.ringPlace n k o s).pending = s.pending ∧
    (State.ringPlace n k o s).ring.next = s.ring.next := by
  and_intros <;> (unfold State.ringPlace; (try dsimp only); (repeat' split) <;> simp)

@[simp] theorem State.blocksPlace_frame (source : Node) (n : Shot) (k : Socket) (o : PlaceOutcome) (s : State) :
    (State.blocksPlace source n k o s).member = s.member ∧ (State.blocksPlace source n k o s).clock = s.clock ∧
    (State.blocksPlace source n k o s).sync = s.sync ∧ (State.blocksPlace source n k o s).capture = s.capture ∧
    (State.blocksPlace source n k o s).dark = s.dark ∧ (State.blocksPlace source n k o s).develop = s.develop ∧
    (State.blocksPlace source n k o s).power = s.power ∧ (State.blocksPlace source n k o s).pending = s.pending ∧
    (State.blocksPlace source n k o s).card.medium = s.card.medium ∧
    (State.blocksPlace source n k o s).ring.next = s.ring.next := by
  and_intros <;> (unfold State.blocksPlace; (try dsimp only); (repeat' split) <;> simp)

@[simp] theorem State.leaveSocket_frame (n : Shot) (k : Socket) (tr : Transfer) (wasTarget : Bool) (s : State) :
    (State.leaveSocket n k tr wasTarget s).member = s.member ∧
    (State.leaveSocket n k tr wasTarget s).clock = s.clock ∧ (State.leaveSocket n k tr wasTarget s).sync = s.sync ∧
    (State.leaveSocket n k tr wasTarget s).capture = s.capture ∧
    (State.leaveSocket n k tr wasTarget s).dark = s.dark ∧
    (State.leaveSocket n k tr wasTarget s).develop = s.develop ∧
    (State.leaveSocket n k tr wasTarget s).card = s.card ∧
    (State.leaveSocket n k tr wasTarget s).notices = s.notices ∧
    (State.leaveSocket n k tr wasTarget s).power = s.power ∧
    (State.leaveSocket n k tr wasTarget s).pending = s.pending ∧
    (State.leaveSocket n k tr wasTarget s).ring.next = s.ring.next := by
  and_intros <;> (unfold State.leaveSocket; (try dsimp only); (repeat' split) <;> simp)

@[simp] theorem State.blocksUnplace_frame (source : Node) (n : Shot) (k : Socket) (s : State) :
    (State.blocksUnplace source n k s).member = s.member ∧ (State.blocksUnplace source n k s).pending = s.pending ∧
    (State.blocksUnplace source n k s).clock.linkTime = s.clock.linkTime ∧
    (State.blocksUnplace source n k s).card.medium = s.card.medium ∧
    (State.blocksUnplace source n k s).ring.next = s.ring.next := by
  and_intros <;> (unfold State.blocksUnplace; (try dsimp only); (repeat' split) <;> simp)

@[simp] theorem State.blocksCommit_frame (n : Shot) (k : Socket) (s : State) :
    (State.blocksCommit n k s).member = s.member ∧ (State.blocksCommit n k s).pending = s.pending ∧
    (State.blocksCommit n k s).clock.linkTime = s.clock.linkTime ∧
    (State.blocksCommit n k s).card.medium = s.card.medium ∧ (State.blocksCommit n k s).ring.next = s.ring.next := by
  and_intros <;> (unfold State.blocksCommit; (try dsimp only); (repeat' split) <;> simp)

@[simp] theorem State.transferGrant_frame (socket : Byte) (n : Shot) (count : Byte) (s : State) :
    (State.transferGrant socket n count s).member = s.member ∧
    (State.transferGrant socket n count s).clock = s.clock ∧ (State.transferGrant socket n count s).sync = s.sync ∧
    (State.transferGrant socket n count s).capture = s.capture ∧
    (State.transferGrant socket n count s).dark = s.dark ∧
    (State.transferGrant socket n count s).develop = s.develop ∧
    (State.transferGrant socket n count s).card = s.card ∧
    (State.transferGrant socket n count s).notices = s.notices ∧
    (State.transferGrant socket n count s).power = s.power ∧
    (State.transferGrant socket n count s).pending = s.pending ∧
    (State.transferGrant socket n count s).ring.next = s.ring.next := by
  and_intros <;> (unfold State.transferGrant; (try dsimp only); (repeat' split) <;> simp)

@[simp] theorem State.cardRedo_frame (n : Shot) (member : Byte) (s : State) :
    (State.cardRedo n member s).member = s.member ∧ (State.cardRedo n member s).link = s.link ∧
    (State.cardRedo n member s).clock = s.clock ∧ (State.cardRedo n member s).sync = s.sync ∧
    (State.cardRedo n member s).capture = s.capture ∧ (State.cardRedo n member s).ring = s.ring ∧
    (State.cardRedo n member s).dark = s.dark ∧ (State.cardRedo n member s).develop = s.develop ∧
    (State.cardRedo n member s).transfer = s.transfer ∧ (State.cardRedo n member s).notices = s.notices ∧
    (State.cardRedo n member s).power = s.power ∧ (State.cardRedo n member s).pending = s.pending ∧
    (State.cardRedo n member s).card.medium = s.card.medium := by
  and_intros <;> (unfold State.cardRedo; (try dsimp only); (repeat' split) <;> simp)

@[simp] theorem State.transferRedo_frame (n : Shot) (member : Byte) (s : State) :
    (State.transferRedo n member s).member = s.member ∧ (State.transferRedo n member s).clock = s.clock ∧
    (State.transferRedo n member s).sync = s.sync ∧ (State.transferRedo n member s).capture = s.capture ∧
    (State.transferRedo n member s).dark = s.dark ∧ (State.transferRedo n member s).develop = s.develop ∧
    (State.transferRedo n member s).card = s.card ∧ (State.transferRedo n member s).notices = s.notices ∧
    (State.transferRedo n member s).power = s.power ∧ (State.transferRedo n member s).pending = s.pending ∧
    (State.transferRedo n member s).ring.next = s.ring.next := by
  and_intros <;> (unfold State.transferRedo; (try dsimp only); (repeat' split) <;> simp)

@[simp] theorem State.returnGrants_frame (m : Node) (s : State) :
    (State.returnGrants m s).member = s.member ∧ (State.returnGrants m s).clock = s.clock ∧
    (State.returnGrants m s).sync = s.sync ∧ (State.returnGrants m s).capture = s.capture ∧
    (State.returnGrants m s).ring = s.ring ∧ (State.returnGrants m s).dark = s.dark ∧
    (State.returnGrants m s).develop = s.develop ∧ (State.returnGrants m s).transfer = s.transfer ∧
    (State.returnGrants m s).notices = s.notices ∧ (State.returnGrants m s).power = s.power ∧
    (State.returnGrants m s).pending = s.pending ∧ (State.returnGrants m s).card.medium = s.card.medium := by
  and_intros <;> (unfold State.returnGrants; (try dsimp only); (repeat' split) <;> simp)

@[simp] theorem State.cardClaim_frame (q : Claim) (s : State) :
    (State.cardClaim q s).member = s.member ∧ (State.cardClaim q s).clock = s.clock ∧
    (State.cardClaim q s).sync = s.sync ∧ (State.cardClaim q s).capture = s.capture ∧
    (State.cardClaim q s).ring = s.ring ∧ (State.cardClaim q s).dark = s.dark ∧
    (State.cardClaim q s).develop = s.develop ∧ (State.cardClaim q s).transfer = s.transfer ∧
    (State.cardClaim q s).notices = s.notices ∧ (State.cardClaim q s).power = s.power ∧
    (State.cardClaim q s).pending = s.pending ∧ (State.cardClaim q s).card.medium = s.card.medium := by
  and_intros <;> (unfold State.cardClaim; (try dsimp only); (repeat' split) <;> simp)

@[simp] theorem State.buildBulk_frame (s : State) :
    (State.buildBulk s).member = s.member ∧ (State.buildBulk s).clock = s.clock ∧ (State.buildBulk s).sync = s.sync ∧
    (State.buildBulk s).capture = s.capture ∧ (State.buildBulk s).ring = s.ring ∧ (State.buildBulk s).dark = s.dark ∧
    (State.buildBulk s).develop = s.develop ∧ (State.buildBulk s).transfer = s.transfer ∧
    (State.buildBulk s).card = s.card ∧ (State.buildBulk s).notices = s.notices ∧
    (State.buildBulk s).power = s.power ∧ (State.buildBulk s).pending = s.pending := by
  and_intros <;> (unfold State.buildBulk; (try dsimp only); (repeat' split) <;> simp)

@[simp] theorem State.segmentSent_frame (b : SegmentBody) (cancelled : Bool) (s : State) :
    (State.segmentSent b cancelled s).member = s.member ∧ (State.segmentSent b cancelled s).clock = s.clock ∧
    (State.segmentSent b cancelled s).sync = s.sync ∧ (State.segmentSent b cancelled s).capture = s.capture ∧
    (State.segmentSent b cancelled s).dark = s.dark ∧ (State.segmentSent b cancelled s).develop = s.develop ∧
    (State.segmentSent b cancelled s).card = s.card ∧ (State.segmentSent b cancelled s).notices = s.notices ∧
    (State.segmentSent b cancelled s).power = s.power ∧ (State.segmentSent b cancelled s).pending = s.pending ∧
    (State.segmentSent b cancelled s).ring.next = s.ring.next := by
  and_intros <;> (unfold State.segmentSent; (try dsimp only); (repeat' split) <;> simp)

@[simp] theorem State.bulkSent_frame (b : Bulk) (s : State) :
    (State.bulkSent b s).member = s.member ∧ (State.bulkSent b s).clock = s.clock ∧
    (State.bulkSent b s).sync = s.sync ∧ (State.bulkSent b s).capture = s.capture ∧
    (State.bulkSent b s).dark = s.dark ∧ (State.bulkSent b s).card = s.card ∧
    (State.bulkSent b s).notices = s.notices ∧ (State.bulkSent b s).power = s.power ∧
    (State.bulkSent b s).pending = s.pending ∧ (State.bulkSent b s).ring.next = s.ring.next := by
  and_intros <;> (unfold State.bulkSent; (try dsimp only); (repeat' split) <;> simp)

@[simp] theorem State.updProgress_frame (n : Shot) (m : Node) (f : Progress → Progress) (s : State) :
    (State.updProgress n m f s).member = s.member ∧ (State.updProgress n m f s).link = s.link ∧
    (State.updProgress n m f s).clock = s.clock ∧ (State.updProgress n m f s).sync = s.sync ∧
    (State.updProgress n m f s).capture = s.capture ∧ (State.updProgress n m f s).ring = s.ring ∧
    (State.updProgress n m f s).dark = s.dark ∧ (State.updProgress n m f s).develop = s.develop ∧
    (State.updProgress n m f s).transfer = s.transfer ∧ (State.updProgress n m f s).notices = s.notices ∧
    (State.updProgress n m f s).power = s.power ∧ (State.updProgress n m f s).pending = s.pending ∧
    (State.updProgress n m f s).card.medium = s.card.medium := by
  and_intros <;> (unfold State.updProgress; (try dsimp only); (repeat' split) <;> simp)

@[simp] theorem State.failTile_frame (p : Placed) (m : Progress) (reason : RedoReason) (s : State) :
    (State.failTile p m reason s).member = s.member ∧ (State.failTile p m reason s).pending = s.pending ∧
    (State.failTile p m reason s).clock.linkTime = s.clock.linkTime ∧
    (State.failTile p m reason s).card.medium = s.card.medium ∧
    (State.failTile p m reason s).ring.next = s.ring.next := by
  and_intros <;> (unfold State.failTile; (try dsimp only); (repeat' split) <;> simp)

@[simp] theorem State.closeTile_frame (p : Placed) (m : Progress) (running : Word16) (c : CloseFields) (s : State) :
    (State.closeTile p m running c s).member = s.member ∧ (State.closeTile p m running c s).pending = s.pending ∧
    (State.closeTile p m running c s).clock.linkTime = s.clock.linkTime ∧
    (State.closeTile p m running c s).card.medium = s.card.medium ∧
    (State.closeTile p m running c s).ring.next = s.ring.next := by
  and_intros <;> (unfold State.closeTile; (try dsimp only); (repeat' split) <;> simp)

@[simp] theorem State.acceptSegment_frame (p : Placed) (m : Progress) (b : SegmentBody) (s : State) :
    (State.acceptSegment p m b s).member = s.member ∧ (State.acceptSegment p m b s).pending = s.pending ∧
    (State.acceptSegment p m b s).clock.linkTime = s.clock.linkTime ∧
    (State.acceptSegment p m b s).card.medium = s.card.medium ∧
    (State.acceptSegment p m b s).ring.next = s.ring.next := by
  and_intros <;> (unfold State.acceptSegment; (try dsimp only); (repeat' split) <;> simp)

@[simp] theorem State.judgeSegment_frame (p : Placed) (m : Progress) (b : SegmentBody) (s : State) :
    (State.judgeSegment p m b s).member = s.member ∧ (State.judgeSegment p m b s).pending = s.pending ∧
    (State.judgeSegment p m b s).clock.linkTime = s.clock.linkTime ∧
    (State.judgeSegment p m b s).card.medium = s.card.medium ∧ (State.judgeSegment p m b s).ring.next = s.ring.next := by
  and_intros <;> (unfold State.judgeSegment; (try dsimp only); (repeat' split) <;> simp)

@[simp] theorem State.cardSegment_frame (source : Node) (b : SegmentBody) (s : State) :
    (State.cardSegment source b s).member = s.member ∧ (State.cardSegment source b s).pending = s.pending ∧
    (State.cardSegment source b s).clock.linkTime = s.clock.linkTime ∧
    (State.cardSegment source b s).card.medium = s.card.medium ∧
    (State.cardSegment source b s).ring.next = s.ring.next := by
  and_intros <;> (unfold State.cardSegment; (try dsimp only); (repeat' split) <;> simp)

@[simp] theorem State.completeWrite_member (p : Write → Bool) (f : Write → State → State) (s : State) (hk : ∀ w t, (f w t).member = t.member) :
    (State.completeWrite p f s).member = s.member := by
  unfold State.completeWrite; (try dsimp only); (repeat' split) <;> simp [hk]
@[simp] theorem State.completeWrite_link (p : Write → Bool) (f : Write → State → State) (s : State) (hk : ∀ w t, (f w t).link = t.link) :
    (State.completeWrite p f s).link = s.link := by
  unfold State.completeWrite; (try dsimp only); (repeat' split) <;> simp [hk]
@[simp] theorem State.completeWrite_clock (p : Write → Bool) (f : Write → State → State) (s : State) (hk : ∀ w t, (f w t).clock = t.clock) :
    (State.completeWrite p f s).clock = s.clock := by
  unfold State.completeWrite; (try dsimp only); (repeat' split) <;> simp [hk]
@[simp] theorem State.completeWrite_sync (p : Write → Bool) (f : Write → State → State) (s : State) (hk : ∀ w t, (f w t).sync = t.sync) :
    (State.completeWrite p f s).sync = s.sync := by
  unfold State.completeWrite; (try dsimp only); (repeat' split) <;> simp [hk]
@[simp] theorem State.completeWrite_capture (p : Write → Bool) (f : Write → State → State) (s : State) (hk : ∀ w t, (f w t).capture = t.capture) :
    (State.completeWrite p f s).capture = s.capture := by
  unfold State.completeWrite; (try dsimp only); (repeat' split) <;> simp [hk]
@[simp] theorem State.completeWrite_ring (p : Write → Bool) (f : Write → State → State) (s : State) (hk : ∀ w t, (f w t).ring = t.ring) :
    (State.completeWrite p f s).ring = s.ring := by
  unfold State.completeWrite; (try dsimp only); (repeat' split) <;> simp [hk]
@[simp] theorem State.completeWrite_dark (p : Write → Bool) (f : Write → State → State) (s : State) (hk : ∀ w t, (f w t).dark = t.dark) :
    (State.completeWrite p f s).dark = s.dark := by
  unfold State.completeWrite; (try dsimp only); (repeat' split) <;> simp [hk]
@[simp] theorem State.completeWrite_develop (p : Write → Bool) (f : Write → State → State) (s : State) (hk : ∀ w t, (f w t).develop = t.develop) :
    (State.completeWrite p f s).develop = s.develop := by
  unfold State.completeWrite; (try dsimp only); (repeat' split) <;> simp [hk]
@[simp] theorem State.completeWrite_transfer (p : Write → Bool) (f : Write → State → State) (s : State) (hk : ∀ w t, (f w t).transfer = t.transfer) :
    (State.completeWrite p f s).transfer = s.transfer := by
  unfold State.completeWrite; (try dsimp only); (repeat' split) <;> simp [hk]
@[simp] theorem State.completeWrite_power (p : Write → Bool) (f : Write → State → State) (s : State) (hk : ∀ w t, (f w t).power = t.power) :
    (State.completeWrite p f s).power = s.power := by
  unfold State.completeWrite; (try dsimp only); (repeat' split) <;> simp [hk]
@[simp] theorem State.completeWrite_pending (p : Write → Bool) (f : Write → State → State) (s : State) (hk : ∀ w t, (f w t).pending = t.pending) :
    (State.completeWrite p f s).pending = s.pending := by
  unfold State.completeWrite; (try dsimp only); (repeat' split) <;> simp [hk]
@[simp] theorem State.completeWrite_linkTime (p : Write → Bool) (f : Write → State → State) (s : State) (hk : ∀ w t, (f w t).clock.linkTime = t.clock.linkTime) :
    (State.completeWrite p f s).clock.linkTime = s.clock.linkTime := by
  unfold State.completeWrite; (try dsimp only); (repeat' split) <;> simp [hk]
@[simp] theorem State.completeWrite_next (p : Write → Bool) (f : Write → State → State) (s : State) (hk : ∀ w t, (f w t).ring.next = t.ring.next) :
    (State.completeWrite p f s).ring.next = s.ring.next := by
  unfold State.completeWrite; (try dsimp only); (repeat' split) <;> simp [hk]
@[simp] theorem State.completeWrite_straps (p : Write → Bool) (f : Write → State → State) (s : State) (hk : ∀ w t, (f w t).member.straps = t.member.straps) :
    (State.completeWrite p f s).member.straps = s.member.straps := by
  unfold State.completeWrite; (try dsimp only); (repeat' split) <;> simp [hk]
@[simp] theorem State.completeWrite_serial (p : Write → Bool) (f : Write → State → State) (s : State) (hk : ∀ w t, (f w t).member.serial = t.member.serial) :
    (State.completeWrite p f s).member.serial = s.member.serial := by
  unfold State.completeWrite; (try dsimp only); (repeat' split) <;> simp [hk]
@[simp] theorem State.completeWrite_settings (p : Write → Bool) (f : Write → State → State) (s : State) (hk : ∀ w t, (f w t).member.settings = t.member.settings) :
    (State.completeWrite p f s).member.settings = s.member.settings := by
  unfold State.completeWrite; (try dsimp only); (repeat' split) <;> simp [hk]

@[simp] theorem State.blockWritten_frame (w : Write) (s : State) :
    (State.blockWritten w s).member = s.member ∧ (State.blockWritten w s).clock = s.clock ∧
    (State.blockWritten w s).sync = s.sync ∧ (State.blockWritten w s).capture = s.capture ∧
    (State.blockWritten w s).ring = s.ring ∧ (State.blockWritten w s).dark = s.dark ∧
    (State.blockWritten w s).develop = s.develop ∧ (State.blockWritten w s).transfer = s.transfer ∧
    (State.blockWritten w s).notices = s.notices ∧ (State.blockWritten w s).power = s.power ∧
    (State.blockWritten w s).pending = s.pending ∧ (State.blockWritten w s).card.medium = s.card.medium := by
  and_intros <;> (unfold State.blockWritten; (try dsimp only); (repeat' split) <;> simp)

@[simp] theorem State.indexWritten_frame (w : Write) (s : State) :
    (State.indexWritten w s).member = s.member ∧ (State.indexWritten w s).pending = s.pending ∧
    (State.indexWritten w s).clock.linkTime = s.clock.linkTime ∧
    (State.indexWritten w s).card.medium = s.card.medium ∧ (State.indexWritten w s).ring.next = s.ring.next := by
  and_intros <;> (unfold State.indexWritten; (try dsimp only); (repeat' split) <;> simp)

@[simp] theorem State.voidWritten_frame (w : Write) (s : State) :
    (State.voidWritten w s).member = s.member ∧ (State.voidWritten w s).clock = s.clock ∧
    (State.voidWritten w s).sync = s.sync ∧ (State.voidWritten w s).capture = s.capture ∧
    (State.voidWritten w s).ring = s.ring ∧ (State.voidWritten w s).dark = s.dark ∧
    (State.voidWritten w s).develop = s.develop ∧ (State.voidWritten w s).transfer = s.transfer ∧
    (State.voidWritten w s).card = s.card ∧ (State.voidWritten w s).notices = s.notices ∧
    (State.voidWritten w s).power = s.power ∧ (State.voidWritten w s).pending = s.pending := by
  and_intros <;> (unfold State.voidWritten; (try dsimp only); (repeat' split) <;> simp)

@[simp] theorem State.writeError_frame (s : State) :
    (State.writeError s).member = s.member ∧ (State.writeError s).pending = s.pending ∧
    (State.writeError s).clock.linkTime = s.clock.linkTime ∧ (State.writeError s).card.medium = s.card.medium ∧
    (State.writeError s).ring.next = s.ring.next := by
  and_intros <;> (unfold State.writeError; (try dsimp only); (repeat' split) <;> simp)

@[simp] theorem State.insertCard_frame (m : Medium) (s : State) :
    (State.insertCard m s).capture = s.capture ∧ (State.insertCard m s).ring = s.ring ∧
    (State.insertCard m s).dark = s.dark ∧ (State.insertCard m s).transfer = s.transfer ∧
    (State.insertCard m s).pending = s.pending ∧ (State.insertCard m s).clock.linkTime = s.clock.linkTime ∧
    (State.insertCard m s).member.straps = s.member.straps ∧ (State.insertCard m s).member.serial = s.member.serial ∧
    (State.insertCard m s).member.settings = s.member.settings := by
  and_intros <;> (unfold State.insertCard; (try dsimp only); (repeat' split) <;> simp)

@[simp] theorem State.mountDone_frame (s : State) :
    (State.mountDone s).member = s.member ∧ (State.mountDone s).clock = s.clock ∧ (State.mountDone s).sync = s.sync ∧
    (State.mountDone s).capture = s.capture ∧ (State.mountDone s).ring = s.ring ∧ (State.mountDone s).dark = s.dark ∧
    (State.mountDone s).develop = s.develop ∧ (State.mountDone s).transfer = s.transfer ∧
    (State.mountDone s).power = s.power ∧ (State.mountDone s).pending = s.pending ∧
    (State.mountDone s).card.medium = s.card.medium := by
  and_intros <;> (unfold State.mountDone; (try dsimp only); (repeat' split) <;> simp)

@[simp] theorem State.mountError_frame (s : State) :
    (State.mountError s).member = s.member ∧ (State.mountError s).link = s.link ∧
    (State.mountError s).clock = s.clock ∧ (State.mountError s).sync = s.sync ∧
    (State.mountError s).capture = s.capture ∧ (State.mountError s).ring = s.ring ∧
    (State.mountError s).dark = s.dark ∧ (State.mountError s).develop = s.develop ∧
    (State.mountError s).transfer = s.transfer ∧ (State.mountError s).power = s.power ∧
    (State.mountError s).pending = s.pending ∧ (State.mountError s).card.medium = s.card.medium := by
  and_intros <;> (unfold State.mountError; (try dsimp only); (repeat' split) <;> simp)

@[simp] theorem State.removeCard_frame (s : State) :
    (State.removeCard s).member = s.member ∧ (State.removeCard s).pending = s.pending ∧
    (State.removeCard s).clock.linkTime = s.clock.linkTime ∧ (State.removeCard s).ring.next = s.ring.next := by
  and_intros <;> (unfold State.removeCard; (try dsimp only); (repeat' split) <;> simp)

@[simp] theorem State.formatDone_frame (s : State) :
    (State.formatDone s).member = s.member ∧ (State.formatDone s).clock = s.clock ∧
    (State.formatDone s).sync = s.sync ∧ (State.formatDone s).capture = s.capture ∧
    (State.formatDone s).ring = s.ring ∧ (State.formatDone s).dark = s.dark ∧
    (State.formatDone s).develop = s.develop ∧ (State.formatDone s).transfer = s.transfer ∧
    (State.formatDone s).power = s.power ∧ (State.formatDone s).pending = s.pending := by
  and_intros <;> (unfold State.formatDone; (try dsimp only); (repeat' split) <;> simp)

@[simp] theorem refuse_frame (r : Reason) (s : State) :
    (refuse r s).1.member = s.member ∧ (refuse r s).1.link = s.link ∧ (refuse r s).1.clock = s.clock ∧
    (refuse r s).1.sync = s.sync ∧ (refuse r s).1.capture = s.capture ∧ (refuse r s).1.ring = s.ring ∧
    (refuse r s).1.dark = s.dark ∧ (refuse r s).1.develop = s.develop ∧ (refuse r s).1.transfer = s.transfer ∧
    (refuse r s).1.card = s.card ∧ (refuse r s).1.notices = s.notices ∧ (refuse r s).1.power = s.power ∧
    (refuse r s).1.pending = s.pending := by
  and_intros <;> rfl

@[simp] theorem State.answer_frame (h : ReqHeader) (code : Byte) (r : State × Reply) :
    (State.answer h code r).member = r.1.member ∧ (State.answer h code r).clock = r.1.clock ∧
    (State.answer h code r).sync = r.1.sync ∧ (State.answer h code r).capture = r.1.capture ∧
    (State.answer h code r).ring = r.1.ring ∧ (State.answer h code r).dark = r.1.dark ∧
    (State.answer h code r).develop = r.1.develop ∧ (State.answer h code r).transfer = r.1.transfer ∧
    (State.answer h code r).card = r.1.card ∧ (State.answer h code r).notices = r.1.notices ∧
    (State.answer h code r).power = r.1.power ∧ (State.answer h code r).pending = r.1.pending := by
  and_intros <;> (unfold State.answer; (try dsimp only); (repeat' split) <;> simp)

@[simp] theorem State.settle_member (h : ReqHeader) (code : Byte) (readable : Bool) (act : Action) (s : State) (hk : ∀ t, (act t).1.member = t.member) :
    (State.settle h code readable act s).member = s.member := by
  unfold State.settle; (try dsimp only); (repeat' split) <;> simp [hk]
@[simp] theorem State.settle_clock (h : ReqHeader) (code : Byte) (readable : Bool) (act : Action) (s : State) (hk : ∀ t, (act t).1.clock = t.clock)
    (hq : s.testsSleep code (act s).2 = false) : (State.settle h code readable act s).clock = s.clock := by
  unfold State.settle; (try dsimp only); (repeat' split) <;> simp [hk, hq]
@[simp] theorem State.settle_sync (h : ReqHeader) (code : Byte) (readable : Bool) (act : Action) (s : State) (hk : ∀ t, (act t).1.sync = t.sync)
    (hq : s.testsSleep code (act s).2 = false) : (State.settle h code readable act s).sync = s.sync := by
  unfold State.settle; (try dsimp only); (repeat' split) <;> simp [hk, hq]
@[simp] theorem State.settle_capture (h : ReqHeader) (code : Byte) (readable : Bool) (act : Action) (s : State) (hk : ∀ t, (act t).1.capture = t.capture)
    (hq : s.testsSleep code (act s).2 = false) : (State.settle h code readable act s).capture = s.capture := by
  unfold State.settle; (try dsimp only); (repeat' split) <;> simp [hk, hq]
@[simp] theorem State.settle_ring (h : ReqHeader) (code : Byte) (readable : Bool) (act : Action) (s : State) (hk : ∀ t, (act t).1.ring = t.ring)
    (hq : s.testsSleep code (act s).2 = false) : (State.settle h code readable act s).ring = s.ring := by
  unfold State.settle; (try dsimp only); (repeat' split) <;> simp [hk, hq]
@[simp] theorem State.settle_dark (h : ReqHeader) (code : Byte) (readable : Bool) (act : Action) (s : State) (hk : ∀ t, (act t).1.dark = t.dark)
    (hq : s.testsSleep code (act s).2 = false) : (State.settle h code readable act s).dark = s.dark := by
  unfold State.settle; (try dsimp only); (repeat' split) <;> simp [hk, hq]
@[simp] theorem State.settle_develop (h : ReqHeader) (code : Byte) (readable : Bool) (act : Action) (s : State) (hk : ∀ t, (act t).1.develop = t.develop)
    (hq : s.testsSleep code (act s).2 = false) : (State.settle h code readable act s).develop = s.develop := by
  unfold State.settle; (try dsimp only); (repeat' split) <;> simp [hk, hq]
@[simp] theorem State.settle_transfer (h : ReqHeader) (code : Byte) (readable : Bool) (act : Action) (s : State) (hk : ∀ t, (act t).1.transfer = t.transfer)
    (hq : s.testsSleep code (act s).2 = false) : (State.settle h code readable act s).transfer = s.transfer := by
  unfold State.settle; (try dsimp only); (repeat' split) <;> simp [hk, hq]
@[simp] theorem State.settle_card (h : ReqHeader) (code : Byte) (readable : Bool) (act : Action) (s : State) (hk : ∀ t, (act t).1.card = t.card)
    (hq : s.testsSleep code (act s).2 = false) : (State.settle h code readable act s).card = s.card := by
  unfold State.settle; (try dsimp only); (repeat' split) <;> simp [hk, hq]
@[simp] theorem State.settle_notices (h : ReqHeader) (code : Byte) (readable : Bool) (act : Action) (s : State) (hk : ∀ t, (act t).1.notices = t.notices)
    (hq : s.testsSleep code (act s).2 = false) : (State.settle h code readable act s).notices = s.notices := by
  unfold State.settle; (try dsimp only); (repeat' split) <;> simp [hk, hq]
@[simp] theorem State.settle_power (h : ReqHeader) (code : Byte) (readable : Bool) (act : Action) (s : State) (hk : ∀ t, (act t).1.power = t.power)
    (hq : s.testsSleep code (act s).2 = false) : (State.settle h code readable act s).power = s.power := by
  unfold State.settle; (try dsimp only); (repeat' split) <;> simp [hk, hq]
@[simp] theorem State.settle_pending (h : ReqHeader) (code : Byte) (readable : Bool) (act : Action) (s : State) (hk : ∀ t, (act t).1.pending = t.pending) :
    (State.settle h code readable act s).pending = s.pending := by
  unfold State.settle; (try dsimp only); (repeat' split) <;> simp [hk]
@[simp] theorem State.settle_linkTime (h : ReqHeader) (code : Byte) (readable : Bool) (act : Action) (s : State) (hk : ∀ t, (act t).1.clock.linkTime = t.clock.linkTime) :
    (State.settle h code readable act s).clock.linkTime = s.clock.linkTime := by
  unfold State.settle; (try dsimp only); (repeat' split) <;> simp [hk]
@[simp] theorem State.settle_medium (h : ReqHeader) (code : Byte) (readable : Bool) (act : Action) (s : State) (hk : ∀ t, (act t).1.card.medium = t.card.medium) :
    (State.settle h code readable act s).card.medium = s.card.medium := by
  unfold State.settle; (try dsimp only); (repeat' split) <;> simp [hk]
@[simp] theorem State.settle_next (h : ReqHeader) (code : Byte) (readable : Bool) (act : Action) (s : State) (hk : ∀ t, (act t).1.ring.next = t.ring.next) :
    (State.settle h code readable act s).ring.next = s.ring.next := by
  unfold State.settle; (try dsimp only); (repeat' split) <;> simp [hk]
@[simp] theorem State.settle_straps (h : ReqHeader) (code : Byte) (readable : Bool) (act : Action) (s : State) (hk : ∀ t, (act t).1.member.straps = t.member.straps) :
    (State.settle h code readable act s).member.straps = s.member.straps := by
  unfold State.settle; (try dsimp only); (repeat' split) <;> simp [hk]
@[simp] theorem State.settle_serial (h : ReqHeader) (code : Byte) (readable : Bool) (act : Action) (s : State) (hk : ∀ t, (act t).1.member.serial = t.member.serial) :
    (State.settle h code readable act s).member.serial = s.member.serial := by
  unfold State.settle; (try dsimp only); (repeat' split) <;> simp [hk]
@[simp] theorem State.settle_settings (h : ReqHeader) (code : Byte) (readable : Bool) (act : Action) (s : State) (hk : ∀ t, (act t).1.member.settings = t.member.settings) :
    (State.settle h code readable act s).member.settings = s.member.settings := by
  unfold State.settle; (try dsimp only); (repeat' split) <;> simp [hk]

@[simp] theorem State.request_sync (h : ReqHeader) (code : Byte) (act : Action) (s : State) (hk : ∀ t, (act t).1.sync = t.sync)
    (hq : ∀ t : State, t.testsSleep code (act t).2 = false) : (State.request h code act s).sync = s.sync :=
  State.take_sync _ _ _ fun t => State.settle_sync _ _ _ _ _ hk (hq t)
@[simp] theorem State.request_dark (h : ReqHeader) (code : Byte) (act : Action) (s : State) (hk : ∀ t, (act t).1.dark = t.dark)
    (hq : ∀ t : State, t.testsSleep code (act t).2 = false) : (State.request h code act s).dark = s.dark :=
  State.take_dark _ _ _ fun t => State.settle_dark _ _ _ _ _ hk (hq t)
@[simp] theorem State.request_power (h : ReqHeader) (code : Byte) (act : Action) (s : State) (hk : ∀ t, (act t).1.power = t.power)
    (hq : ∀ t : State, t.testsSleep code (act t).2 = false) : (State.request h code act s).power = s.power :=
  State.take_power _ _ _ fun t => State.settle_power _ _ _ _ _ hk (hq t)
@[simp] theorem State.request_pending (h : ReqHeader) (code : Byte) (act : Action) (s : State) (hk : ∀ t, (act t).1.pending = t.pending) :
    (State.request h code act s).pending = s.pending := by
  unfold State.request; (try dsimp only); (repeat' split) <;> simp [hk]
@[simp] theorem State.request_linkTime (h : ReqHeader) (code : Byte) (act : Action) (s : State) (hk : ∀ t, (act t).1.clock.linkTime = t.clock.linkTime) :
    (State.request h code act s).clock.linkTime = s.clock.linkTime := by
  unfold State.request; (try dsimp only); (repeat' split) <;> simp [hk]
@[simp] theorem State.request_medium (h : ReqHeader) (code : Byte) (act : Action) (s : State) (hk : ∀ t, (act t).1.card.medium = t.card.medium) :
    (State.request h code act s).card.medium = s.card.medium := by
  unfold State.request; (try dsimp only); (repeat' split) <;> simp [hk]
@[simp] theorem State.request_straps (h : ReqHeader) (code : Byte) (act : Action) (s : State) (hk : ∀ t, (act t).1.member.straps = t.member.straps) :
    (State.request h code act s).member.straps = s.member.straps := by
  unfold State.request; (try dsimp only); (repeat' split) <;> simp [hk]
@[simp] theorem State.request_serial (h : ReqHeader) (code : Byte) (act : Action) (s : State) (hk : ∀ t, (act t).1.member.serial = t.member.serial) :
    (State.request h code act s).member.serial = s.member.serial := by
  unfold State.request; (try dsimp only); (repeat' split) <;> simp [hk]
@[simp] theorem State.request_settings (h : ReqHeader) (code : Byte) (act : Action) (s : State) (hk : ∀ t, (act t).1.member.settings = t.member.settings) :
    (State.request h code act s).member.settings = s.member.settings := by
  unfold State.request; (try dsimp only); (repeat' split) <;> simp [hk]

@[simp] theorem State.reconfigured_frame (s : State) :
    (State.reconfigured s).link = s.link ∧ (State.reconfigured s).clock = s.clock ∧
    (State.reconfigured s).sync = s.sync ∧ (State.reconfigured s).capture = s.capture ∧
    (State.reconfigured s).ring = s.ring ∧ (State.reconfigured s).dark = s.dark ∧
    (State.reconfigured s).develop = s.develop ∧ (State.reconfigured s).transfer = s.transfer ∧
    (State.reconfigured s).card = s.card ∧ (State.reconfigured s).notices = s.notices ∧
    (State.reconfigured s).power = s.power ∧ (State.reconfigured s).pending = s.pending ∧
    (State.reconfigured s).member.straps = s.member.straps ∧ (State.reconfigured s).member.serial = s.member.serial ∧
    (State.reconfigured s).member.settings = s.member.settings := by
  and_intros <;> (unfold State.reconfigured; (try dsimp only); (repeat' split) <;> simp)

@[simp] theorem setDefect_frame (value : Word32) (s : State) :
    (setDefect value s).1.link = s.link ∧ (setDefect value s).1.clock = s.clock ∧
    (setDefect value s).1.sync = s.sync ∧ (setDefect value s).1.capture = s.capture ∧
    (setDefect value s).1.ring = s.ring ∧ (setDefect value s).1.develop = s.develop ∧
    (setDefect value s).1.transfer = s.transfer ∧ (setDefect value s).1.card = s.card ∧
    (setDefect value s).1.notices = s.notices ∧ (setDefect value s).1.power = s.power ∧
    (setDefect value s).1.pending = s.pending ∧ (setDefect value s).1.member.straps = s.member.straps ∧
    (setDefect value s).1.member.serial = s.member.serial ∧
    (setDefect value s).1.member.settings = s.member.settings := by
  and_intros <;> (unfold setDefect; (try dsimp only); (repeat' split) <;> simp)

@[simp] theorem State.resized_frame (s : State) :
    (State.resized s).member = s.member ∧ (State.resized s).sync = s.sync ∧ (State.resized s).capture = s.capture ∧
    (State.resized s).power = s.power ∧ (State.resized s).pending = s.pending ∧
    (State.resized s).clock.linkTime = s.clock.linkTime ∧ (State.resized s).card.medium = s.card.medium ∧
    (State.resized s).ring.next = s.ring.next := by
  and_intros <;> (unfold State.resized; (try dsimp only); (repeat' split) <;> simp)

@[simp] theorem actSet_frame (toAll : Bool) (item : Byte) (value : Word32) (s : State) :
    (actSet toAll item value s).1.sync = s.sync ∧ (actSet toAll item value s).1.capture = s.capture ∧
    (actSet toAll item value s).1.power = s.power ∧ (actSet toAll item value s).1.pending = s.pending ∧
    (actSet toAll item value s).1.clock.linkTime = s.clock.linkTime ∧
    (actSet toAll item value s).1.card.medium = s.card.medium ∧
    (actSet toAll item value s).1.ring.next = s.ring.next ∧
    (actSet toAll item value s).1.member.straps = s.member.straps ∧
    (actSet toAll item value s).1.member.serial = s.member.serial := by
  and_intros <;> (unfold actSet; (try dsimp only); (repeat' split) <;> simp)

@[simp] theorem actBegin_frame (s : State) :
    (actBegin  s).1.clock = s.clock ∧ (actBegin  s).1.sync = s.sync ∧ (actBegin  s).1.dark = s.dark ∧
    (actBegin  s).1.power = s.power ∧ (actBegin  s).1.pending = s.pending ∧
    (actBegin  s).1.card.medium = s.card.medium ∧ (actBegin  s).1.ring.next = s.ring.next := by
  and_intros <;> (unfold actBegin; (try dsimp only); (repeat' split) <;> simp)

@[simp] theorem State.becomeArmed_frame (s : State) :
    (State.becomeArmed s).member = s.member ∧ (State.becomeArmed s).link = s.link ∧
    (State.becomeArmed s).clock = s.clock ∧ (State.becomeArmed s).ring = s.ring ∧
    (State.becomeArmed s).dark = s.dark ∧ (State.becomeArmed s).develop = s.develop ∧
    (State.becomeArmed s).transfer = s.transfer ∧ (State.becomeArmed s).card = s.card ∧
    (State.becomeArmed s).notices = s.notices ∧ (State.becomeArmed s).power = s.power ∧
    (State.becomeArmed s).pending = s.pending := by
  and_intros <;> (unfold State.becomeArmed; (try dsimp only); (repeat' split) <;> simp)

@[simp] theorem actArm_frame (s : State) :
    (actArm  s).1.member = s.member ∧ (actArm  s).1.link = s.link ∧ (actArm  s).1.clock = s.clock ∧
    (actArm  s).1.ring = s.ring ∧ (actArm  s).1.dark = s.dark ∧ (actArm  s).1.develop = s.develop ∧
    (actArm  s).1.transfer = s.transfer ∧ (actArm  s).1.card = s.card ∧ (actArm  s).1.notices = s.notices ∧
    (actArm  s).1.pending = s.pending := by
  and_intros <;> (unfold actArm; (try dsimp only); (repeat' split) <;> simp)

@[simp] theorem actDisarm_frame (s : State) :
    (actDisarm  s).1.member = s.member ∧ (actDisarm  s).1.link = s.link ∧ (actDisarm  s).1.sync = s.sync ∧
    (actDisarm  s).1.ring = s.ring ∧ (actDisarm  s).1.dark = s.dark ∧ (actDisarm  s).1.develop = s.develop ∧
    (actDisarm  s).1.transfer = s.transfer ∧ (actDisarm  s).1.card = s.card ∧ (actDisarm  s).1.notices = s.notices ∧
    (actDisarm  s).1.power = s.power ∧ (actDisarm  s).1.pending = s.pending ∧
    (actDisarm  s).1.clock.linkTime = s.clock.linkTime := by
  and_intros <;> (unfold actDisarm; (try dsimp only); (repeat' split) <;> simp)

@[simp] theorem actResume_frame (s : State) :
    (actResume  s).1.member = s.member ∧ (actResume  s).1.link = s.link ∧ (actResume  s).1.clock = s.clock ∧
    (actResume  s).1.ring = s.ring ∧ (actResume  s).1.dark = s.dark ∧ (actResume  s).1.develop = s.develop ∧
    (actResume  s).1.transfer = s.transfer ∧ (actResume  s).1.card = s.card ∧ (actResume  s).1.notices = s.notices ∧
    (actResume  s).1.power = s.power ∧ (actResume  s).1.pending = s.pending := by
  and_intros <;> (unfold actResume; (try dsimp only); (repeat' split) <;> simp)

@[simp] theorem State.armRelease_frame (t : Time) (s : State) :
    (State.armRelease t s).member = s.member ∧ (State.armRelease t s).link = s.link ∧
    (State.armRelease t s).sync = s.sync ∧ (State.armRelease t s).ring = s.ring ∧
    (State.armRelease t s).dark = s.dark ∧ (State.armRelease t s).develop = s.develop ∧
    (State.armRelease t s).transfer = s.transfer ∧ (State.armRelease t s).card = s.card ∧
    (State.armRelease t s).notices = s.notices ∧ (State.armRelease t s).power = s.power ∧
    (State.armRelease t s).pending = s.pending ∧ (State.armRelease t s).clock.linkTime = s.clock.linkTime := by
  and_intros <;> (unfold State.armRelease; (try dsimp only); (repeat' split) <;> simp)

@[simp] theorem actRelease_frame (t : Time) (s : State) :
    (actRelease t s).1.member = s.member ∧ (actRelease t s).1.link = s.link ∧ (actRelease t s).1.sync = s.sync ∧
    (actRelease t s).1.ring = s.ring ∧ (actRelease t s).1.dark = s.dark ∧ (actRelease t s).1.develop = s.develop ∧
    (actRelease t s).1.transfer = s.transfer ∧ (actRelease t s).1.card = s.card ∧
    (actRelease t s).1.notices = s.notices ∧ (actRelease t s).1.power = s.power ∧
    (actRelease t s).1.pending = s.pending ∧ (actRelease t s).1.clock.linkTime = s.clock.linkTime := by
  and_intros <;> (unfold actRelease; (try dsimp only); (repeat' split) <;> simp)

@[simp] theorem actExposure_frame (shutter : Word32) (s : State) :
    (actExposure shutter s).1.member = s.member ∧ (actExposure shutter s).1.link = s.link ∧
    (actExposure shutter s).1.clock = s.clock ∧ (actExposure shutter s).1.sync = s.sync ∧
    (actExposure shutter s).1.ring = s.ring ∧ (actExposure shutter s).1.dark = s.dark ∧
    (actExposure shutter s).1.develop = s.develop ∧ (actExposure shutter s).1.transfer = s.transfer ∧
    (actExposure shutter s).1.card = s.card ∧ (actExposure shutter s).1.notices = s.notices ∧
    (actExposure shutter s).1.power = s.power ∧ (actExposure shutter s).1.pending = s.pending := by
  and_intros <;> (unfold actExposure; (try dsimp only); (repeat' split) <;> simp)

@[simp] theorem actTakeDark_frame (duration : Word32) (s : State) :
    (actTakeDark duration s).1.member = s.member ∧ (actTakeDark duration s).1.link = s.link ∧
    (actTakeDark duration s).1.sync = s.sync ∧ (actTakeDark duration s).1.transfer = s.transfer ∧
    (actTakeDark duration s).1.card = s.card ∧ (actTakeDark duration s).1.notices = s.notices ∧
    (actTakeDark duration s).1.power = s.power ∧ (actTakeDark duration s).1.pending = s.pending ∧
    (actTakeDark duration s).1.clock.linkTime = s.clock.linkTime ∧
    (actTakeDark duration s).1.ring.next = s.ring.next := by
  and_intros <;> (unfold actTakeDark; (try dsimp only); (repeat' split) <;> simp)

@[simp] theorem actKeep_frame (n : Shot) (s : State) :
    (actKeep n s).1.member = s.member ∧ (actKeep n s).1.clock = s.clock ∧ (actKeep n s).1.sync = s.sync ∧
    (actKeep n s).1.capture = s.capture ∧ (actKeep n s).1.dark = s.dark ∧ (actKeep n s).1.develop = s.develop ∧
    (actKeep n s).1.card = s.card ∧ (actKeep n s).1.notices = s.notices ∧ (actKeep n s).1.power = s.power ∧
    (actKeep n s).1.pending = s.pending ∧ (actKeep n s).1.ring.next = s.ring.next := by
  and_intros <;> (unfold actKeep; (try dsimp only); (repeat' split) <;> simp)

@[simp] theorem actDiscard_frame (toAll : Bool) (n : Shot) (s : State) :
    (actDiscard toAll n s).1.member = s.member ∧ (actDiscard toAll n s).1.sync = s.sync ∧
    (actDiscard toAll n s).1.capture = s.capture ∧ (actDiscard toAll n s).1.dark = s.dark ∧
    (actDiscard toAll n s).1.power = s.power ∧ (actDiscard toAll n s).1.pending = s.pending ∧
    (actDiscard toAll n s).1.clock.linkTime = s.clock.linkTime ∧
    (actDiscard toAll n s).1.card.medium = s.card.medium ∧ (actDiscard toAll n s).1.ring.next = s.ring.next := by
  and_intros <;> (unfold actDiscard; (try dsimp only); (repeat' split) <;> simp)

@[simp] theorem actForgetHot_frame (s : State) :
    (actForgetHot  s).1.member = s.member ∧ (actForgetHot  s).1.link = s.link ∧ (actForgetHot  s).1.clock = s.clock ∧
    (actForgetHot  s).1.sync = s.sync ∧ (actForgetHot  s).1.capture = s.capture ∧ (actForgetHot  s).1.ring = s.ring ∧
    (actForgetHot  s).1.develop = s.develop ∧ (actForgetHot  s).1.transfer = s.transfer ∧
    (actForgetHot  s).1.card = s.card ∧ (actForgetHot  s).1.notices = s.notices ∧
    (actForgetHot  s).1.power = s.power ∧ (actForgetHot  s).1.pending = s.pending := by
  and_intros <;> (unfold actForgetHot; (try dsimp only); (repeat' split) <;> simp)

@[simp] theorem actHistogram_frame (n : Shot) (s : State) :
    (actHistogram n s).1.member = s.member ∧ (actHistogram n s).1.link = s.link ∧
    (actHistogram n s).1.clock = s.clock ∧ (actHistogram n s).1.sync = s.sync ∧
    (actHistogram n s).1.capture = s.capture ∧ (actHistogram n s).1.ring = s.ring ∧
    (actHistogram n s).1.dark = s.dark ∧ (actHistogram n s).1.develop = s.develop ∧
    (actHistogram n s).1.transfer = s.transfer ∧ (actHistogram n s).1.card = s.card ∧
    (actHistogram n s).1.notices = s.notices ∧ (actHistogram n s).1.power = s.power ∧
    (actHistogram n s).1.pending = s.pending := by
  and_intros <;> (unfold actHistogram; (try dsimp only); (repeat' split) <;> simp)

@[simp] theorem State.beginFormat_frame (s : State) :
    (State.beginFormat s).member = s.member ∧ (State.beginFormat s).link = s.link ∧
    (State.beginFormat s).clock = s.clock ∧ (State.beginFormat s).sync = s.sync ∧
    (State.beginFormat s).capture = s.capture ∧ (State.beginFormat s).ring = s.ring ∧
    (State.beginFormat s).dark = s.dark ∧ (State.beginFormat s).develop = s.develop ∧
    (State.beginFormat s).transfer = s.transfer ∧ (State.beginFormat s).power = s.power ∧
    (State.beginFormat s).pending = s.pending := by
  and_intros <;> (unfold State.beginFormat; (try dsimp only); (repeat' split) <;> simp)

@[simp] theorem actFormat_frame (socket : Byte) (s : State) :
    (actFormat socket s).1.member = s.member ∧ (actFormat socket s).1.link = s.link ∧
    (actFormat socket s).1.clock = s.clock ∧ (actFormat socket s).1.sync = s.sync ∧
    (actFormat socket s).1.capture = s.capture ∧ (actFormat socket s).1.ring = s.ring ∧
    (actFormat socket s).1.dark = s.dark ∧ (actFormat socket s).1.develop = s.develop ∧
    (actFormat socket s).1.transfer = s.transfer ∧ (actFormat socket s).1.power = s.power ∧
    (actFormat socket s).1.pending = s.pending := by
  and_intros <;> (unfold actFormat; (try dsimp only); (repeat' split) <;> simp)

@[simp] theorem actEject_frame (socket : Byte) (s : State) :
    (actEject socket s).1.member = s.member ∧ (actEject socket s).1.link = s.link ∧
    (actEject socket s).1.clock = s.clock ∧ (actEject socket s).1.sync = s.sync ∧
    (actEject socket s).1.capture = s.capture ∧ (actEject socket s).1.ring = s.ring ∧
    (actEject socket s).1.dark = s.dark ∧ (actEject socket s).1.develop = s.develop ∧
    (actEject socket s).1.transfer = s.transfer ∧ (actEject socket s).1.power = s.power ∧
    (actEject socket s).1.pending = s.pending ∧ (actEject socket s).1.card.medium = s.card.medium := by
  and_intros <;> (unfold actEject; (try dsimp only); (repeat' split) <;> simp)

@[simp] theorem actStatus_frame (s : State) :
    (actStatus  s).1.member = s.member ∧ (actStatus  s).1.link = s.link ∧ (actStatus  s).1.clock = s.clock ∧
    (actStatus  s).1.sync = s.sync ∧ (actStatus  s).1.capture = s.capture ∧ (actStatus  s).1.ring = s.ring ∧
    (actStatus  s).1.dark = s.dark ∧ (actStatus  s).1.develop = s.develop ∧ (actStatus  s).1.transfer = s.transfer ∧
    (actStatus  s).1.card = s.card ∧ (actStatus  s).1.power = s.power ∧ (actStatus  s).1.pending = s.pending := by
  and_intros <;> (unfold actStatus; (try dsimp only); (repeat' split) <;> simp)

@[simp] theorem actDumpWake_frame (s : State) :
    (actDumpWake  s).1.member = s.member ∧ (actDumpWake  s).1.link = s.link ∧ (actDumpWake  s).1.clock = s.clock ∧
    (actDumpWake  s).1.sync = s.sync ∧ (actDumpWake  s).1.capture = s.capture ∧ (actDumpWake  s).1.ring = s.ring ∧
    (actDumpWake  s).1.dark = s.dark ∧ (actDumpWake  s).1.transfer = s.transfer ∧ (actDumpWake  s).1.card = s.card ∧
    (actDumpWake  s).1.notices = s.notices ∧ (actDumpWake  s).1.power = s.power ∧
    (actDumpWake  s).1.pending = s.pending := by
  and_intros <;> (unfold actDumpWake; (try dsimp only); (repeat' split) <;> simp)

@[simp] theorem actSleep_frame (s : State) :
    (actSleep  s).1.member = s.member ∧ (actSleep  s).1.link = s.link ∧ (actSleep  s).1.sync = s.sync ∧
    (actSleep  s).1.ring = s.ring ∧ (actSleep  s).1.dark = s.dark ∧ (actSleep  s).1.develop = s.develop ∧
    (actSleep  s).1.transfer = s.transfer ∧ (actSleep  s).1.card = s.card ∧ (actSleep  s).1.notices = s.notices ∧
    (actSleep  s).1.pending = s.pending ∧ (actSleep  s).1.clock.linkTime = s.clock.linkTime := by
  and_intros <;> (unfold actSleep; (try dsimp only); (repeat' split) <;> simp)

@[simp] theorem State.unreadable_frame (h : ReqHeader) (code : Byte) (s : State) :
    (State.unreadable h code s).sync = s.sync ∧ (State.unreadable h code s).dark = s.dark ∧
    (State.unreadable h code s).power = s.power ∧ (State.unreadable h code s).pending = s.pending ∧
    (State.unreadable h code s).clock.linkTime = s.clock.linkTime ∧
    (State.unreadable h code s).card.medium = s.card.medium ∧
    (State.unreadable h code s).member.straps = s.member.straps ∧
    (State.unreadable h code s).member.serial = s.member.serial ∧
    (State.unreadable h code s).member.settings = s.member.settings := by
  unfold State.unreadable
  and_intros
  · exact State.take_sync _ _ _ fun t => State.settle_sync _ _ _ _ _ (fun _ => rfl) rfl
  · exact State.take_dark _ _ _ fun t => State.settle_dark _ _ _ _ _ (fun _ => rfl) rfl
  · exact State.take_power _ _ _ fun t => State.settle_power _ _ _ _ _ (fun _ => rfl) rfl
  · exact State.take_pending _ _ _ fun t => State.settle_pending _ _ _ _ _ fun _ => rfl
  · exact State.take_linkTime _ _ _ fun t => State.settle_linkTime _ _ _ _ _ fun _ => rfl
  · exact State.take_medium _ _ _ fun t => State.settle_medium _ _ _ _ _ fun _ => rfl
  · exact State.take_straps _ _ _ fun t => State.settle_straps _ _ _ _ _ fun _ => rfl
  · exact State.take_serial _ _ _ fun t => State.settle_serial _ _ _ _ _ fun _ => rfl
  · exact State.take_settings _ _ _ fun t => State.settle_settings _ _ _ _ _ fun _ => rfl

@[simp] theorem Req.action_frame (toAll : Bool) (r : Req) (s : State) :
    (Req.action toAll r s).1.pending = s.pending ∧ (Req.action toAll r s).1.clock.linkTime = s.clock.linkTime ∧
    (Req.action toAll r s).1.ring.next = s.ring.next := by
  and_intros <;> (unfold Req.action; (try dsimp only); (repeat' split) <;> simp)

@[simp] theorem State.takeRequest_frame (source : Node) (toAll : Bool) (tag code : Byte) (args : List Byte) (s : State) :
    (State.takeRequest source toAll tag code args s).pending = s.pending ∧
    (State.takeRequest source toAll tag code args s).clock.linkTime = s.clock.linkTime := by
  and_intros <;> (unfold State.takeRequest; (try dsimp only); (repeat' split) <;> simp)

@[simp] theorem State.rollIn_frame (r : RollFields) (s : State) :
    (State.rollIn r s).link = s.link ∧ (State.rollIn r s).sync = s.sync ∧ (State.rollIn r s).capture = s.capture ∧
    (State.rollIn r s).ring = s.ring ∧ (State.rollIn r s).dark = s.dark ∧ (State.rollIn r s).develop = s.develop ∧
    (State.rollIn r s).transfer = s.transfer ∧ (State.rollIn r s).card = s.card ∧
    (State.rollIn r s).notices = s.notices ∧ (State.rollIn r s).power = s.power ∧
    (State.rollIn r s).pending = s.pending ∧ (State.rollIn r s).clock.linkTime = s.clock.linkTime ∧
    (State.rollIn r s).member.straps = s.member.straps ∧ (State.rollIn r s).member.serial = s.member.serial ∧
    (State.rollIn r s).member.settings = s.member.settings := by
  and_intros <;> (unfold State.rollIn; (try dsimp only); (repeat' split) <;> simp)

@[simp] theorem State.rollHeard_frame (r : RollFields) (s : State) :
    (State.rollHeard r s).member = s.member ∧ (State.rollHeard r s).clock = s.clock ∧
    (State.rollHeard r s).sync = s.sync ∧ (State.rollHeard r s).capture = s.capture ∧
    (State.rollHeard r s).ring = s.ring ∧ (State.rollHeard r s).dark = s.dark ∧
    (State.rollHeard r s).develop = s.develop ∧ (State.rollHeard r s).transfer = s.transfer ∧
    (State.rollHeard r s).card = s.card ∧ (State.rollHeard r s).power = s.power ∧
    (State.rollHeard r s).pending = s.pending := by
  and_intros <;> (unfold State.rollHeard; (try dsimp only); (repeat' split) <;> simp)

@[simp] theorem State.meetRoll_frame (r : RollFields) (s : State) :
    (State.meetRoll r s).sync = s.sync ∧ (State.meetRoll r s).capture = s.capture ∧
    (State.meetRoll r s).ring = s.ring ∧ (State.meetRoll r s).dark = s.dark ∧
    (State.meetRoll r s).develop = s.develop ∧ (State.meetRoll r s).transfer = s.transfer ∧
    (State.meetRoll r s).card = s.card ∧ (State.meetRoll r s).power = s.power ∧
    (State.meetRoll r s).pending = s.pending ∧ (State.meetRoll r s).clock.linkTime = s.clock.linkTime ∧
    (State.meetRoll r s).member.straps = s.member.straps ∧ (State.meetRoll r s).member.serial = s.member.serial ∧
    (State.meetRoll r s).member.settings = s.member.settings := by
  and_intros <;> (unfold State.meetRoll; (try dsimp only); (repeat' split) <;> simp)

@[simp] theorem State.takeRoll_frame (r : RollFields) (s : State) :
    (State.takeRoll r s).sync = s.sync ∧ (State.takeRoll r s).dark = s.dark ∧ (State.takeRoll r s).power = s.power ∧
    (State.takeRoll r s).pending = s.pending ∧ (State.takeRoll r s).clock.linkTime = s.clock.linkTime ∧
    (State.takeRoll r s).card.medium = s.card.medium ∧ (State.takeRoll r s).member.straps = s.member.straps ∧
    (State.takeRoll r s).member.serial = s.member.serial ∧ (State.takeRoll r s).member.settings = s.member.settings := by
  and_intros <;> (unfold State.takeRoll; (try dsimp only); (repeat' split) <;> simp)

@[simp] theorem State.developRestart_frame (s : State) :
    (State.developRestart s).member = s.member ∧ (State.developRestart s).link = s.link ∧
    (State.developRestart s).sync = s.sync ∧ (State.developRestart s).capture = s.capture ∧
    (State.developRestart s).dark = s.dark ∧ (State.developRestart s).transfer = s.transfer ∧
    (State.developRestart s).card = s.card ∧ (State.developRestart s).notices = s.notices ∧
    (State.developRestart s).power = s.power ∧ (State.developRestart s).pending = s.pending ∧
    (State.developRestart s).clock.linkTime = s.clock.linkTime ∧ (State.developRestart s).ring.next = s.ring.next := by
  and_intros <;> (unfold State.developRestart; (try dsimp only); (repeat' split) <;> simp)

@[simp] theorem State.refillOwed_frame (s : State) :
    (State.refillOwed s).member = s.member ∧ (State.refillOwed s).link = s.link ∧
    (State.refillOwed s).clock = s.clock ∧ (State.refillOwed s).sync = s.sync ∧
    (State.refillOwed s).capture = s.capture ∧ (State.refillOwed s).ring = s.ring ∧
    (State.refillOwed s).dark = s.dark ∧ (State.refillOwed s).transfer = s.transfer ∧
    (State.refillOwed s).card = s.card ∧ (State.refillOwed s).notices = s.notices ∧
    (State.refillOwed s).power = s.power ∧ (State.refillOwed s).pending = s.pending := by
  and_intros <;> (unfold State.refillOwed; (try dsimp only); (repeat' split) <;> simp)

@[simp] theorem State.captureRestart_frame (reconfigure : Bool) (s : State) :
    (State.captureRestart reconfigure s).member = s.member ∧ (State.captureRestart reconfigure s).link = s.link ∧
    (State.captureRestart reconfigure s).sync = s.sync ∧ (State.captureRestart reconfigure s).transfer = s.transfer ∧
    (State.captureRestart reconfigure s).card = s.card ∧ (State.captureRestart reconfigure s).notices = s.notices ∧
    (State.captureRestart reconfigure s).power = s.power ∧ (State.captureRestart reconfigure s).pending = s.pending ∧
    (State.captureRestart reconfigure s).clock.linkTime = s.clock.linkTime ∧
    (State.captureRestart reconfigure s).ring.next = s.ring.next := by
  and_intros <;> (unfold State.captureRestart; (try dsimp only); (repeat' split) <;> simp)

@[simp] theorem State.redoFilling_frame (s : State) :
    (State.redoFilling s).member = s.member ∧ (State.redoFilling s).clock = s.clock ∧
    (State.redoFilling s).sync = s.sync ∧ (State.redoFilling s).capture = s.capture ∧
    (State.redoFilling s).ring = s.ring ∧ (State.redoFilling s).dark = s.dark ∧
    (State.redoFilling s).develop = s.develop ∧ (State.redoFilling s).transfer = s.transfer ∧
    (State.redoFilling s).card = s.card ∧ (State.redoFilling s).notices = s.notices ∧
    (State.redoFilling s).power = s.power ∧ (State.redoFilling s).pending = s.pending := by
  and_intros <;> (unfold State.redoFilling; (try dsimp only); (repeat' split) <;> simp)

@[simp] theorem State.ringRestart_frame (s : State) :
    (State.ringRestart s).member = s.member ∧ (State.ringRestart s).sync = s.sync ∧
    (State.ringRestart s).capture = s.capture ∧ (State.ringRestart s).dark = s.dark ∧
    (State.ringRestart s).power = s.power ∧ (State.ringRestart s).pending = s.pending ∧
    (State.ringRestart s).clock.linkTime = s.clock.linkTime ∧ (State.ringRestart s).card.medium = s.card.medium ∧
    (State.ringRestart s).ring.next = s.ring.next := by
  and_intros <;> (unfold State.ringRestart; (try dsimp only); (repeat' split) <;> simp)

@[simp] theorem State.restart_frame (toAll reconfigure : Bool) (s : State) :
    (State.restart toAll reconfigure s).sync = s.sync ∧ (State.restart toAll reconfigure s).pending = s.pending ∧
    (State.restart toAll reconfigure s).clock.linkTime = s.clock.linkTime ∧
    (State.restart toAll reconfigure s).card.medium = s.card.medium ∧
    (State.restart toAll reconfigure s).ring.next = s.ring.next ∧
    (State.restart toAll reconfigure s).member.straps = s.member.straps ∧
    (State.restart toAll reconfigure s).member.serial = s.member.serial := by
  and_intros <;> (unfold State.restart; (try dsimp only); (repeat' split) <;> simp)

@[simp] theorem TimerId.handle_frame (id : TimerId) (s : State) :
    (id.handle s).power = s.power ∧
    (id.handle s).pending = s.pending ∧
    (id.handle s).clock.linkTime = s.clock.linkTime ∧
    (id.handle s).card.medium = s.card.medium ∧
    (id.handle s).member.straps = s.member.straps ∧
    (id.handle s).member.serial = s.member.serial ∧
    (id.handle s).member.settings = s.member.settings := by
  and_intros <;> cases id <;> simp [TimerId.handle]

@[simp] theorem State.expire_frame (id : TimerId) (s : State) :
    (State.expire id s).power = s.power ∧
    (State.expire id s).pending = s.pending ∧
    (State.expire id s).clock.linkTime = s.clock.linkTime ∧
    (State.expire id s).card.medium = s.card.medium ∧
    (State.expire id s).member.straps = s.member.straps ∧
    (State.expire id s).member.serial = s.member.serial ∧
    (State.expire id s).member.settings = s.member.settings := by
  and_intros <;> (unfold State.expire State.onExpiry; split <;> simp)

@[simp] theorem State.expiriesFirst_frame (s : State) :
    (State.expiriesFirst s).power = s.power ∧
    (State.expiriesFirst s).pending = s.pending ∧
    (State.expiriesFirst s).clock.linkTime = s.clock.linkTime ∧
    (State.expiriesFirst s).card.medium = s.card.medium ∧
    (State.expiriesFirst s).member.straps = s.member.straps ∧
    (State.expiriesFirst s).member.serial = s.member.serial ∧
    (State.expiriesFirst s).member.settings = s.member.settings := by
  and_intros <;> (unfold State.expiriesFirst; split <;> simp)

@[simp] theorem State.takeRestart_frame (toAll reconfigure : Bool) (s : State) :
    (State.takeRestart toAll reconfigure s).pending = s.pending ∧
    (State.takeRestart toAll reconfigure s).clock.linkTime = s.clock.linkTime ∧
    (State.takeRestart toAll reconfigure s).card.medium = s.card.medium ∧
    (State.takeRestart toAll reconfigure s).member.straps = s.member.straps ∧
    (State.takeRestart toAll reconfigure s).member.serial = s.member.serial := by
  and_intros <;> (unfold State.takeRestart; (try dsimp only); (repeat' split) <;> simp)

@[simp] theorem State.start_frame (straps : Straps) (serial : Word32) (linkBusy : Bool) (s : State) :
    (State.start straps serial linkBusy s).pending = s.pending := by
  (unfold State.start; (try dsimp only); (repeat' split) <;> simp)

@[simp] theorem State.takeClaim_frame (source : Node) (socket : Byte) (n : Shot) (count : Byte) (s : State) :
    (State.takeClaim source socket n count s).sync = s.sync ∧
    (State.takeClaim source socket n count s).dark = s.dark ∧
    (State.takeClaim source socket n count s).power = s.power ∧
    (State.takeClaim source socket n count s).pending = s.pending ∧
    (State.takeClaim source socket n count s).clock.linkTime = s.clock.linkTime ∧
    (State.takeClaim source socket n count s).card.medium = s.card.medium ∧
    (State.takeClaim source socket n count s).member.straps = s.member.straps ∧
    (State.takeClaim source socket n count s).member.serial = s.member.serial ∧
    (State.takeClaim source socket n count s).member.settings = s.member.settings := by
  and_intros <;> (unfold State.takeClaim; simp)

@[simp] theorem State.takeSegment_frame (source : Node) (b : SegmentBody) (s : State) :
    (State.takeSegment source b s).pending = s.pending ∧
    (State.takeSegment source b s).clock.linkTime = s.clock.linkTime ∧
    (State.takeSegment source b s).member.straps = s.member.straps ∧
    (State.takeSegment source b s).member.serial = s.member.serial ∧
    (State.takeSegment source b s).member.settings = s.member.settings := by
  and_intros <;> (unfold State.takeSegment; simp)

@[simp] theorem State.deliverMsg_frame (source : Node) (toAll : Bool) (frameStart : Time) (msg : Msg) (s : State) :
    (State.deliverMsg source toAll frameStart msg s).pending = s.pending := by
  (unfold State.deliverMsg; (try dsimp only); (repeat' split) <;> simp)

@[simp] theorem State.deliverUnlisted_frame (kind : Byte) (s : State) :
    (State.deliverUnlisted kind s).sync = s.sync ∧ (State.deliverUnlisted kind s).dark = s.dark ∧
    (State.deliverUnlisted kind s).power = s.power ∧ (State.deliverUnlisted kind s).pending = s.pending ∧
    (State.deliverUnlisted kind s).clock.linkTime = s.clock.linkTime ∧
    (State.deliverUnlisted kind s).card.medium = s.card.medium ∧
    (State.deliverUnlisted kind s).member.straps = s.member.straps ∧
    (State.deliverUnlisted kind s).member.serial = s.member.serial ∧
    (State.deliverUnlisted kind s).member.settings = s.member.settings := by
  and_intros <;> (unfold State.deliverUnlisted; (try dsimp only); (repeat' split) <;> simp)

@[simp] theorem State.deliver_frame (f : WireFrame) (frameStart : Time) (s : State) :
    (State.deliver f frameStart s).pending = s.pending := by
  (unfold State.deliver; (try dsimp only); (repeat' split) <;> simp)

@[simp] theorem State.prepareOffer_frame (s : State) :
    (State.prepareOffer s).member = s.member ∧ (State.prepareOffer s).clock = s.clock ∧
    (State.prepareOffer s).sync = s.sync ∧ (State.prepareOffer s).capture = s.capture ∧
    (State.prepareOffer s).ring = s.ring ∧ (State.prepareOffer s).dark = s.dark ∧
    (State.prepareOffer s).develop = s.develop ∧ (State.prepareOffer s).transfer = s.transfer ∧
    (State.prepareOffer s).card = s.card ∧ (State.prepareOffer s).notices = s.notices ∧
    (State.prepareOffer s).power = s.power ∧ (State.prepareOffer s).pending = s.pending := by
  and_intros <;> (unfold State.prepareOffer; (try dsimp only); (repeat' split) <;> simp)

@[simp] theorem State.hear_frame (s : State) :
    (State.hear s).member = s.member ∧ (State.hear s).clock = s.clock ∧ (State.hear s).sync = s.sync ∧
    (State.hear s).capture = s.capture ∧ (State.hear s).ring = s.ring ∧ (State.hear s).dark = s.dark ∧
    (State.hear s).develop = s.develop ∧ (State.hear s).transfer = s.transfer ∧ (State.hear s).card = s.card ∧
    (State.hear s).notices = s.notices ∧ (State.hear s).power = s.power ∧ (State.hear s).pending = s.pending := by
  and_intros <;> (unfold State.hear; (try dsimp only); (repeat' split) <;> simp)

@[simp] theorem State.send_frame (src : SendSource) (s : State) :
    (State.send src s).member = s.member ∧ (State.send src s).clock = s.clock ∧ (State.send src s).sync = s.sync ∧
    (State.send src s).capture = s.capture ∧ (State.send src s).ring = s.ring ∧ (State.send src s).dark = s.dark ∧
    (State.send src s).develop = s.develop ∧ (State.send src s).transfer = s.transfer ∧
    (State.send src s).card = s.card ∧ (State.send src s).notices = s.notices ∧ (State.send src s).power = s.power ∧
    (State.send src s).pending = s.pending := by
  and_intros <;> (unfold State.send; (try dsimp only); (repeat' split) <;> simp)

@[simp] theorem State.rivalBegins_frame (s : State) :
    (State.rivalBegins s).member = s.member ∧ (State.rivalBegins s).clock = s.clock ∧
    (State.rivalBegins s).sync = s.sync ∧ (State.rivalBegins s).capture = s.capture ∧
    (State.rivalBegins s).ring = s.ring ∧ (State.rivalBegins s).dark = s.dark ∧
    (State.rivalBegins s).develop = s.develop ∧ (State.rivalBegins s).transfer = s.transfer ∧
    (State.rivalBegins s).card = s.card ∧ (State.rivalBegins s).notices = s.notices ∧
    (State.rivalBegins s).power = s.power ∧ (State.rivalBegins s).pending = s.pending := by
  and_intros <;> (unfold State.rivalBegins; (try dsimp only); (repeat' split) <;> simp)

@[simp] theorem State.offerAgainst_frame (rival : Option WireFrame) (s : State) :
    (State.offerAgainst rival s).member = s.member ∧ (State.offerAgainst rival s).clock = s.clock ∧
    (State.offerAgainst rival s).sync = s.sync ∧ (State.offerAgainst rival s).capture = s.capture ∧
    (State.offerAgainst rival s).ring = s.ring ∧ (State.offerAgainst rival s).dark = s.dark ∧
    (State.offerAgainst rival s).develop = s.develop ∧ (State.offerAgainst rival s).transfer = s.transfer ∧
    (State.offerAgainst rival s).card = s.card ∧ (State.offerAgainst rival s).notices = s.notices ∧
    (State.offerAgainst rival s).power = s.power ∧ (State.offerAgainst rival s).pending = s.pending := by
  and_intros <;> (unfold State.offerAgainst; (try dsimp only); (repeat' split) <;> simp)

@[simp] theorem State.frameSent_frame (s : State) :
    (State.frameSent s).member = s.member ∧ (State.frameSent s).clock = s.clock ∧ (State.frameSent s).sync = s.sync ∧
    (State.frameSent s).capture = s.capture ∧ (State.frameSent s).dark = s.dark ∧ (State.frameSent s).card = s.card ∧
    (State.frameSent s).notices = s.notices ∧ (State.frameSent s).power = s.power ∧
    (State.frameSent s).pending = s.pending ∧ (State.frameSent s).ring.next = s.ring.next := by
  and_intros <;> (unfold State.frameSent; (try dsimp only); (repeat' split) <;> simp)

@[simp] theorem State.judgeFrame_frame (f : WireFrame) (otherSpoils : Bool) (s : State) :
    (State.judgeFrame f otherSpoils s).pending = s.pending := by
  (unfold State.judgeFrame; (try dsimp only); (repeat' split) <;> simp)

@[simp] theorem State.endFrame_frame (f : WireFrame) (otherSpoils : Bool) (s : State) :
    (State.endFrame f otherSpoils s).pending = s.pending := by
  (unfold State.endFrame; (try dsimp only); (repeat' split) <;> simp)

@[simp] theorem State.endFrameAsleep_frame (f : WireFrame) (otherSpoils : Bool) (s : State) :
    (State.endFrameAsleep f otherSpoils s).pending = s.pending := by
  (unfold State.endFrameAsleep; (try dsimp only); (repeat' split) <;> simp)

@[simp] theorem State.giveNotice_frame (s : State) :
    (State.giveNotice s).member = s.member ∧ (State.giveNotice s).clock = s.clock ∧
    (State.giveNotice s).sync = s.sync ∧ (State.giveNotice s).capture = s.capture ∧
    (State.giveNotice s).ring = s.ring ∧ (State.giveNotice s).dark = s.dark ∧
    (State.giveNotice s).develop = s.develop ∧ (State.giveNotice s).transfer = s.transfer ∧
    (State.giveNotice s).card = s.card ∧ (State.giveNotice s).power = s.power ∧
    (State.giveNotice s).pending = s.pending := by
  and_intros <;> (unfold State.giveNotice; (try dsimp only); (repeat' split) <;> simp)

@[simp] theorem State.tick_frame (s : State) :
    (State.tick s).member = s.member ∧ (State.tick s).link = s.link ∧ (State.tick s).sync = s.sync ∧
    (State.tick s).ring = s.ring ∧ (State.tick s).dark = s.dark ∧ (State.tick s).develop = s.develop ∧
    (State.tick s).transfer = s.transfer ∧ (State.tick s).card = s.card ∧ (State.tick s).notices = s.notices ∧
    (State.tick s).power = s.power ∧ (State.tick s).pending = s.pending := by
  and_intros <;> (unfold State.tick; (try dsimp only); (repeat' split) <;> simp)

end Sys2Proof.Machine
end

