-- ==== Sys2Proof/Laws/Expiries.lean ====
section
/-! SUPPORT. Expiries (R44): what delivering one does, and what an event finds once those that are due are delivered. -/

namespace Sys2Proof.Machine

/-- Where no expiry of a timer is due, none is delivered. -/
theorem State.expire_not_due (id : TimerId) (s : State) (h : (s.timer id).due = false) : s.expire id = s :=
  State.expiry_not_due id id.handle s h

/-- An expiry that is due is handled by its owner, and is on its way no longer. -/
theorem State.expire_due (id : TimerId) (s : State) (h : (s.timer id).due = true) :
    s.expire id = id.handle (s.onTimer id Timer.delivered) := by
  simp [State.expire, State.onExpiry, h]

/-- With no expiry due, nothing comes before an event. -/
theorem State.expiriesFirst_calm (s : State) (h : ∀ id ∈ TimerId.all, (s.timer id).due = false) : s.expiriesFirst = s := by
  have hf : ∀ l : List TimerId, (∀ id ∈ l, (s.timer id).due = false) → l.foldl (fun t id => t.expire id) s = s := by
    intro l
    induction l with
    | nil => intro _; rfl
    | cons x xs ih =>
      intro hl
      rw [List.foldl_cons, State.expire_not_due x s (hl x List.mem_cons_self)]
      exact ih fun id hi => hl id (List.mem_cons_of_mem x hi)
  simp [State.expiriesFirst, hf _ h]

/-- In Sleep no expiry is delivered (R47). -/
theorem State.expiriesFirst_asleep (s : State) (h : s.power.state = .sleep) : s.expiriesFirst = s := by
  simp [State.expiriesFirst, h]

/-- With no expiry due, an event is handled as the station stands. -/
theorem State.event_calm (handle : State → State) (s : State) (h : ∀ id ∈ TimerId.all, (s.timer id).due = false) :
    s.event handle = .next (handle s) := by
  simp [State.event, State.expiriesFirst_calm s h]

/-- In Sleep an event is handled as the station stands. -/
theorem State.event_asleep (handle : State → State) (s : State) (h : s.power.state = .sleep) :
    s.event handle = .next (handle s) := by
  simp [State.event, State.expiriesFirst_asleep s h]

/-- Where delivering what is due leaves nothing due, an event finds the station as it then stands. -/
theorem State.event_expiries (handle : State → State) (s : State)
    (h : ∀ id ∈ TimerId.all, (s.expiriesFirst.timer id).due = false) :
    s.event handle = s.expiriesFirst.event handle := by
  rw [State.event_calm handle s.expiriesFirst h, State.event]

/-- Each timer is in the table of R46. -/
theorem TimerId.mem_all (id : TimerId) : id ∈ TimerId.all := by cases id <;> simp [TimerId.all]

end Sys2Proof.Machine
end

