-- ==== Sys2Proof/Laws/Formats.lean ====
section
/-! SUPPORT. Numbers as big-endian bytes: their length, and reading them back (R190). -/

namespace Sys2Proof

/-- A number is laid out in as many bytes as its field has. -/
@[simp] theorem beBytes_length (n v : Nat) : (beBytes n v).length = n := by
  induction n with
  | zero => rfl
  | succ n ih => simp [beBytes, ih]

/-- The bytes of a field depend on the number up to the field's width alone. -/
theorem beBytes_mod (n k v : Nat) (h : n ≤ k) : beBytes n (v % 256 ^ k) = beBytes n v := by
  induction n with
  | zero => rfl
  | succ n ih =>
    simp only [beBytes]
    rw [ih (by omega)]
    congr 1
    apply BitVec.eq_of_toNat_eq
    simp only [BitVec.toNat_ofNat]
    have : k = n + (k - n - 1) + 1 := by omega
    rw [this, show n + (k - n - 1) + 1 = n + (k - n) by omega, Nat.pow_add, Nat.mod_mul_right_div_self]
    exact Nat.mod_mod_of_dvd _ ⟨256 ^ (k - n - 1), by rw [Nat.mul_comm, ← Nat.pow_succ]; congr 1; omega⟩

/-- Reading bytes goes on from what has been read. -/
theorem fromBE_foldl (acc : Nat) (bytes : List Byte) :
    bytes.foldl (fun a b => a * 256 + b.toNat) acc = acc * 256 ^ bytes.length + fromBE bytes := by
  induction bytes generalizing acc with
  | nil => simp [fromBE]
  | cons b bs ih =>
    simp only [List.foldl_cons, List.length_cons, fromBE]
    rw [ih, ih (0 * 256 + b.toNat), Nat.pow_succ, Nat.add_mul, Nat.zero_mul, Nat.zero_add, Nat.mul_assoc, Nat.mul_comm 256,
      Nat.add_assoc]

/-- A number laid out in a field reads back, up to the field's width. -/
@[simp] theorem fromBE_beBytes (n v : Nat) : fromBE (beBytes n v) = v % 256 ^ n := by
  induction n with
  | zero => simp [beBytes, fromBE, Nat.mod_one]
  | succ n ih =>
    have h := fromBE_foldl (v / 256 ^ n % 256) (beBytes n v)
    simp only [beBytes_length] at h
    simp only [beBytes, fromBE, List.foldl_cons, BitVec.toNat_ofNat, Nat.zero_mul, Nat.zero_add]
    rw [show (2 : Nat) ^ 8 = 256 from rfl, h, ih, Nat.pow_succ, Nat.mul_comm (256 ^ n) 256, Nat.mul_comm (v / 256 ^ n % 256)]
    rw [Nat.mul_comm 256 (256 ^ n), Nat.mod_mul, Nat.add_comm]

/-- A field of a body that stands after `pre`. -/
theorem field_append (pre mid post : List Byte) (off n : Nat) (hp : pre.length = off) (hm : mid.length = n) :
    field (pre ++ mid ++ post) off n = fromBE mid := by
  subst hp hm
  simp [field]

end Sys2Proof
end

