-- ==== Sys2Proof/Laws/Link.lean ====
section
/-! SUPPORT. What queueing a frame does to the queues (R12, R13, R22). -/

namespace Sys2Proof.Machine

/-- Giving a frame never fills a queue beyond its capacity. -/
theorem Link.give_bounds (f : Frame) {l : Link} (hu : l.urgent.length ≤ 8) (hc : l.control.length ≤ 32) :
    (l.give f).urgent.length ≤ 8 ∧ (l.give f).control.length ≤ 32 := by
  unfold Link.give
  split <;> split
  · rename_i h
    have hl : l.urgent.length < 8 := of_decide_eq_true (Bool.and_eq_true_iff.mp h).2
    exact ⟨by simp; omega, hc⟩
  · exact ⟨hu, hc⟩
  · rename_i h
    have hl : l.control.length < 32 := of_decide_eq_true (Bool.and_eq_true_iff.mp h).2
    exact ⟨hu, by simp; omega⟩
  · exact ⟨hu, hc⟩

/-- A produced frame never fills a queue beyond its capacity. -/
theorem Membership.place_bounds (m : Membership) (f : Frame) {l : Link} (hu : l.urgent.length ≤ 8) (hc : l.control.length ≤ 32) :
    (m.place f l).urgent.length ≤ 8 ∧ (m.place f l).control.length ≤ 32 := by
  have hg := Link.give_bounds f hu hc
  unfold Membership.place
  split
  · exact ⟨hu, hc⟩
  · split <;> first | exact hg | (split <;> first | exact hg | exact ⟨hu, hc⟩)

/-- A produced frame leaves the rest of the link as it was. -/
theorem Membership.place_frame (m : Membership) (f : Frame) (l : Link) :
    (m.place f l).bulk = l.bulk ∧ (m.place f l).detached = l.detached ∧ (m.place f l).spoiled = l.spoiled ∧
      (m.place f l).retries = l.retries ∧ (m.place f l).malformed = l.malformed ∧ (m.place f l).phase = l.phase ∧
      (m.place f l).frameStart = l.frameStart := by
  unfold Membership.place Link.give
  repeat' split
  all_goals exact ⟨rfl, rfl, rfl, rfl, rfl, rfl, rfl⟩

/-- With room and nothing held, a Control frame in Configuring or Ready joins the tail of the control queue. -/
theorem Membership.place_control {m : Membership} {f : Frame} {l : Link} (hn : m.straps.number ≠ 6#3 ∧ m.straps.number ≠ 7#3)
    (hm : m.state = .configuring ∨ m.state = .ready) (hq : f.msg.queue = .control) (hh : l.controlHeld = [])
    (hl : l.control.length < 32) : m.place f l = { l with control := l.control ++ [{ frame := f, spoils := 0 }] } := by
  rcases hm with hm | hm <;>
    simp [Membership.place, Link.give, hn.1, hn.2, hm, hq, hh, Config.controlCapacity, hl]

end Sys2Proof.Machine
end

