-- ==== Sys2Proof/Laws/Memory.lean ====
section
/-! SUPPORT. Addressed memory: every operation keeps the canonical form, and a byte that was written reads back. -/

namespace Sys2Proof

/-- A canonical list that starts higher is canonical from any lower address. -/
theorem Memory.wfFrom_mono {m : Memory} {low high : Nat} (h : low ≤ high) (hw : Memory.wfFrom high m = true) :
    Memory.wfFrom low m = true := by
  cases m with
  | nil => rfl
  | cons c rest =>
    simp only [Memory.wfFrom, Bool.and_eq_true, decide_eq_true_eq] at hw ⊢
    exact ⟨⟨by omega, hw.1.2⟩, hw.2⟩

/-- An address below a canonical list is unlisted. -/
theorem Memory.read_below {m : Memory} {low a : Nat} (hw : Memory.wfFrom low m = true) (ha : a < low) :
    m.read a = Config.blankByte := by
  induction m generalizing low with
  | nil => rfl
  | cons c rest ih =>
    simp only [Memory.wfFrom, Bool.and_eq_true, decide_eq_true_eq] at hw
    simp only [Memory.read, show a ≠ c.1 by omega, if_false]
    exact ih hw.2 (by omega)

/-- A write keeps the canonical form. -/
theorem Memory.write_wfFrom {m : Memory} {low a : Nat} (v : Byte) (hw : Memory.wfFrom low m = true) (ha : low ≤ a) :
    Memory.wfFrom low (m.write a v) = true := by
  induction m generalizing low with
  | nil =>
    unfold Memory.write
    split
    · rfl
    · simp_all [Memory.wfFrom]
  | cons c rest ih =>
    simp only [Memory.wfFrom, Bool.and_eq_true, decide_eq_true_eq, bne_iff_ne] at hw
    unfold Memory.write
    split
    · split
      · simp [Memory.wfFrom, hw]
      · simp [Memory.wfFrom, *]
    · split
      · split
        · exact Memory.wfFrom_mono (by omega) hw.2
        · subst_vars
          simp [Memory.wfFrom, *]
      · have := ih hw.2 (by omega)
        simp [Memory.wfFrom, hw, this]

/-- A write keeps the canonical form. -/
theorem Memory.write_wf {m : Memory} (a : Nat) (v : Byte) (hw : m.wf = true) : (m.write a v).wf = true :=
  Memory.write_wfFrom v hw (Nat.zero_le a)

/-- A write of bytes keeps the canonical form. -/
theorem Memory.writeBytes_wf {m : Memory} (a : Nat) (bytes : List Byte) (hw : m.wf = true) : (m.writeBytes a bytes).wf = true := by
  induction bytes generalizing m a with
  | nil => exact hw
  | cons v vs ih => exact ih (a + 1) (Memory.write_wf a v hw)

/-- Dropping entries keeps the canonical form. -/
theorem Memory.filter_wfFrom {m : Memory} {low : Nat} (p : Nat × BitVec 8 → Bool) (hw : Memory.wfFrom low m = true) :
    Memory.wfFrom low (m.filter p) = true := by
  induction m generalizing low with
  | nil => rfl
  | cons c rest ih =>
    simp only [Memory.wfFrom, Bool.and_eq_true, decide_eq_true_eq] at hw
    simp only [List.filter]
    split
    · simp only [Memory.wfFrom, Bool.and_eq_true, decide_eq_true_eq]
      exact ⟨hw.1, ih hw.2⟩
    · exact Memory.wfFrom_mono (by omega) (ih hw.2)

/-- Clearing a range keeps the canonical form. -/
theorem Memory.clear_wf {m : Memory} (a n : Nat) (hw : m.wf = true) : (m.clear a n).wf = true :=
  Memory.filter_wfFrom _ hw

/-- What a byte reads as after a write. -/
theorem Memory.read_write {m : Memory} {low : Nat} (a b : Nat) (v : Byte) (hw : Memory.wfFrom low m = true) :
    (m.write a v).read b = if b = a then v else m.read b := by
  induction m generalizing low with
  | nil =>
    unfold Memory.write
    split
    · split <;> simp_all [Memory.read]
    · simp [Memory.read]
  | cons c rest ih =>
    simp only [Memory.wfFrom, Bool.and_eq_true, decide_eq_true_eq] at hw
    unfold Memory.write
    split
    · rename_i hlt
      have hr : Memory.read rest a = Config.blankByte := Memory.read_below hw.2 (by omega)
      split
      · subst_vars
        split
        · subst_vars
          simp [Memory.read, show ¬(b = c.1) by omega, hr]
        · rfl
      · simp [Memory.read]
    · split
      · subst_vars
        have hr : Memory.read rest c.1 = Config.blankByte := Memory.read_below hw.2 (by omega)
        split
        · subst_vars
          split
          · subst_vars
            simp [hr]
          · simp [Memory.read, *]
        · simp only [Memory.read]
          split <;> rfl
      · rename_i h1 h2
        simp only [Memory.read, ih hw.2]
        by_cases hb : b = c.1
        · simp [hb, show ¬(c.1 = a) by omega]
        · simp [hb]

/-- What a byte reads as after a write of bytes. -/
theorem Memory.read_writeBytes {m : Memory} (a b : Nat) (bytes : List Byte) (hw : m.wf = true) :
    (m.writeBytes a bytes).read b = if a ≤ b ∧ b < a + bytes.length then bytes.getD (b - a) 0#8 else m.read b := by
  induction bytes generalizing m a with
  | nil => simp [Memory.writeBytes, show ¬(a ≤ b ∧ b < a) by omega]
  | cons v vs ih =>
    simp only [Memory.writeBytes]
    rw [ih (a + 1) (Memory.write_wf a v hw), Memory.read_write a b v hw]
    by_cases h : b = a
    · subst h
      simp
    · by_cases h2 : a ≤ b ∧ b < a + (v :: vs).length
      · have h3 : a + 1 ≤ b ∧ b < a + 1 + vs.length := by simp at h2; omega
        rw [if_pos h3, if_pos h2]
        obtain ⟨k, rfl⟩ : ∃ k, b = a + 1 + k := ⟨b - (a + 1), by omega⟩
        simp [show a + 1 + k - (a + 1) = k by omega, show a + 1 + k - a = k + 1 by omega]
      · have h3 : ¬(a + 1 ≤ b ∧ b < a + 1 + vs.length) := by simp at h2; omega
        rw [if_neg h3, if_neg h2, if_neg h]

/-- What a byte reads as after a range has been cleared. -/
theorem Memory.read_clear {m : Memory} (a n b : Nat) :
    (m.clear a n).read b = if a ≤ b ∧ b < a + n then Config.blankByte else m.read b := by
  induction m with
  | nil => simp [Memory.clear, Memory.read]
  | cons c rest ih =>
    simp only [Memory.clear, List.filter] at ih ⊢
    split
    · rename_i h
      simp only [Bool.or_eq_true, decide_eq_true_eq] at h
      simp only [Memory.read, ih]
      by_cases hb : b = c.1
      · simp [hb, show ¬(a ≤ c.1 ∧ c.1 < a + n) by omega]
      · simp [hb]
    · rename_i h
      simp only [Bool.or_eq_false_iff, decide_eq_false_iff_not] at h
      rw [ih]
      by_cases hb : b = c.1
      · simp [hb, show a ≤ c.1 ∧ c.1 < a + n by omega]
      · simp [Memory.read, hb]

namespace Machine

/-- The bytes of the card in the socket are in canonical form. -/
def Card.canonical (c : Card) : Prop := ∀ m, c.medium = some m → m.bytes.wf = true

/-- A write that reaches the card keeps its bytes canonical. -/
theorem Card.perform_canonical (w : Write) {c : Card} (h : c.canonical) : (Card.perform w c).canonical := by
  intro m hm
  simp only [Card.perform, Option.map_eq_some_iff] at hm
  obtain ⟨n, hn, rfl⟩ := hm
  exact Memory.writeBytes_wf _ _ (h n hn)

/-- The beginning of a format keeps the card's bytes canonical. -/
theorem State.beginFormat_canonical {s : State} (h : s.card.canonical) : s.beginFormat.card.canonical := by
  unfold State.beginFormat
  split
  · exact h
  · rename_i m hm
    intro n hn
    simp only [State.changeCard, State.raiseCardState, State.raise, State.onNotices, State.onCard, Option.some.injEq] at hn
    subst hn
    simp only []
    generalize labelBytes 0 (formatIdentity s.clock.linkTime) (formatBlocks m) = label
    exact Memory.writeBytes_wf 0 label (h m hm)

/-- The bytes that a finished format leaves are canonical. -/
theorem formatBytes_wf (identity : Word32) (blocks : Nat) {m : Memory} (h : m.wf = true) :
    (formatBytes identity blocks m).wf = true := by
  unfold formatBytes
  generalize labelBytes labelMagic identity blocks = label
  have hc := Memory.clear_wf (blockAddress 1) (64 * Config.blockBytes) h
  generalize Memory.clear m (blockAddress 1) (64 * Config.blockBytes) = n at hc ⊢
  exact Memory.writeBytes_wf 0 label hc

end Machine

end Sys2Proof
end

