-- ==== Sys2Proof/Laws/PerInstr.lean ====
section
/-! SUPPORT. A statement about every command as syntax, one lemma for each: a well-formed command that takes a frame names a
source other than node 6, whose frames are malformed (R11). -/

namespace Sys2Proof

/-- The source of the frame that a command takes. -/
def Instr.source? : Instr → Option Node
  | .rollTaken source .. => some source
  | .markTaken source .. => some source
  | .openTaken source .. => some source
  | .closeTaken source .. => some source
  | .refuseTaken source .. => some source
  | .readDoneTaken source .. => some source
  | .placeTaken source .. => some source
  | .unplaceTaken source .. => some source
  | .commitTaken source .. => some source
  | .seamTaken source .. => some source
  | .claimTaken source .. => some source
  | .grantTaken source .. => some source
  | .segmentTaken source .. => some source
  | .redoTaken source .. => some source
  | .wakeTaken source .. => some source
  | _ => none

end Sys2Proof

namespace Sys2Proof.Laws.Wf

/-- A well-formed command names no frame of node 6. -/
def Statement (c : Instr) : Prop := c.wf = true → c.source? ≠ some 6#3

/-- A command that takes no frame of a node. -/
theorem ofNone {c : Instr} (h : c.source? = none) : Statement c := fun _ e => by rw [h] at e; cases e

/-- A command that takes a frame of `n`, whose check holds only where `n` is a valid source. -/
theorem ofSource {c : Instr} {n : Node} (h : c.source? = some n) (hw : c.wf = true → validSource n = true) : Statement c := by
  intro hc e
  rw [h] at e
  cases e
  exact absurd (hw hc) (by decide)

theorem start (straps : Straps) (serial : Word32) (linkBusy : Bool) :
    Statement (.start straps serial linkBusy) := ofNone rfl

theorem linkFreeOffer (rival : Option WireFrame) :
    Statement (.linkFreeOffer rival) := ofNone rfl

theorem frameEnd (heard : WireFrame) (otherSpoils : Bool) :
    Statement (.frameEnd heard otherSpoils) := ofNone rfl

theorem heldFrameAdmit (queue : Queue) :
    Statement (.heldFrameAdmit queue) := ofNone rfl

theorem noticeAdmit :
    Statement .noticeAdmit := ofNone rfl

theorem rollTaken (source : Node) (station : Byte) (serial : Word32) (fitted : Fitted) (next : Shot) (rejoin : Bool) :
    Statement (.rollTaken source station serial fitted next rejoin) := ofSource rfl id

theorem rollWaitExpiry :
    Statement .rollWaitExpiry := ofNone rfl

theorem rollWindowExpiry :
    Statement .rollWindowExpiry := ofNone rfl

theorem restartTaken (toAll : Bool) (reconfigure : Bool) :
    Statement (.restartTaken toAll reconfigure) := ofNone rfl

theorem markTaken (source : Node) (time : Time) (frameStart : Time) :
    Statement (.markTaken source time frameStart) := ofSource rfl id

theorem markTimerExpiry :
    Statement .markTimerExpiry := ofNone rfl

theorem releaseAlarmFire :
    Statement .releaseAlarmFire := ofNone rfl

theorem releasePulseEnd :
    Statement .releasePulseEnd := ofNone rfl

theorem syncClosingEdge :
    Statement .syncClosingEdge := ofNone rfl

theorem syncOpeningEdge :
    Statement .syncOpeningEdge := ofNone rfl

theorem syncWake :
    Statement .syncWake := ofNone rfl

theorem openTaken (source : Node) (shot : Shot) (time : Time) :
    Statement (.openTaken source shot time) := ofSource rfl id

theorem closeTaken (source : Node) (shot : Shot) (time : Time) (limit : Bool) :
    Statement (.closeTaken source shot time limit) := ofSource rfl id

theorem refuseTaken (source : Node) (shot : Shot) (reason : RefuseReason) (policy : Policy) :
    Statement (.refuseTaken source shot reason policy) := ofSource rfl id

theorem readDoneTaken (source : Node) (shot : Shot) (kind : ReadKind) (darkFollows : Bool) :
    Statement (.readDoneTaken source shot kind darkFollows) := ofSource rfl id

theorem attributionExpiry :
    Statement .attributionExpiry := ofNone rfl

theorem pulseTimerExpiry :
    Statement .pulseTimerExpiry := ofNone rfl

theorem exposureLimitExpiry :
    Statement .exposureLimitExpiry := ofNone rfl

theorem quietTimerExpiry :
    Statement .quietTimerExpiry := ofNone rfl

theorem readoutComplete (samples : List Sample) :
    Statement (.readoutComplete samples) := ofNone rfl

theorem darkTimerExpiry :
    Statement .darkTimerExpiry := ofNone rfl

theorem darkReadoutComplete (samples : List Sample) :
    Statement (.darkReadoutComplete samples) := ofNone rfl

theorem hotInsertion :
    Statement .hotInsertion := ofNone rfl

theorem darkScanComplete :
    Statement .darkScanComplete := ofNone rfl

theorem placeTaken (source : Node) (shot : Shot) (socket : Socket) (outcome : PlaceOutcome) :
    Statement (.placeTaken source shot socket outcome) := ofSource rfl id

theorem unplaceTaken (source : Node) (shot : Shot) (socket : Socket) (reason : UnplaceReason) :
    Statement (.unplaceTaken source shot socket reason) := ofSource rfl id

theorem commitTaken (source : Node) (shot : Shot) (socket : Socket) (frameNo : Word16) (fileSum : Word16) :
    Statement (.commitTaken source shot socket frameNo fileSum) := ofSource rfl id

theorem phaseBaseComplete :
    Statement .phaseBaseComplete := ofNone rfl

theorem phaseInteriorComplete :
    Statement .phaseInteriorComplete := ofNone rfl

theorem seamTimerExpiry :
    Statement .seamTimerExpiry := ofNone rfl

theorem edgeRepairsComplete :
    Statement .edgeRepairsComplete := ofNone rfl

theorem phaseGainComplete :
    Statement .phaseGainComplete := ofNone rfl

theorem phaseFinishComplete :
    Statement .phaseFinishComplete := ofNone rfl

theorem seamTaken (source : Node) (shot : Shot) (dir : Direction) (band : List Word16) :
    Statement (.seamTaken source shot dir band) := ofSource rfl fun h => (Bool.and_eq_true_iff.mp h).1

theorem claimTaken (source : Node) (socket : Byte) (shot : Shot) (count : Byte) :
    Statement (.claimTaken source socket shot count) := ofSource rfl id

theorem grantTaken (source : Node) (claimant : Byte) (socket : Byte) (shot : Shot) (count : Byte) (notPlaced : Bool) :
    Statement (.grantTaken source claimant socket shot count notPlaced) := ofSource rfl id

theorem segmentTaken (source : Node) (body : SegmentBody) :
    Statement (.segmentTaken source body) := ofSource rfl fun h => (Bool.and_eq_true_iff.mp h).1

theorem redoTaken (source : Node) (shot : Shot) (tile : Byte) (socket : Socket) (reason : RedoReason) :
    Statement (.redoTaken source shot tile socket reason) := ofSource rfl id

theorem cardBlockWriteComplete :
    Statement .cardBlockWriteComplete := ofNone rfl

theorem headerWriteComplete :
    Statement .headerWriteComplete := ofNone rfl

theorem indexWriteComplete :
    Statement .indexWriteComplete := ofNone rfl

theorem voidWriteComplete :
    Statement .voidWriteComplete := ofNone rfl

theorem cardWriteError :
    Statement .cardWriteError := ofNone rfl

theorem cardInserted (card : Medium) :
    Statement (.cardInserted card) := ofNone rfl

theorem mountReadComplete :
    Statement .mountReadComplete := ofNone rfl

theorem mountReadError :
    Statement .mountReadError := ofNone rfl

theorem cardRemoved :
    Statement .cardRemoved := ofNone rfl

theorem formatComplete :
    Statement .formatComplete := ofNone rfl

theorem wakeTaken (source : Node) (mask : Byte) (cause : WakeFrameCause) :
    Statement (.wakeTaken source mask cause) := ofSource rfl id

theorem sleepEntry :
    Statement .sleepEntry := ofNone rfl

theorem setItem (header : ReqHeader) (item : Byte) (value : Word32) :
    Statement (.setItem header item value) := ofNone rfl

theorem beginConf (header : ReqHeader) :
    Statement (.beginConf header) := ofNone rfl

theorem arm (header : ReqHeader) :
    Statement (.arm header) := ofNone rfl

theorem disarm (header : ReqHeader) :
    Statement (.disarm header) := ofNone rfl

theorem resume (header : ReqHeader) :
    Statement (.resume header) := ofNone rfl

theorem release (header : ReqHeader) (time : Time) :
    Statement (.release header time) := ofNone rfl

theorem exposure (header : ReqHeader) (shutter : Word32) :
    Statement (.exposure header shutter) := ofNone rfl

theorem takeDark (header : ReqHeader) (duration : Word32) :
    Statement (.takeDark header duration) := ofNone rfl

theorem keep (header : ReqHeader) (shot : Shot) :
    Statement (.keep header shot) := ofNone rfl

theorem discard (header : ReqHeader) (shot : Shot) :
    Statement (.discard header shot) := ofNone rfl

theorem forgetHot (header : ReqHeader) :
    Statement (.forgetHot header) := ofNone rfl

theorem histogram (header : ReqHeader) (shot : Shot) :
    Statement (.histogram header shot) := ofNone rfl

theorem format (header : ReqHeader) (socket : Byte) :
    Statement (.format header socket) := ofNone rfl

theorem eject (header : ReqHeader) (socket : Byte) :
    Statement (.eject header socket) := ofNone rfl

theorem status (header : ReqHeader) :
    Statement (.status header) := ofNone rfl

theorem dumpWake (header : ReqHeader) :
    Statement (.dumpWake header) := ofNone rfl

theorem sleep (header : ReqHeader) :
    Statement (.sleep header) := ofNone rfl

theorem requestUnknownCode (header : ReqHeader) (code : Byte) :
    Statement (.requestUnknownCode header code) := ofNone rfl

theorem tapEdge :
    Statement .tapEdge := ofNone rfl

theorem syncSample (level : Level) :
    Statement (.syncSample level) := ofNone rfl

theorem frameStart :
    Statement .frameStart := ofNone rfl

end Sys2Proof.Laws.Wf
end

