-- ==== Sys2Proof/Laws/Restart.lean ====
section
/-! SUPPORT. What the shared operations behind a Restart do, in the words of the statements (R23, R93, R132, R149, R150, R171). -/

namespace Sys2Proof.Machine

/-- Out of Ready no job starts (R112). -/
theorem State.tryStartJob_waits (s : State) (h : s.member.state ≠ .ready) : s.tryStartJob = s := by
  simp [State.tryStartJob, h]

/-- A tile that is not the current one is not left (R153). -/
theorem State.leaveTile_other (n : Shot) (s : State) (h : s.transfer.current ≠ some n) : s.leaveTile n = s := by
  simp [State.leaveTile, h]

/-- With no bulk frame in hand there is none to cancel (R17). -/
theorem Link.cancelBulk_none (p : Msg → Bool) (l : Link) (h : l.bulk = none) : l.cancelBulk p = l := by
  simp [Link.cancelBulk, h]

/-- Dropping a placement leaves no claim waiting where none was. -/
theorem Card.dropPlaced_waiting (p : Placed) (c : Card) (h : c.waiting = []) : (c.dropPlaced p).waiting = [] := by
  simp [Card.dropPlaced, Card.dropGrants, h]

/-- With no claim waiting, voiding a placement queues its Void write and nothing else: a card whose write queue holds it is not
Released (R140, R149). -/
theorem State.voidPlacement_eq (e : Entry) (p : Placed) (s : State) (hp : s.card.placed? e.shot = some p)
    (hw : s.card.waiting = []) :
    s.voidPlacement e =
      s.onCard fun c => { Card.dropPlaced p c with writes := (Card.dropPlaced p c).writes ++ [voidWrite e p] } := by
  simp only [State.voidPlacement, hp]
  rw [State.serve_nothing _ (Card.dropPlaced_waiting p s.card hw)]
  simp [State.ejectTest, State.doIf]

/-- The freeing of a shot's slot outside Ready, with no job, transfer tile, bulk frame or waiting claim, as every block's Restart
handling leaves them (R89, R93). -/
theorem State.freeSlot_restarting (n : Shot) (e : Entry) (s : State) (he : s.entry? n = some e) (hm : s.member.state ≠ .ready)
    (hj : s.develop.job = none) (ht : s.transfer.current = none) (hb : s.link.bulk = none) :
    s.freeSlot n = State.voidPlacement e { s with
      ring := s.ring.remove n
      develop := { s.develop with
        owed := s.develop.owed.filter (·.1 != n)
        store := s.develop.store.filter (·.shot != n) } } := by
  have hc : ∀ p, s.link.cancelBulk p = s.link := fun p => Link.cancelBulk_none p s.link hb
  simp only [State.freeSlot, he, State.developFreed, State.doIf, hj, Option.any_none, State.onRing, State.onDevelop,
    State.cancelBulk, State.onLink, hc, Bool.false_eq_true, if_false]
  rw [State.leaveTile_other n _ (by simp [ht]), State.tryStartJob_waits _ (by simp [hm])]

/-- A station that rolls with a valid number holds the frames its blocks produce (R22). -/
theorem Membership.place_rolling (m : Membership) (f : Frame) (l : Link) (hm : m.state = .rolling)
    (hs : m.straps.number ≠ 6#3 ∧ m.straps.number ≠ 7#3) (hf : Msg.queuedInRolling f.msg = false) :
    m.place f l = { l with rollHeld := l.rollHeld ++ [f] } := by
  simp [Membership.place, hm, hs.1, hs.2, hf]

/-- The Redos of one entry's members are held in member-set order (R22, R171). -/
theorem State.redoMembers_held (n : Shot) (k : Socket) (l : List Progress) (s : State) (hm : s.member.state = .rolling)
    (hs : s.self ≠ 6#3 ∧ s.self ≠ 7#3) :
    l.foldl (fun u m => u.broadcast (.redo n (m.member.setWidth 8) k .restarted)) s =
      { s with link := { s.link with rollHeld := s.link.rollHeld ++
          (l.map fun m => { dst := 15#4, msg := .redo n (m.member.setWidth 8) k .restarted }) } } := by
  induction l generalizing s with
  | nil => simp
  | cons m ms ih =>
    have hp : s.broadcast (.redo n (m.member.setWidth 8) k .restarted) = { s with link := { s.link with
        rollHeld := s.link.rollHeld ++ [{ dst := 15#4, msg := .redo n (m.member.setWidth 8) k .restarted }] } } := by
      simp only [State.broadcast, State.queue, State.onLink]
      rw [Membership.place_rolling _ _ _ hm hs rfl]
    rw [List.foldl_cons, hp]
    refine (ih _ ?_ ?_).trans ?_
    · exact hm
    · exact hs
    · simp [List.append_assoc]

/-- The Redos of a list of placements are held in its order (R22, R171). -/
theorem State.redoPlacements_held (k : Socket) (l : List Placed) (s : State) (hm : s.member.state = .rolling)
    (hs : s.self ≠ 6#3 ∧ s.self ≠ 7#3) :
    l.foldl (fun t p => p.progress.foldl (fun u m => u.broadcast (.redo p.shot (m.member.setWidth 8) k .restarted)) t) s =
      { s with link := { s.link with rollHeld := s.link.rollHeld ++
          (l.flatMap fun p => p.progress.map fun m =>
            { dst := 15#4, msg := .redo p.shot (m.member.setWidth 8) k .restarted }) } } := by
  induction l generalizing s with
  | nil => simp
  | cons p ps ih =>
    rw [List.foldl_cons, State.redoMembers_held p.shot k p.progress s hm hs]
    refine (ih _ ?_ ?_).trans ?_
    · exact hm
    · exact hs
    · simp [List.append_assoc]

/-- The Redos of the Filling entries are held in list order (R22, R171). -/
theorem State.redoFilling_held (k : Socket) (s : State) (hk : s.card.letter = some k) (hm : s.member.state = .rolling)
    (hs : s.self ≠ 6#3 ∧ s.self ≠ 7#3) :
    s.redoFilling =
      { s with link := { s.link with rollHeld := s.link.rollHeld ++
          ((s.card.placements.filter (·.phase == .filling)).flatMap fun p => p.progress.map fun m =>
            { dst := 15#4, msg := .redo p.shot (m.member.setWidth 8) k .restarted }) } } := by
  simp only [State.redoFilling, hk]
  exact State.redoPlacements_held k _ s hm hs

/-- The neighbour-facing edges in order, as directions (R114). -/
theorem facingEdges_dirs (g : Option GridShape) (n : Nat) :
    (facingEdges g n).map (·.1) = directions.filter fun d => (neighbour? g n d).isSome := by
  unfold facingEdges
  induction directions with
  | nil => rfl
  | cons d ds ih => cases h : neighbour? g n d <;> simp [h, ih]

/-- A shot that owes nothing comes to owe each neighbour-facing edge in order (R123). -/
theorem addOwed_new (n : Shot) (l : List (Direction × Nat)) (owed : List (Shot × Direction)) (hn : (l.map (·.1)).Nodup)
    (ho : ∀ d ∈ l.map (·.1), (n, d) ∉ owed) : addOwed n l owed = owed ++ l.map fun f => (n, f.1) := by
  unfold addOwed
  induction l generalizing owed with
  | nil => simp
  | cons f fs ih =>
    simp only [List.map_cons, List.nodup_cons, List.mem_cons, forall_eq_or_imp] at hn ho
    have hc : owed.contains (n, f.1) = false := by simpa using ho.1
    rw [List.foldl_cons, hc]
    refine (ih _ hn.2 ?_).trans (by simp)
    intro d hd
    have hne : d ≠ f.1 := fun h => hn.1 (h ▸ hd)
    simp [ho.2 d hd, hne]

/-- The roll timer and the Roll at the beginning of a roll call: station 0 queues its Roll at once, in place of a wait
(R23, R45). -/
theorem State.setupRollCall_eq (rejoin : Bool) (s : State) (hd : s.clock.timers.roll.due = false)
    (hs : s.self ≠ 6#3 ∧ s.self ≠ 7#3) (hq : s.link.control = [] ∧ s.link.controlHeld = []) :
    s.setupRollCall rejoin =
      { s with
        member := { s.member with state := .rolling, table := [], highest := s.ring.next, ownRollOut := false, rejoin := rejoin }
        clock := { s.clock with timers := { s.clock.timers with
          roll := { s.clock.timers.roll with request := if s.self = 0#3 then .stop else .load s.self.toNat } } }
        link := { s.link with control := s.rollAtEntry rejoin } } := by
  have h6 : s.member.straps.number ≠ 6#3 := hs.1
  have h7 : s.member.straps.number ≠ 7#3 := hs.2
  by_cases h0 : s.member.straps.number = 0#3
  · simp [State.setupRollCall, State.startWait, State.loadTimer, State.onTimer, State.onMember, State.onClock, State.doIf,
      State.onExpiry, State.self, h0, Timer.load, Timers.upd, State.timer, Timers.get, Timer.delivered, State.sendRoll,
      State.broadcast, State.queue, State.onLink, State.ownRoll, Membership.place, Msg.queuedInRolling, Link.give, Msg.queue,
      hq.1, hq.2, Config.controlCapacity, State.rollAtEntry, hd, Msg.cls, Msg.kind, show kindClass? 1#8 = some 1#2 by decide]
  · have hn : s.member.straps.number.toNat ≠ 0 := fun h => h0 (BitVec.eq_of_toNat_eq (by simpa using h))
    have hl : s.rollAtEntry rejoin = s.link.control := by simp [State.rollAtEntry, State.self, h0, hq.1]
    rw [hl]
    simp [State.setupRollCall, State.startWait, State.loadTimer, State.onTimer, State.onMember, State.onClock, State.doIf,
      State.self, h0, hn, Timer.load, Timers.upd]

end Sys2Proof.Machine
end

