-- ==== Sys2Proof/Laws/Ring.lean ====
section
/-! SUPPORT. What the operations on notices, on slots and entries, and on the Defect Table do (R82, R107, R108, R177). -/

namespace Sys2Proof.Machine

/-- Raising a notice keeps the eleven records. -/
theorem Notices.raise_length (d : NoticeData) (n : Notices) : (n.raise d).records.length = n.records.length := by
  simp [Notices.raise]

/-- A clear record becomes pending with count 1. -/
theorem Notices.raise_clear (d : NoticeData) (n : Notices) (h : n.records[d.order - 1]? = some none) :
    (n.raise d).records[d.order - 1]? = some (some { data := d, count := 1 }) := by
  simp [Notices.raise, h]

/-- A pending record takes the newest data and counts. -/
theorem Notices.raise_pending (d : NoticeData) (n : Notices) (r : NoticeRecord) (h : n.records[d.order - 1]? = some (some r)) :
    (n.raise d).records[d.order - 1]? = some (some { data := d, count := satInc 255 r.count }) := by
  simp [Notices.raise, h, Config.noticeCountLimit]

/-- Raising a notice leaves the records of the other classes. -/
theorem Notices.raise_other (d : NoticeData) (n : Notices) (i : Nat) (h : i ≠ d.order - 1) :
    (n.raise d).records[i]? = n.records[i]? := by
  simp [Notices.raise, Ne.symm h]

/-- Removing a shot removes its entry. -/
theorem Ring.remove_entry (n : Shot) (r : Ring) : ∀ e ∈ (r.remove n).roster, e.shot ≠ n := by
  intro e he
  simpa using (List.mem_filter.mp he).2

/-- Removing a shot leaves the other entries. -/
theorem Ring.remove_other (n : Shot) (r : Ring) (e : Entry) (h : e.shot ≠ n) : e ∈ (r.remove n).roster ↔ e ∈ r.roster := by
  simp [Ring.remove, h]

/-- Removing a shot keeps the number of slots and TOP. -/
theorem Ring.remove_shape (n : Shot) (r : Ring) :
    (r.remove n).slots.length = r.slots.length ∧ (r.remove n).top = r.top ∧ (r.remove n).next = r.next := by
  simp [Ring.remove]

/-- An update of an entry that keeps its shot number keeps the roster's shot numbers. -/
theorem Ring.updEntry_shots (n : Shot) (f : Entry → Entry) (r : Ring) (h : ∀ e, (f e).shot = e.shot) :
    (r.updEntry n f).roster.map (·.shot) = r.roster.map (·.shot) := by
  simp only [Ring.updEntry, List.map_map]
  apply List.map_congr_left
  intro e _
  simp only [Function.comp]
  split
  · exact h e
  · rfl

/-- An insertion into the table adds its entry and keeps the others. -/
theorem insertDefect_mem (e a : Defect) (l : List Defect) : a ∈ insertDefect e l ↔ a = e ∨ a ∈ l := by
  induction l with
  | nil => simp [insertDefect]
  | cons d ds ih =>
    unfold insertDefect
    split
    · simp
    · simp only [List.mem_cons, ih]
      constructor
      · rintro (h | h | h)
        · exact .inr (.inl h)
        · exact .inl h
        · exact .inr (.inr h)
      · rintro (h | h | h)
        · exact .inr (.inl h)
        · exact .inl h
        · exact .inr (.inr h)

/-- An insertion adds one entry. -/
theorem insertDefect_length (e : Defect) (l : List Defect) : (insertDefect e l).length = l.length + 1 := by
  induction l with
  | nil => rfl
  | cons d ds ih =>
    unfold insertDefect
    split
    · simp
    · simp [ih]

/-- The table never grows beyond 1024 entries. -/
theorem Dark.insert_bound (row column : Nat) (origin : Origin) (d : Dark) (h : d.defects.length ≤ 1024) :
    (d.insert row column origin).defects.length ≤ 1024 := by
  unfold Dark.insert
  split
  · exact h
  · split
    · cases origin <;> exact h
    · rename_i hf
      have hl : ¬(1024 ≤ d.defects.length) := fun h' => hf (decide_eq_true h')
      simp only [insertDefect_length]
      omega

/-- A position that the table holds is not entered again (R107). -/
theorem Dark.insert_present (row column : Nat) (origin : Origin) (d : Dark) (h : d.holds row column = true) :
    d.insert row column origin = d := by
  simp [Dark.insert, h]

end Sys2Proof.Machine
end

