-- ==== Sys2Proof/Laws/Sleep.lean ====
section
/-! SUPPORT. The sleep test (R183) and the sensor tile port (R53). -/

namespace Sys2Proof.Machine

/-- Outside Doze the sleep test does nothing. -/
theorem State.sleepTest_awake (s : State) (h : s.power.state ≠ .doze) : s.sleepTest = s := by
  simp [State.sleepTest, State.doIf, h]

/-- Where a sleep condition does not hold, the sleep test does nothing. -/
theorem State.sleepTest_held (s : State) (h : s.maySleep = false) : s.sleepTest = s := by
  simp [State.sleepTest, State.doIf, h]

/-- In Doze with every sleep condition met, the sleep test enters Sleep. -/
theorem State.sleepTest_enters (s : State) (hd : s.power.state = .doze) (h : s.maySleep = true) : s.sleepTest = s.enterSleep := by
  simp [State.sleepTest, State.doIf, h, hd]

/-- The sleep test ends in one of two states. -/
theorem State.sleepTest_cases (s : State) : s.sleepTest = s ∨ s.sleepTest = s.enterSleep := by
  unfold State.sleepTest State.doIf
  split
  · exact .inr rfl
  · exact .inl rfl

/-- A sleeping station has no card state but Empty. -/
theorem State.enterSleep_card (s : State) : s.enterSleep.card.state = .empty := by
  unfold State.enterSleep State.cardSleep State.doIf
  dsimp only [State.onNotices, State.onClock, State.onSync, State.onTransfer, State.dropTileMemory, State.onDark, State.onRing,
    State.onCard]
  split
  · unfold State.changeCard
    rfl
  · rename_i h
    simpa using h

/-- After the sleep test, a card that is not being ejected is left as it is. -/
theorem State.ejectTest_sleepTest (s : State) (h : s.card.state ≠ .ejecting) : s.sleepTest.ejectTest = s.sleepTest := by
  unfold State.ejectTest State.doIf
  rcases s.sleepTest_cases with e | e <;> rw [e]
  · simp [h]
  · simp [State.enterSleep_card]

/-- With an exposure in hand, the port reads out its slot's area in Reading alone (R53). -/
theorem State.port_reading (s : State) (x : Exposure) (hx : s.capture.exposure = some x) :
    s.port = .readOut (.area (s.slotIndex x.shot)) ↔ s.capture.state = .reading := by
  unfold State.port State.portArea
  cases s.capture.state <;> simp [hx]
  split <;> simp

end Sys2Proof.Machine
end

