-- ==== Sys2Proof/Laws/Take.lean ====
section
/-! SUPPORT. What becomes of a frame that is taken, by the station state (R20, R22, R26), and of a Request before its own rule
(R173). -/

namespace Sys2Proof.Machine

/-- A station in Sleep takes nothing. -/
theorem State.take_asleep (k : Taken) (handle : State → State) (s : State) (hs : s.power.state = .sleep) :
    s.take k handle = s := by
  simp [State.take, hs]

/-- In Configuring every frame is handled. -/
theorem State.take_configuring (k : Taken) (handle : State → State) (s : State) (hs : s.power.state ≠ .sleep)
    (hm : s.member.state = .configuring) : s.take k handle = handle s := by
  simp [State.take, State.testsFrames, State.takeSettled, hs, hm]

/-- In Ready every frame is handled. -/
theorem State.take_ready (k : Taken) (handle : State → State) (s : State) (hs : s.power.state ≠ .sleep)
    (hm : s.member.state = .ready) : s.take k handle = handle s := by
  simp [State.take, State.testsFrames, State.takeSettled, hs, hm]

/-- Excluded and Duplicate take Marks and Requests alone. -/
theorem State.take_excluded (k : Taken) (handle : State → State) (s : State) (hs : s.power.state ≠ .sleep)
    (hm : s.member.state = .excluded) : s.take k handle = if k = .mark ∨ k = .request then handle s else s := by
  simp [State.take, State.testsFrames, State.takeSettled, hs, hm]

/-- See `State.take_excluded`. -/
theorem State.take_duplicate (k : Taken) (handle : State → State) (s : State) (hs : s.power.state ≠ .sleep)
    (hm : s.member.state = .duplicate) : s.take k handle = if k = .mark ∨ k = .request then handle s else s := by
  simp [State.take, State.testsFrames, State.takeSettled, hs, hm]

/-- A station rolling with the rejoin flag disregards capture frames alone. -/
theorem State.take_rejoining (k : Taken) (handle : State → State) (s : State) (hs : s.power.state ≠ .sleep)
    (hm : s.member.state = .rolling) (hr : s.member.rejoin = true) :
    s.take k handle = if k = .capture then s else handle s := by
  simp [State.take, State.testsFrames, State.takeSettled, hs, hm, hr]

/-- The end of a roll call leaves Rolling (R27). -/
theorem State.endRollCall_state (s : State) : s.endRollCall.member.state ≠ .rolling := by
  unfold State.endRollCall
  dsimp only
  repeat' split
  all_goals simp [State.leaveRolling]

/-- At a station rolling without the rejoin flag R26's test comes first. -/
theorem State.take_tested (k : Taken) (handle : State → State) (s : State) (hs : s.power.state ≠ .sleep)
    (hm : s.member.state = .rolling) (hr : s.member.rejoin = false) :
    s.take k handle = s.metByFrame.takeSettled k handle := by
  simp [State.take, State.testsFrames, hs, hm, hr]

/-- A station rolling without the rejoin flag, its own Roll not out or no other station heard, is excluded by the frame. -/
theorem State.take_excludes (k : Taken) (handle : State → State) (s : State) (hs : s.power.state ≠ .sleep)
    (hm : s.member.state = .rolling) (hr : s.member.rejoin = false)
    (ho : s.member.ownRollOut = false ∨ s.hearsOthers = false) :
    s.take k handle = if k = .mark ∨ k = .request then handle s.exclude else s.exclude := by
  have he : s.exclude.member.state = .excluded := rfl
  rw [State.take_tested k handle s hs hm hr]
  rcases ho with ho | ho <;> simp [State.metByFrame, State.takeSettled, ho, he]

/-- With the own Roll out and another station heard, the frame ends the roll call and is handled in the state that results. -/
theorem State.take_ends (k : Taken) (handle : State → State) (s : State) (hs : s.power.state ≠ .sleep)
    (hm : s.member.state = .rolling) (hr : s.member.rejoin = false)
    (ho : s.member.ownRollOut = true) (hh : s.hearsOthers = true) :
    s.take k handle = s.endRollCall.take k handle := by
  rw [State.take_tested k handle s hs hm hr]
  simp [State.metByFrame, State.take, State.testsFrames, hs, ho, hh, State.endRollCall_state]

/-- A Request in Configuring or Ready is settled at once. -/
theorem State.request_running (h : ReqHeader) (code : Byte) (act : Action) (s : State) (hs : s.power.state ≠ .sleep)
    (hm : s.member.state = .configuring ∨ s.member.state = .ready) :
    s.request h code act = s.settle h code true act := by
  rcases hm with hm | hm
  · exact State.take_configuring _ _ s hs hm
  · exact State.take_ready _ _ s hs hm

/-- A Request that no row of R173 turns away is answered by its own rule, and the sleep test follows where it is to. -/
theorem State.settle_none (h : ReqHeader) (code : Byte) (readable : Bool) (act : Action) (s : State)
    (hr : settleRequest s.member.state code readable = none) :
    s.settle h code readable act = (State.answer h code (act s)).doIf (s.testsSleep code (act s).2) State.sleepTest := by
  simp [State.settle, hr]

/-- The sleep test follows no request but a Discard and a Sleep. -/
theorem State.testsSleep_false (code : Byte) (r : Reply) (s : State) (hd : code ≠ 0x21#8) (hs : code ≠ 0x32#8) :
    s.testsSleep code r = false := by
  simp [State.testsSleep, hd, hs]

/-- The sleep test follows no refusal. -/
theorem State.testsSleep_refused (code : Byte) (r : Reason) (s : State) : s.testsSleep code (.refused r) = false := rfl

/-- A Request that no row of R173 turns away and that no sleep test follows is answered by its own rule. -/
theorem State.settle_answer (h : ReqHeader) (code : Byte) (readable : Bool) (act : Action) (s : State)
    (hr : settleRequest s.member.state code readable = none) (ht : s.testsSleep code (act s).2 = false) :
    s.settle h code readable act = State.answer h code (act s) := by
  simp [State.settle_none h code readable act s hr, ht, State.doIf]

/-- A Request that a row of R173 turns away is answered with its reason, and nothing else happens. -/
theorem State.settle_some (h : ReqHeader) (code : Byte) (readable : Bool) (act : Action) (s : State) (r : Reason)
    (hr : settleRequest s.member.state code readable = some r) :
    s.settle h code readable act = State.answer h code (s, .refused r) := by
  simp [State.settle, hr]

end Sys2Proof.Machine
end

