-- ==== Sys2Proof/Laws/Transfer.lean ====
section
/-! SUPPORT. What the Transfer Unit's shared operations do, in the words of the statements: claims, the beginning and the end of a
pass, the choice of a tile, and a socket that is left (R153-R155, R170). -/

namespace Sys2Proof.Machine

/-- A change of the entry of a shot that keeps its shot number, as a search by shot number finds it. -/
theorem find?_map_shot (n m : Shot) (f : Entry → Entry) (hf : ∀ e, (f e).shot = e.shot) (l : List Entry) :
    (l.map fun e => if e.shot = n then f e else e).find? (·.shot == m) =
      (l.find? (·.shot == m)).map fun e => if m = n then f e else e := by
  induction l with
  | nil => rfl
  | cons e es ih =>
    have h1 : (if e.shot = n then f e else e).shot = e.shot := by split <;> simp [hf]
    simp only [List.map_cons, List.find?_cons, h1]
    by_cases he : e.shot = m
    · subst he; simp
    · have h2 : (e.shot == m) = false := by simpa using he
      simp only [h2]; exact ih

/-- The entries after a change of the entry of a shot. -/
theorem State.updEntry_entry? (n m : Shot) (f : Entry → Entry) (s : State) (hf : ∀ e, (f e).shot = e.shot) :
    (s.updEntry n f).entry? m = (s.entry? m).map fun e => if m = n then f e else e :=
  find?_map_shot n m f hf s.ring.roster

/-- A change of a part keeps the shot number. -/
theorem Entry.updPart_shot (k : Socket) (f : Part → Part) (e : Entry) : (e.updPart k f).shot = e.shot := by cases k <;> rfl

/-- The beginning of a pass, in the words of the statements (R154). -/
theorem Entry.startPass_eq (e : Entry) : e.startPass = { e.mapParts (fun p => if p.placement = .reserved ∧ (p.transfer = .idle ∨ p.transfer = .closed) then
      { p with transfer := .sending } else p) with cursor := 0 } := by
  have : (fun p : Part => if (p.isOpen && (p.transfer == .idle || p.transfer == .closed)) = true then { p with transfer := .sending } else p) =
     (fun p => if p.placement = .reserved ∧ (p.transfer = .idle ∨ p.transfer = .closed) then
      { p with transfer := .sending } else p) := by
    funext p; simp [Part.isOpen]
  unfold Entry.startPass
  rw [this]

/-- The entry once the socket `k` has been claimed for where it needs it (R155). -/
def Entry.claimAt (k : Socket) (e : Entry) : Entry := 
  match e.part k with
  | none => e
  | some p => if p.needsClaim then e.updPart k (fun q => { q with transfer := .claiming }) else e

/-- The link once the socket `k` of an entry has been claimed for where it needs it (R155). -/
def State.linkClaimAt (n : Shot) (e : Entry) (s : State) (k : Socket) (l : Link) : Link :=
  match e.part k with
    | some p => if p.placement = .reserved ∧ p.transfer = .sending ∧ p.grants = 0 then
        s.member.place { dst := nodeDst p.station, msg := .claim (socketCode k) n (BitVec.ofNat 8
          (min 8 ((tileBytes s.settings - e.cursor + segmentBytes s.settings - 1) / segmentBytes s.settings))) } l else l
    | none => l

/-- A claim for one socket changes the link and the entry alone. -/
theorem State.claimSocket_spec (n : Shot) (k : Socket) (e : Entry) (s : State) (he : s.entry? n = some e) :
    (s.claimSocket n k) = { s with link := State.linkClaimAt n e s k s.link, ring := { s.ring with roster := (s.claimSocket n k).ring.roster } } ∧
    sameOtherEntries n s (s.claimSocket n k) ∧ (s.claimSocket n k).entry? n = some (Entry.claimAt k e) := by
  cases hp : e.part k with
  | none => 
    have : s.claimSocket n k = s := by simp [State.claimSocket, he, hp]
    rw [this]; exact ⟨by simp [State.linkClaimAt, hp], fun _ _ => rfl, by simp [Entry.claimAt, hp, he]⟩
  | some p =>
    by_cases hn : p.needsClaim = true
    · have hn' : p.placement = .reserved ∧ p.transfer = .sending ∧ p.grants = 0 := by
        simpa [Part.needsClaim, Part.isOpen, and_assoc] using hn
      have : s.claimSocket n k = (s.updEntry n (Entry.updPart k fun q => { q with transfer := .claiming })).queue (nodeDst p.station)
          (.claim (socketCode k) n (BitVec.ofNat 8 (min 8 (segmentsLeft s.settings e.cursor)))) := by
        simp [State.claimSocket, he, hp, hn]
      rw [this]
      refine ⟨?_, ?_, ?_⟩
      · simp only [State.linkClaimAt, hp, hn', and_self, if_true]; rfl
      · intro m hm
        have := State.updEntry_entry? n m (Entry.updPart k fun q => { q with transfer := .claiming }) s (Entry.updPart_shot _ _)
        exact this.trans (by cases h : s.entry? m <;> simp [hm])
      · have := State.updEntry_entry? n n (Entry.updPart k fun q => { q with transfer := .claiming }) s (Entry.updPart_shot _ _)
        refine this.trans ?_
        simp [he, Entry.claimAt, hp, hn]
    · have hn' : ¬(p.placement = .reserved ∧ p.transfer = .sending ∧ p.grants = 0) := by
        simpa [Part.needsClaim, Part.isOpen, and_assoc] using hn
      have : s.claimSocket n k = s := by simp [State.claimSocket, he, hp, hn]
      rw [this]; exact ⟨by simp [State.linkClaimAt, hp, hn'], fun _ _ => rfl, by simp [Entry.claimAt, hp, hn, he]⟩

/-- Both sockets claimed for, A first. -/
theorem Entry.claimAt_both (e : Entry) : Entry.claimAt .b (Entry.claimAt .a e) = e.claiming := by
  obtain ⟨a0, a1, a2, a3, pa, pb, a6, a7, a8, a9⟩ := e
  have hd : ∀ p : Part, (p.needsClaim = true) = (p.placement = .reserved ∧ p.transfer = .sending ∧ p.grants = 0) := by
    intro p; simp [Part.needsClaim, Part.isOpen, and_assoc]
  have h : ∀ (k : Socket) (e : Entry), Entry.claimAt k e = e.updPart k fun p => if p.placement = .reserved ∧ p.transfer = .sending ∧ p.grants = 0 then { p with transfer := .claiming } else p := by
    intro k e
    cases hp : e.part k with
    | none => cases k <;> simp only [Entry.part] at hp <;> simp [Entry.claimAt, Entry.part, Entry.updPart, hp] <;> rw [← hp]
    | some p =>
      simp only [Entry.claimAt, hp, hd]
      by_cases hq : p.placement = .reserved ∧ p.transfer = .sending ∧ p.grants = 0
      · cases k <;> simp_all [Entry.part, Entry.updPart]
      · cases k <;> simp only [Entry.part] at hp <;> simp [Entry.updPart, hp, hq] <;> rw [← hp]
  rw [h, h]; rfl

/-- The claims of the current tile change the link and its entry alone (R155). -/
theorem State.claimTargets_spec (n : Shot) (e : Entry) (s : State) (hc : s.transfer.current = some n) (he : s.entry? n = some e) :
    s.claimTargets n = { s with link := s.linkClaiming n e, ring := { s.ring with roster := (s.claimTargets n).ring.roster } } ∧
    sameOtherEntries n s (s.claimTargets n) ∧ (s.claimTargets n).entry? n = some e.claiming := by
  have h0 : s.claimTargets n = (s.claimSocket n .a).claimSocket n .b := by simp [State.claimTargets, hc]
  obtain ⟨a1, a2, a3⟩ := State.claimSocket_spec n .a e s he
  generalize s.claimSocket n .a = u at *
  obtain ⟨b1, b2, b3⟩ := State.claimSocket_spec n .b _ u a3
  rw [h0]
  generalize u.claimSocket n .b = v at *
  refine ⟨?_, fun m hm => (b2 m hm).trans (a2 m hm), by rw [b3, Entry.claimAt_both]⟩
  have hl : State.linkClaimAt n (Entry.claimAt .a e) u .b u.link = s.linkClaiming n e := by
    rw [a1]
    have hb : (Entry.claimAt .a e).part .b = e.part .b := by 
      simp only [Entry.claimAt]; split
      · rfl
      · split <;> rfl
    have hcur : (Entry.claimAt .a e).cursor = e.cursor := by
      simp only [Entry.claimAt]; split
      · rfl
      · split <;> rfl
    simp only [State.linkClaimAt, hb, hcur, State.linkClaiming, List.foldl_cons, List.foldl_nil]; rfl
  rw [b1, hl, a1]

/-- A pass begins (R154). -/
theorem State.beginPass_begun (n : Shot) (e : Entry) (s : State) (hc : s.transfer.current = some n) (he : s.entry? n = some e) :
    s.passBegun n e (s.beginPass n) := by
  intro f hf
  rw [← Entry.startPass_eq] at hf
  subst hf
  have hs : ∀ e : Entry, e.startPass.shot = e.shot := fun _ => rfl
  have h1 := State.updEntry_entry? n n Entry.startPass s hs
  rw [he] at h1; simp at h1
  obtain ⟨a1, a2, a3⟩ := State.claimTargets_spec n _ (s.updEntry n Entry.startPass) hc h1
  refine ⟨a1, fun m hm => (a2 m hm).trans ((State.updEntry_entry? n m _ s hs).trans (by cases h : s.entry? m <;> simp [hm])), a3⟩

/-- Only an empty list has no lowest shot. -/
theorem lowestShot_none : ∀ l : List Shot, lowestShot l = none ↔ l = [] := by
  intro l; cases l with
  | nil => simp [lowestShot]
  | cons a as => simp [lowestShot]; split <;> simp

/-- The lowest shot of a list is of the list and no greater than any of it. -/
theorem lowestShot_least : ∀ (l : List Shot) (n : Shot), lowestShot l = some n → n ∈ l ∧ ∀ m ∈ l, n ≤ m := by
  intro l
  induction l with
  | nil => intro n h; cases h
  | cons a as ih =>
    intro n h
    simp only [lowestShot] at h
    split at h
    · rename_i h1; rw [lowestShot_none] at h1; subst h1; cases h; simp
    · rename_i m h1
      obtain ⟨i1, i2⟩ := ih m h1
      cases h
      split
      · rename_i hlt
        exact ⟨List.mem_cons_of_mem _ i1, by intro x hx; rcases List.mem_cons.mp hx with rfl | hx; exact BitVec.le_of_lt hlt; exact i2 x hx⟩
      · rename_i hlt
        exact ⟨List.mem_cons_self, by intro x hx; rcases List.mem_cons.mp hx with rfl | hx; exact BitVec.le_refl _; exact BitVec.le_trans (BitVec.not_lt.mp hlt) (i2 x hx)⟩

/-- The tiles that wait are those of the eligible entries (R153). -/
theorem State.awaitsTransfer_iff (m : Shot) (s : State) (hn : (s.ring.roster.map (·.shot)).Nodup) :
    m ∈ (s.ring.roster.filter s.eligible).map (·.shot) ↔ s.awaitsTransfer m := by
  have key : ∀ e : Entry, (s.slot? e.shot).any (·.tag == .developed) = true ↔ ∃ x, s.slot? e.shot = some x ∧ x.tag = .developed := by
    intro e; cases s.slot? e.shot <;> simp
  constructor
  · intro h
    obtain ⟨e, he, rfl⟩ := List.mem_map.mp h
    obtain ⟨h1, h2⟩ := List.mem_filter.mp he
    simp only [State.eligible, Entry.hasOpenUnclosed, Bool.and_eq_true, beq_iff_eq, key, List.any_eq_true, Part.isOpen, bne_iff_ne, ne_eq] at h2
    obtain ⟨⟨h2, p, hp, h3⟩, x, hx, ht⟩ := h2
    have hf : s.entry? e.shot = some e := by
      unfold State.entry?
      have : ∀ l : List Entry, (l.map (·.shot)).Nodup → e ∈ l → l.find? (·.shot == e.shot) = some e := by
        intro l
        induction l with
        | nil => intro _ h; cases h
        | cons a as ih =>
          intro hn hm
          rw [List.map_cons, List.nodup_cons] at hn
          rcases List.mem_cons.mp hm with rfl | hm
          · simp
          · have : a.shot ≠ e.shot := fun h => hn.1 (h ▸ List.mem_map.mpr ⟨e, hm, rfl⟩)
            simp [this, ih hn.2 hm]
      exact this _ hn h1
    exact ⟨h2, e, x, hf, hx, ht, p, hp, h3.1, h3.2⟩
  · rintro ⟨h2, e, x, hf, hx, ht, p, hp, h3, h4⟩
    have hsh : e.shot = m := by simpa using List.find?_some hf
    subst hsh
    refine List.mem_map.mpr ⟨e, List.mem_filter.mpr ⟨List.mem_of_find?_eq_some hf, ?_⟩, rfl⟩
    simp only [State.eligible, Entry.hasOpenUnclosed, Bool.and_eq_true, beq_iff_eq, key, List.any_eq_true, Part.isOpen, bne_iff_ne, ne_eq]
    exact ⟨⟨h2, p, hp, h3, h4⟩, x, hx, ht⟩

/-- The Transfer Unit's choice (R153). -/
theorem State.chooseTile_chosen (s : State) (hn : (s.ring.roster.map (·.shot)).Nodup) : s.tileChosen s.chooseTile := by
  constructor
  · rintro (h | h)
    · obtain ⟨c, hc⟩ := Option.ne_none_iff_exists'.mp h
      simp [State.chooseTile, hc]
    · unfold State.chooseTile
      split
      · rfl
      · have : (s.ring.roster.filter s.eligible).map (·.shot) = [] := by
          rw [List.eq_nil_iff_forall_not_mem]; intro m hm; exact h m ((State.awaitsTransfer_iff m s hn).mp hm)
        rw [this]; rfl
  · intro hc m f hm hlow hf
    have hmem := (State.awaitsTransfer_iff m s hn).mpr hm
    have hl : lowestShot ((s.ring.roster.filter s.eligible).map (·.shot)) = some m := by
      cases h : lowestShot ((s.ring.roster.filter s.eligible).map (·.shot)) with
      | none => rw [lowestShot_none] at h; rw [h] at hmem; cases hmem
      | some k => 
        obtain ⟨h1, h2⟩ := lowestShot_least _ _ h
        have := hlow k ((State.awaitsTransfer_iff k s hn).mp h1)
        have := h2 m hmem
        congr 1; exact BitVec.le_antisymm ‹_› ‹_›
    have : s.chooseTile = (s.onTransfer fun t => { t with current := some m }).beginPass m := by
      simp [State.chooseTile, hc, hl]
    rw [this]
    exact State.beginPass_begun m f _ rfl hf

/-- A second change of the roster takes the place of the first. -/
theorem State.roster_over (s1 s0 : State) (r q : List Entry) (h : s1 = { s0 with ring := { s0.ring with roster := q } }) :
    ({ s1 with ring := { s1.ring with roster := r } } : State) = { s0 with ring := { s0.ring with roster := r } } := by subst h; rfl

/-- A pass that begins after a change of its own entry. -/
theorem State.passBegun_over (n : Shot) (e : Entry) (s2 s' t : State) (q : List Entry) (h : s2 = { s' with ring := { s'.ring with roster := q } })
    (ho : sameOtherEntries n s' s2) (hb : s2.passBegun n e t) : s'.passBegun n e t := by
  subst h
  intro f hf
  obtain ⟨h1, h2, h3⟩ := hb f hf
  exact ⟨h1, fun m hm => (h2 m hm).trans (ho m hm), h3⟩

/-- A pass that ends after a change of its own entry. -/
theorem State.passEnded_over (n : Shot) (e : Entry) (s2 s' t : State) (q : List Entry) (h : s2 = { s' with ring := { s'.ring with roster := q } })
    (ho : sameOtherEntries n s' s2) (hb : s2.passEnded n e t) : s'.passEnded n e t := by
  refine ⟨fun hi => State.passBegun_over n e s2 s' t q h ho (hb.1 hi), fun hi => ?_⟩
  obtain ⟨u, hu, h6, h7, h8, h9⟩ := hb.2 hi
  refine ⟨u, ?_, fun m hm => (h6 m hm).trans (ho m hm), h7, h8, h9⟩
  subst h; exact hu

/-- The entry with its send cursor at 0. -/
def Entry.atStart (x : Entry) : Entry := { x with cursor := 0 }

/-- Some socket is a target. -/
theorem Entry.hasTarget_iff (e : Entry) : e.hasTarget = true ↔ ∃ p ∈ e.parts, p.target = true := by simp [Entry.hasTarget]

/-- Some open socket is Idle. -/
theorem Entry.hasOpenIdle_iff (e : Entry) : e.hasOpenIdle = true ↔ ∃ p ∈ e.parts, p.placement = .reserved ∧ p.transfer = .idle := by
  simp [Entry.hasOpenIdle, Part.isOpen]

/-- A change of an entry keeps the shot numbers of the roster. -/
theorem State.updEntry_shots (n : Shot) (f : Entry → Entry) (s : State) (hf : ∀ e, (f e).shot = e.shot) :
    ((s.updEntry n f).ring.roster.map (·.shot)) = s.ring.roster.map (·.shot) := Ring.updEntry_shots n f s.ring hf

/-- A change of an entry leaves the others. -/
theorem State.updEntry_sameOther (n : Shot) (f : Entry → Entry) (s : State) (hf : ∀ e, (f e).shot = e.shot) : sameOtherEntries n s (s.updEntry n f) := by
  intro m hm
  exact (State.updEntry_entry? n m f s hf).trans (by cases h : s.entry? m <;> simp [hm])

/-- A pass without a target ends (R154; log 47). -/
theorem State.endPassIfDone_spec (n : Shot) (e : Entry) (s : State) (hn : (s.ring.roster.map (·.shot)).Nodup) (he : s.entry? n = some e)
    (ht : ∀ p ∈ e.parts, p.target = false) :
    (s.transfer.current = some n → s.passEnded n e (s.endPassIfDone n)) ∧
    (s.transfer.current ≠ some n → s.endPassIfDone n = s.updEntry n Entry.atStart) := by
  have h0 : e.hasTarget = false := by
    cases h : e.hasTarget with
    | false => rfl
    | true => obtain ⟨p, hp, h1⟩ := (Entry.hasTarget_iff e).mp h; rw [ht p hp] at h1; cases h1
  constructor
  · intro hc
    constructor
    · intro hi
      have : s.endPassIfDone n = s.beginPass n := by
        unfold State.endPassIfDone; simp only [he, h0, hc, if_true]; rw [if_neg (by simp), if_pos ((Entry.hasOpenIdle_iff e).mpr hi)]
      rw [this]; exact State.beginPass_begun n e s hc he
    · intro hi
      have hi' : ¬(e.hasOpenIdle = true) := fun h => by obtain ⟨p, hp, h1⟩ := (Entry.hasOpenIdle_iff e).mp h; exact hi p hp h1
      let u : State := (s.updEntry n Entry.atStart).onTransfer fun t => { t with current := none }
      have : s.endPassIfDone n = u.chooseTile := by
        unfold State.endPassIfDone; simp only [he, h0, hc, if_true]; rw [if_neg (by simp), if_neg hi']
        have : (s.updEntry n Entry.atStart).transfer.current = some n := hc
        exact if_pos this
      have hs := State.chooseTile_chosen u (by rw [show u.ring.roster.map (·.shot) = s.ring.roster.map (·.shot) from State.updEntry_shots n _ s (fun _ => rfl)]; exact hn)
      rw [this]
      refine ⟨u, rfl, State.updEntry_sameOther n _ s (fun _ => rfl), ?_, fun h => hs.1 (.inr h), fun m f h1 h2 h3 => hs.2 rfl m f h1 h2 h3⟩
      have := State.updEntry_entry? n n Entry.atStart s (fun _ => rfl)
      rw [he] at this; exact this.trans (by simp [Entry.atStart])
  · intro hc
    unfold State.endPassIfDone; simp only [he, h0, hc, if_false]; rfl

/-- A socket is left by a Commit or an Unplace (R170). `s` is the station once the part has been settled, `s0` before it. -/
theorem State.leaveSocket_left (n : Shot) (k : Socket) (tr : Transfer) (p : Part) (e g : Entry) (s s0 : State) 
    (hn : (s.ring.roster.map (·.shot)).Nodup) (he : s.entry? n = some e) 
    (hs0 : s = { s0 with ring := { s0.ring with roster := s.ring.roster } }) (hso : sameOtherEntries n s0 s)
    (hg : g = e.updPart k fun p => { p with transfer := tr, grants := 0 }) :
    s0.socketLeft n p g (s.leaveSocket n k tr p.target) := by
  have hsh : ∀ e : Entry, (e.updPart k fun p => { p with transfer := tr, grants := 0 }).shot = e.shot := Entry.updPart_shot _ _
  let s1 := s.updEntry n (Entry.updPart k fun p => { p with transfer := tr, grants := 0 })
  have h1 : s1.entry? n = some g := by
    have := State.updEntry_entry? n n _ s hsh
    rw [he] at this; rw [hg]; simpa using this
  have hso1 : sameOtherEntries n s0 s1 := fun m hm => (State.updEntry_sameOther n _ s hsh m hm).trans (hso m hm)
  have hs1 : s1 = { s0 with ring := { s0.ring with roster := s1.ring.roster } } := by
    show s.updEntry n _ = _; rw [hs0]; rfl
  have hn1 : (s1.ring.roster.map (·.shot)).Nodup := by
    rw [show s1.ring.roster.map (·.shot) = s.ring.roster.map (·.shot) from State.updEntry_shots n _ s hsh]; exact hn
  have hc1 : s1.transfer.current = s0.transfer.current := by rw [hs1]
  constructor
  · intro h
    have : s.leaveSocket n k tr p.target = s1 := by
      unfold State.leaveSocket
      rw [if_neg]
      rcases h with h | h
      · simp [h]
      · have := (Entry.hasTarget_iff g).mpr h
        simp only [show (s.updEntry n (Entry.updPart k fun p => { p with transfer := tr, grants := 0 })).entry? n = some g from h1]
        simp [this]
    rw [this]; exact ⟨hs1, hso1, h1⟩
  · intro hp hq
    have hnt : g.hasTarget = false := by
      cases h : g.hasTarget with
      | false => rfl
      | true => obtain ⟨p, hp, h1⟩ := (Entry.hasTarget_iff g).mp h; rw [hq p hp] at h1; cases h1
    have h2 : s.leaveSocket n k tr p.target = (s1.doIf (s1.transfer.current == some n) (State.cancelBulk (Msg.isSegmentOf n))).endPassIfDone n := by
      unfold State.leaveSocket
      rw [if_pos]
      simp only [show (s.updEntry n (Entry.updPart k fun p => { p with transfer := tr, grants := 0 })).entry? n = some g from h1]
      simp [hnt, hp]
    constructor
    · intro hc
      have h3 : (s1.transfer.current == some n) = false := by rw [hc1]; simpa using hc
      have h4 := (State.endPassIfDone_spec n g s1 hn1 h1 hq).2 (by rw [hc1]; exact hc)
      have h5 : s.leaveSocket n k tr p.target = s1.updEntry n Entry.atStart := by rw [h2, h3]; exact h4
      rw [h5]
      refine ⟨State.roster_over s1 s0 _ _ hs1, fun m hm => (State.updEntry_sameOther n Entry.atStart s1 (fun _ => rfl) m hm).trans (hso1 m hm), ?_⟩
      have := State.updEntry_entry? n n Entry.atStart s1 (fun _ => rfl)
      rw [h1] at this; exact this.trans (by simp [Entry.atStart])
    · intro hc
      have h3 : (s1.transfer.current == some n) = true := by rw [hc1]; simpa using hc
      rw [h2, h3]
      let s2 := s1.cancelBulk (Msg.isSegmentOf n)
      have h5 := (State.endPassIfDone_spec n g s2 hn1 h1 hq).1 (by show s1.transfer.current = _; rw [hc1]; exact hc)
      exact State.passEnded_over n g s2 _ _ _ (by show s1.cancelBulk _ = _; rw [hs1]; rfl) hso1 h5
end Sys2Proof.Machine
end

