-- ==== Sys2Proof/Tests/Slice0.lean ====
section
/-! SUPPORT. The model's own tests: an ill-formed term for each check of WellFormed, small steps, and for every statement that
has hypotheses states and operands that meet them, clause by clause. -/

namespace Sys2Proof.Tests

open Sys2Proof.Machine

/-! ## Ill-formed terms -/

def header : ReqHeader := { tag := 1#8, toAll := true }
def fits : Fitted := { card := true, release := true, sync := true }
def segmentOf (payload : List Byte) : SegmentBody :=
  { shot := 1#32, tile := 1#8, offset := 0#32, sum := 1#16, openFlag := true, close := none, payload := payload }

theorem test_wf_serial : (Instr.start resetStraps 0#32 false).wf = false ∧ (Instr.start resetStraps 1#32 false).wf = true := by
  decide

theorem test_wf_rival :
    (Instr.linkFreeOffer (some { cls := 0#2, src := 1#3, dst := 15#4, kind := 2#8, len := 8#24, body := [], sum := none })).wf = false ∧
    (Instr.linkFreeOffer none).wf = true := by
  decide

theorem test_wf_source :
    (Instr.rollTaken 6#3 6#8 1#32 fits 1#32 false).wf = false ∧ (Instr.markTaken 6#3 0#64 0#64).wf = false ∧
    (Instr.openTaken 6#3 1#32 0#64).wf = false ∧ (Instr.closeTaken 6#3 1#32 0#64 false).wf = false ∧
    (Instr.refuseTaken 6#3 1#32 .blocked .drop).wf = false ∧ (Instr.readDoneTaken 6#3 1#32 .regular false).wf = false ∧
    (Instr.placeTaken 6#3 1#32 .a (.refused .full)).wf = false ∧ (Instr.unplaceTaken 6#3 1#32 .a .removed).wf = false ∧
    (Instr.commitTaken 6#3 1#32 .a 1#16 1#16).wf = false ∧ (Instr.claimTaken 6#3 1#8 1#32 1#8).wf = false ∧
    (Instr.grantTaken 6#3 0#8 1#8 1#32 1#8 false).wf = false ∧ (Instr.redoTaken 6#3 1#32 0#8 .a .tileSum).wf = false ∧
    (Instr.wakeTaken 6#3 1#8 .panel).wf = false ∧ (Instr.markTaken 7#3 0#64 0#64).wf = true := by
  decide

theorem test_wf_band : (Instr.seamTaken 1#3 1#32 .up [0#16]).wf = false ∧ (Instr.seamTaken 6#3 1#32 .up []).wf = false ∧
    bandLengthOk 4096 = true ∧ bandLengthOk 4032 = false ∧ bandLengthOk 32832 = false ∧ bandLengthOk 4100 = false := by
  decide

theorem test_wf_payload : (Instr.segmentTaken 1#3 (segmentOf [])).wf = false ∧ (Instr.segmentTaken 6#3 (segmentOf [0#8])).wf = false ∧
    (Instr.segmentTaken 1#3 (segmentOf [0#8])).wf = true ∧ payloadLengthOk 65537 = false := by
  decide

theorem test_wf_card :
    (Instr.cardInserted { capacity := 1, bytes := [(5, 1#8), (5, 2#8)] }).wf = false ∧
    (Instr.cardInserted { capacity := 1, bytes := [(5, 0#8)] }).wf = false ∧
    (Instr.cardInserted { capacity := 1, bytes := [(512, 1#8)] }).wf = false ∧
    (Instr.cardInserted { capacity := 1, bytes := [(5, 1#8), (511, 2#8)] }).wf = true := by
  decide

theorem test_wf_code : (Instr.requestUnknownCode header 0x10#8).wf = false ∧ (Instr.requestUnknownCode header 0x99#8).wf = true := by
  decide

/-! ## Memory -/

theorem test_memory_canonical :
    Memory.write [] 5 0#8 = [] ∧ Memory.write [(5, 1#8)] 5 0#8 = [] ∧ Memory.write [(5, 1#8)] 3 2#8 = [(3, 2#8), (5, 1#8)] ∧
    Memory.read [(5, 1#8)] 6 = 0#8 ∧ Memory.readBytes (Memory.writeBytes [] 7 [1#8, 0#8, 2#8]) 6 5 = [0#8, 1#8, 0#8, 2#8, 0#8] := by
  decide

/-! ## States -/

def small : Settings := { gridShape := some .g2x1, tileColumns := 8, tileRows := 8, segmentSize := 8 }
def back : List Member :=
  [{ number := 0#3, serial := 1#32, fitted := fits, duplicated := false },
   { number := 1#3, serial := 2#32, fitted := { card := true, release := false, sync := true }, duplicated := false }]
def station (st : StationState) : State :=
  { member := { straps := resetStraps, serial := resetSerial, state := st, table := back, settings := small } }
def ready : State := station .ready
def rolling (out : Bool) : State :=
  { station .rolling with member := { (station .rolling).member with ownRollOut := out, rejoin := true } }
def capturing (c : CaptureState) : State := { ready with capture := { ready.capture with state := c } }
def power (p : PowerState) (s : State) : State := { s with power := { s.power with state := p } }
def slotOf (n : Shot) (tag : Tag) : Slot :=
  { shot := n, tag := tag, ownStart := 100#64, ownEnd := some 200#64, outcome := none, skew := none, skewed := false,
    bounces := none, limit := false, dark := none, flags := {}, tileSum := none }
def partOf (p : Placement) (t : Transfer) (grants : Nat) : Part := { station := 0#3, placement := p, transfer := t, grants := grants }
def entryOf (n : Shot) (a b : Option Part) : Entry :=
  { shot := n, slot := 0, agreedOpen := some 100#64, openTaken := true, opener := false, agreedClose := none,
    agreedDuration := some 100, members := [0#3, 1#3], partA := a, partB := b, unmirrored := false, cursor := 0 }
/-- Shot 1 in slot 0, and nothing else in the ring. -/
def holding (tag : Tag) (a b : Option Part) (s : State) : State :=
  { s with ring := { s.ring with
      slots := some (slotOf 1#32 tag) :: List.replicate 7 none
      top := 0, next := 2#32, roster := [entryOf 1#32 a b] } }
def exposing (s : State) : State :=
  { holding .exposing none none s with capture := { s.capture with
      state := .exposing, current := 1#32
      exposure := some { shot := 1#32, ownEdge := none, ownStart := 100#64, shutter := 8000, limit := false } } }
def reading (s : State) : State :=
  { holding .reading none none s with capture := { (exposing s).capture with state := .reading } }
def underTest (a : Level) (s : State) : State :=
  { s with sync := { accepted := some a, candidate := some { since := 50#64, samples := 50, interval := 500 }, bounces := 2 } }
def dueTimer (id : TimerId) (s : State) : State :=
  { s with clock := { s.clock with timers := s.clock.timers.upd (fun t => { t with due := true, request := .none }) id } }
def frameOf (source : Node) (m : Msg) : WireFrame := Frame.wire source { dst := 15#4, msg := m }
def queuedMark : Queued := { frame := { dst := 15#4, msg := .mark 0#64 }, spoils := 0 }
def onLink (p : LinkPhase) (s : State) : State := { s with link := { s.link with phase := p } }

/-- `State.ringOk`, computed. -/
def ringCheck (s : State) : Bool :=
  s.ring.slots.length == 8 && decide (s.ring.top < 8)
    && ((List.range 8).all fun i => match s.ring.slots[i]? with
        | some (some x) => s.ring.roster.any fun e => e.shot == x.shot && e.slot == i
        | _ => true)
    && (s.ring.roster.all fun e => match s.ring.slots[e.slot]? with
        | some (some x) => x.shot == e.shot
        | _ => false)
    && decide ((s.ring.roster.map (·.shot)).Nodup)
    && (s.ring.roster.all fun e => decide (e.shot < s.ring.next) || s.ring.next == lastShot)
    && (s.ring.roster.all fun e => e.shot != lastShot)

theorem ringOk_of_check {s : State} (h : ringCheck s = true) : s.ringOk := by
  simp only [ringCheck, Bool.and_eq_true, beq_iff_eq, List.all_eq_true, decide_eq_true_eq, bne_iff_ne, Bool.or_eq_true] at h
  obtain ⟨⟨⟨⟨⟨⟨h1, h2⟩, h3⟩, h4⟩, h5⟩, h6⟩, h7⟩ := h
  refine ⟨h1, h2, ?_, ?_, h5, h6, h7⟩
  · intro i x hx
    have hi : i < 8 := by
      rw [← h1]
      exact (List.getElem?_eq_some_iff.mp hx).1
    have := h3 i (List.mem_range.mpr hi)
    simp only [hx, List.any_eq_true, Bool.and_eq_true, beq_iff_eq] at this
    exact this
  · intro e he
    have := h4 e he
    split at this
    · rename_i x hx
      exact ⟨x, hx, by simpa using this⟩
    · cases this

theorem noOutcomeDue_of {s : State} (h : s.slot? s.capture.current = none) : s.noOutcomeDue := by
  intro x hx
  rw [h] at hx
  cases hx

theorem allOf {α : Type} {o : Option α} {P : α → Prop} (h : ∀ x ∈ o.toList, P x) (x : α) (hx : o = some x) : P x :=
  h x (by rw [hx]; exact List.mem_singleton.mpr rfl)

/-! ## The statements' hypotheses are met -/

theorem test_witness_step : ({ ready with pending := [.tapEdge, .noticeAdmit] } : State).pending = .tapEdge :: [.noticeAdmit] := rfl

def idle (n : Nat) : State := { ready with clock := { ready.clock with sinceFine := n } }

theorem test_witness_step_empty :
    (dueTimer .roll ready).pending = [] ∧ (dueTimer .roll ready).dueStep = some .rollWindowExpiry ∧
    (idle 9).pending = [] ∧ (idle 9).dueStep = none ∧ 9 ≤ (idle 9).clock.sinceFine ∧
    (idle 8).pending = [] ∧ (idle 8).dueStep = none ∧ (idle 8).clock.sinceFine < 9 := by decide

theorem test_witness_reset_start : ready.card.medium = none ∧ ready.pending = [] ∧ ready ≠ State.reset := by decide

def sixth : Straps := { number := 6#3, fitted := fits }
def blankCard (n : Nat) : Medium := { capacity := n, bytes := [] }
def carded (m : Medium) (st : CardState) (s : State) : State :=
  { s with card := { s.card with letter := some .a, medium := some m, state := st } }

theorem test_witness_start :
    (resetStraps.number ≠ 6#3 ∧ resetStraps.number ≠ 7#3 ∧ (resetStraps.fitted.card = false ∨ ready.card.medium = none)) ∧
    (resetStraps.number ≠ 6#3 ∧ resetStraps.number ≠ 7#3 ∧ resetStraps.fitted.card = true ∧
      (carded (blankCard 1) .ready ready).card.medium ≠ none) ∧ sixth.number = 6#3 := by decide

def urgentHead : Queued := { frame := { dst := 15#4, msg := .openShot 1#32 5#64 }, spoils := 0 }
def segmentHead (spoils : Nat) (cancelled : Bool) : Bulk :=
  { frame := { dst := 1#4, msg := .segment (segmentOf [1#8]) }, spoils := spoils, cancelled := cancelled }
def queues (u c : List Queued) (b : Option Bulk) : State := { ready with link := { ready.link with urgent := u, control := c, bulk := b } }

theorem test_witness_offer :
    (onLink (.hearing true) ready).link.phase ≠ .free ∧
    ((queues [] [] none).link.phase = .free ∧ (queues [] [] none).link.detached = false ∧ (queues [] [] none).power.state ≠ .sleep) ∧
    (queues [urgentHead] [] none).link.urgent = urgentHead :: [] ∧
    ((queues [] [queuedMark] none).link.urgent = [] ∧ (queues [] [queuedMark] none).link.control = queuedMark :: []) ∧
    ((queues [] [] (some (segmentHead 0 false))).link.urgent = [] ∧ (queues [] [] (some (segmentHead 0 false))).link.control = [] ∧
      (queues [] [] (some (segmentHead 0 false))).capture.quiet = [] ∧
      (queues [] [] (some (segmentHead 0 false))).link.bulk = some (segmentHead 0 false)) ∧
    ({ ready with capture := { ready.capture with quiet := [0#3] } } : State).capture.quiet ≠ [] := by decide

def fromNode (m : Msg) : WireFrame := frameOf 1#3 m

theorem test_witness_arbitration :
    ((queues [urgentHead] [] none).link.phase = .free ∧ (queues [urgentHead] [] none).link.detached = false ∧
      (queues [urgentHead] [] none).power.state ≠ .sleep ∧ (queues [urgentHead] [] none).link.urgent = urgentHead :: []) ∧
    (urgentHead.frame.msg.cls = (fromNode (.openShot 1#32 0#64)).cls ∧
      (queues [urgentHead] [] none).self < (fromNode (.openShot 1#32 0#64)).src) ∧
    urgentHead.frame.msg.cls < (fromNode (.restart false)).cls ∧
    ({ urgentHead with frame := { dst := 15#4, msg := .mark 0#64 } } : Queued).frame.msg.cls > (fromNode (.openShot 1#32 0#64)).cls ∧
    ready.link.phase = .free ∧ (onLink (.hearing false) ready).link.phase = .hearing false ∧
    (onLink (.hearing true) ready).link.phase ≠ .free ∧ (onLink (.hearing true) ready).link.phase ≠ .hearing false := by decide

def goodMark : WireFrame := fromNode (.mark 7#64)

theorem test_witness_bad_frames :
    (onLink (.hearing false) ready).link.phase = .hearing false ∧
    ((onLink (.hearing true) ready).link.phase = .hearing true ∧ (onLink (.hearing true) ready).power.state ≠ .sleep) ∧
    ({ goodMark with sum := some 0#16 } : WireFrame).faulty = true ∧ goodMark.faulty = false ∧
    ({ goodMark with sum := some (frameSum goodMark.dst 0x3F#8 goodMark.len goodMark.body), kind := 0x3F#8 } : WireFrame).faulty = false ∧
    ({ goodMark with sum := some (frameSum goodMark.dst 0x3F#8 goodMark.len goodMark.body), kind := 0x3F#8 } : WireFrame).malformed = true ∧
    ((Frame.wire 1#3 { dst := 3#4, msg := .claim 0#8 1#32 1#8 }).faulty = false ∧
      (Frame.wire 1#3 { dst := 3#4, msg := .claim 0#8 1#32 1#8 }).malformed = false ∧
      (Frame.wire 1#3 { dst := 3#4, msg := .claim 0#8 1#32 1#8 }).dst ≠ nodeDst (onLink (.hearing true) ready).self ∧
      (Frame.wire 1#3 { dst := 3#4, msg := .claim 0#8 1#32 1#8 }).dst ≠ 15#4 ∧
      (Frame.wire 1#3 { dst := 3#4, msg := .claim 0#8 1#32 1#8 }).kind ∉ [0x20#8, 0x21#8, 0x24#8, 0x25#8, 0x40#8, 0x41#8]) := by
  decide

theorem test_witness_own_frames :
    goodMark.faulty = false ∧ (onLink (.sending .urgent false) (queues [{ urgentHead with spoils := 14 }] [] none)).power.state ≠ .sleep ∧
    (onLink (.sending .urgent false) (queues [{ urgentHead with spoils := 14 }] [] none)).link.urgent = { urgentHead with spoils := 14 } :: [] ∧
    (onLink (.sending .urgent false) (queues [{ urgentHead with spoils := 15 }] [] none)).link.urgent = { urgentHead with spoils := 15 } :: [] ∧
    (onLink (.sending .control false) (queues [] [{ queuedMark with spoils := 14 }] none)).link.control = { queuedMark with spoils := 14 } :: [] ∧
    (onLink (.sending .control false) (queues [] [{ queuedMark with spoils := 15 }] none)).link.control = { queuedMark with spoils := 15 } :: [] ∧
    (onLink (.sending .bulk false) (queues [] [] (some (segmentHead 14 false)))).link.bulk = some (segmentHead 14 false) ∧
    (onLink (.sending .bulk false) (queues [] [] (some (segmentHead 14 true)))).link.bulk = some (segmentHead 14 true) ∧
    (onLink (.sending .bulk false) (queues [] [] (some (segmentHead 15 false)))).link.bulk = some (segmentHead 15 false) := by decide

def wakeFrame : WireFrame := fromNode (.wake 1#8 .panel)

theorem test_witness_frame_end :
    (goodMark.faulty = false ∧ goodMark.malformed = false ∧ goodMark.dst = 15#4 ∧
      Msg.parse goodMark.kind goodMark.body = some (.mark 7#64) ∧
      takenAs goodMark.src true 9#64 (.mark 7#64) = some (.markTaken 1#3 7#64 9#64)) ∧
    ready.power.state ≠ .sleep ∧ (onLink (.hearing true) ready).link.phase = .hearing true ∧
    (onLink (.sending .urgent false) ready).link.phase = .sending .urgent false ∧
    (onLink (.sending .control false) ready).link.phase = .sending .control false ∧
    ((power .sleep ready).power.state = .sleep ∧ wakeFrame.faulty = false ∧ wakeFrame.malformed = false ∧
      Msg.parse wakeFrame.kind wakeFrame.body = some (.wake 1#8 .panel) ∧ wakeFrame.kind = 0x39#8 ∧ goodMark.kind ≠ 0x39#8) := by
  decide

def heldBack : State :=
  { ready with link := { ready.link with urgentHeld := [urgentHead.frame], controlHeld := [queuedMark.frame] } }

theorem test_witness_held : heldBack.link.urgentHeld = urgentHead.frame :: [] ∧ heldBack.link.controlHeld = queuedMark.frame :: [] := by
  decide

def noticed : State :=
  { ready with notices := { records := (List.replicate 11 none).set 10 (some { data := .halted 1#32 .ringFull, count := 1 }) } }

theorem test_witness_notice :
    noticed.inForce ∧ noticed.link.control.length < 24 ∧ noticed.link.controlHeld = [] ∧
    noticed.notices.records.getD 10 none = some { data := .halted 1#32 .ringFull, count := 1 } ∧
    1 ≤ noticed.settings.noticeLevels.getD 10 0 ∧
    ∀ j, j < 11 → (noticed.notices.records.getD j none).isSome → 1 ≤ noticed.settings.noticeLevels.getD j 0 →
      noticed.settings.noticeLevels.getD j 0 < noticed.settings.noticeLevels.getD 10 0
        ∨ (noticed.settings.noticeLevels.getD j 0 = noticed.settings.noticeLevels.getD 10 0 ∧ 10 ≤ j) := by decide

theorem test_witness_roll_in_rolling :
    ((rolling true).power.state ≠ .sleep ∧ (rolling true).member.state = .rolling) ∧
    (6#8 ≠ (1#3).setWidth 8 ∨ 5 < (6#8).toNat ∨ 1#32 = 0#32) ∧
    (5#8 = (5#3).setWidth 8 ∧ (5#8).toNat ≤ 5 ∧ 1#32 ≠ 0#32 ∧ (rolling true).member.table.Pairwise (fun a b => a.number < b.number)) ∧
    (rolling true).member.ownRollOut = true ∧
    (rolling false).member.ownRollOut = false ∧ ¬(5#3 = (rolling false).self ∧ 1#32 = (rolling false).member.serial) ∧
    (0#3 = (rolling false).self ∧ 1#32 = (rolling false).member.serial) := by decide

theorem test_witness_roll_running :
    (5#3).toNat ≤ 5 ∧ (station .excluded).member.state = .excluded ∧ ready.inForce ∧
    ((∃ m ∈ ready.member.table, m.number = 1#3 ∧ m.serial = 2#32) ∧ ∀ m ∈ ready.link.controlMsgs, isRoll m = false) ∧
    (∃ m ∈ State.reset.link.controlMsgs, isRoll m = true) ∧
    (∀ m ∈ ready.member.table, m.number = 1#3 → m.serial ≠ 9#32) := by decide

def rollEnding (m : Membership → Membership) : State :=
  dueTimer .roll { rolling true with member := m (rolling true).member }
def doubled : Membership → Membership := fun m => { m with table := [{ number := 0#3, serial := 1#32, fitted := fits, duplicated := true }] }
def kept (l : List (Node × Word32)) : Membership → Membership := fun m => { m with retainedValid := true, retained := l }

theorem test_witness_roll_timer :
    ((rollEnding id).member.state = .rolling ∧ (rollEnding id).member.ownRollOut = true ∧ ((rollEnding id).timer .roll).due = true) ∧
    (∃ m ∈ (rollEnding doubled).member.table, m.duplicated = true) ∧
    ((∀ m ∈ (rollEnding id).member.table, m.duplicated = false) ∧ (rollEnding id).member.retainedValid = false) ∧
    ((rollEnding (kept [(0#3, 1#32), (1#3, 2#32)])).member.retainedValid = true ∧
      (rollEnding (kept [(0#3, 1#32), (1#3, 2#32)])).member.table.map (fun m => (m.number, m.serial)) =
        (rollEnding (kept [(0#3, 1#32), (1#3, 2#32)])).member.retained) ∧
    (rollEnding (kept [])).member.table.map (fun m => (m.number, m.serial)) ≠ (rollEnding (kept [])).member.retained ∧
    ((rolling false).member.state = .rolling ∧ (rolling false).member.ownRollOut = false) := by decide

theorem test_witness_roll_ring : (rollEnding (kept [])).ringOk := ringOk_of_check (by decide)

def strapped (n : Node) (s : State) : State := { s with member := { s.member with straps := { s.member.straps with number := n } } }

theorem test_witness_restart :
    (power .sleep ready).power.state = .sleep ∧ (strapped 6#3 ready).self = 6#3 ∧ (strapped 7#3 ready).self = 7#3 ∧
    (ready.power.state ≠ .sleep ∧ ready.self ≠ 6#3 ∧ ready.self ≠ 7#3) := by decide

def alarmAt (t : Time) (s : State) : State := { s with clock := { s.clock with alarm := some t } }

theorem test_witness_marks :
    ready.takesMarks ∧ 5#64 ≤ 5#64 ∧ 4#64 < 5#64 ∧ (∀ T, (alarmAt 2#64 ready).clock.alarm = some T → 1#64 < T) ∧
    (∀ T, (alarmAt 1#64 ready).clock.alarm = some T → T ≤ 1#64) ∧
    (((dueTimer .mark ready).timer .mark).due = true ∧ (dueTimer .mark ready).member.state = .ready ∧
      ∀ m ∈ (dueTimer .mark ready).link.controlMsgs, isMark m = false) ∧
    (((dueTimer .mark (rolling true)).timer .mark).due = true ∧ (dueTimer .mark (rolling true)).member.state = .rolling) ∧
    (∃ m ∈ (dueTimer .mark (queues [] [queuedMark] none)).link.controlMsgs, isMark m = true) :=
  ⟨by decide, by decide, by decide, by rintro T ⟨⟩; decide, by rintro T ⟨⟩; decide, by decide, by decide, by decide⟩

def ticks (fine milli coarse : Nat) : State :=
  { ready with clock := { ready.clock with sinceFine := fine, sinceMilli := milli, sinceCoarse := coarse } }

theorem test_witness_tap_edge :
    ((ticks 9 98 99).clock.sinceFine < 10 ∧ (ticks 9 98 99).clock.sinceMilli + 1 < 100) ∧
    (100 ≤ (ticks 9 99 98).clock.sinceMilli + 1 ∧ (ticks 9 99 98).clock.sinceCoarse + 1 < 100) ∧
    (100 ≤ (ticks 9 99 99).clock.sinceMilli + 1 ∧ 100 ≤ (ticks 9 99 99).clock.sinceCoarse + 1) ∧
    (∀ T, (alarmAt 2#64 (ticks 9 0 0)).clock.alarm = some T →
      (alarmAt 2#64 (ticks 9 0 0)).clock.linkTime.toNat + (10 - (alarmAt 2#64 (ticks 9 0 0)).clock.sinceFine) < T.toNat) :=
  ⟨by decide, by decide, by decide, by rintro T ⟨⟩; decide⟩

def pulseAt (n : Nat) : State := { ready with clock := { ready.clock with pulse := some n } }

theorem test_witness_alarm :
    ((alarmAt 0#64 ready).clock.alarm = some 0#64 ∧ (0#64) ≤ (alarmAt 0#64 ready).clock.linkTime) ∧
    ((alarmAt 9#64 ready).clock.alarm = some 9#64 ∧ (alarmAt 9#64 ready).clock.linkTime < 9#64 ∧
      (9#64).toNat - (alarmAt 9#64 ready).clock.linkTime.toNat < 10 - (alarmAt 9#64 ready).clock.sinceFine) ∧
    ready.clock.alarm = none ∧ (pulseAt 1999).clock.pulse = some 1999 ∧ (pulseAt 1998).clock.pulse ≠ some 1999 ∧
    (pulseAt 1999).clock.sinceFine < 10 := by decide

/-- A change under test whose interval is over at its next sample. -/
def whole : Candidate := { since := 50#64, samples := 50, interval := 500 }
def unwired (s : State) : State :=
  { s with member := { s.member with straps := { s.member.straps with fitted := { card := true, release := false, sync := false } } } }
def accepted (a : Option Level) (c : Option Candidate) : State := { ready with sync := { accepted := a, candidate := c, bounces := 254 } }

theorem test_witness_sync_samples :
    (unwired ready).member.straps.fitted.sync = false ∧ (ready.member.straps.fitted.sync = true ∧ ready.power.state ≠ .sleep) ∧
    (accepted none none).sync.accepted = none ∧
    ((accepted (some .low) none).sync.accepted = some .low ∧ (accepted (some .low) none).sync.candidate = none) ∧
    ((accepted (some .low) (some whole)).sync.accepted = some .low ∧ (accepted (some .low) (some whole)).sync.candidate = some whole) ∧
    (accepted (some .low) none).sync.accepted = some (Level.other .high) ∧
    ({ whole with samples := 49 } : Candidate).samples * 10 < whole.interval ∧ whole.interval ≤ whole.samples * 10 := by decide

def attributing (s : State) : State :=
  { s with clock := { s.clock with timers := s.clock.timers.upd (Timer.load 200) .attribution } }
def closing (s : State) : State := underTest .high s
def observing : State := closing (exposing ready)
def handOf (o : Option Time) : Exposure := { shot := 1#32, ownEdge := o, ownStart := 100#64, shutter := 8000, limit := false }

theorem test_witness_observation :
    observing.maturing observing.settings.syncPolarity.closedLevel whole ∧
    (observing.capture.exposure = some (handOf none) ∧ (handOf none).ownEdge = none ∧
      observing.slot? (handOf none).shot = some (slotOf 1#32 .exposing) ∧ (slotOf 1#32 .exposing).outcome = none) ∧
    ((observing.timer .attribution).running = false ∧ observing.capture.state = .exposing) ∧
    (((attributing observing).timer .attribution).running = true ∧ (handOf none).shot = (attributing observing).capture.current) ∧
    ((attributing (closing ready)).maturing .low whole ∧ ((attributing (closing ready)).timer .attribution).running = true ∧
      (attributing (closing ready)).capture.exposure = none) ∧
    ((closing (capturing .halted)).maturing .low whole ∧ ((closing (capturing .halted)).timer .attribution).running = false ∧
      (closing (capturing .halted)).capture.state = .halted) ∧
    (closing (capturing .disarmed)).capture.state = .disarmed := by decide

def armedState : State := capturing .armed
/-- The last shot number that can be admitted is the next one. -/
def armedLast : State := { armedState with ring := { armedState.ring with next := 0xFFFFFFFE#32 } }

theorem test_witness_closing_trigger :
    (closing armedLast).maturing (closing armedLast).settings.syncPolarity.closedLevel whole ∧
    ((closing armedLast).timer .attribution).running = false ∧ (closing armedLast).capture.state = .armed ∧
    (closing armedLast).noOutcomeDue ∧ (closing armedLast).ring.next ≠ lastShot ∧
    (closing armedLast).ring.slots.getD (((closing armedLast).ring.top + 1) % 8) none = none ∧
    ¬(closing armedLast).placesAtAdmission :=
  ⟨by decide, by decide, by decide, noOutcomeDue_of (by decide), by decide, by decide, by decide⟩

theorem test_witness_open_trigger :
    armedLast.inForce ∧ armedLast.ring.next ≤ 0xFFFFFFFE#32 ∧ 0xFFFFFFFE#32 ≠ lastShot ∧ armedLast.capture.state = .armed ∧
    armedLast.noOutcomeDue ∧ armedLast.ringOk ∧ armedLast.ring.slots.getD ((armedLast.ring.top + 1) % 8) none = none ∧
    ¬armedLast.placesAtAdmission :=
  ⟨by decide, by decide, by decide, by decide, noOutcomeDue_of (by decide), ringOk_of_check (by decide), by decide, by decide⟩

/-- Armed, with every slot taken, or every slot but the one at TOP. -/
def crowded (full : Bool) : State :=
  { armedState with ring := { armedState.ring with
      slots := (if full then some (slotOf 8#32 .held) else none) ::
        [1#32, 2#32, 3#32, 4#32, 5#32, 6#32, 7#32].map fun n => some (slotOf n .held)
      top := 0, next := 9#32 } }

theorem test_witness_refused :
    (armedState.inForce ∧ armedState.ring.next ≤ lastShot ∧ armedState.capture.current ≠ lastShot ∧ armedState.entry? lastShot = none ∧
      armedState.slot? lastShot = none ∧ armedState.capture.state ≠ .darkExposing ∧ armedState.capture.state ≠ .darkReading) ∧
    ((capturing .halted).inForce ∧ (capturing .halted).ring.next ≤ 0xFFFFFFFE#32 ∧ (capturing .halted).capture.state = .halted) ∧
    (capturing .disarmed).capture.state = .disarmed ∧
    ((capturing .exposing).inForce ∧ (capturing .exposing).capture.state = .exposing) ∧ (capturing .reading).capture.state = .reading ∧
    ((crowded false).inForce ∧ (crowded false).ring.next ≤ 9#32 ∧ (crowded false).entry? 9#32 = none ∧ (crowded false).slot? 9#32 = none ∧
      (crowded false).capture.state = .armed ∧
      ((crowded false).ring.slots.getD (((crowded false).ring.top + 1) % 8) none).isSome = true ∧
      ∃ o ∈ (crowded false).ring.slots, o = none) ∧
    ((crowded true).inForce ∧ (crowded true).ring.next ≤ 9#32 ∧ (crowded true).entry? 9#32 = none ∧ (crowded true).slot? 9#32 = none ∧
      (crowded true).capture.state = .armed ∧
      ((crowded true).ring.slots.getD (((crowded true).ring.top + 1) % 8) none).isSome = true ∧
      ∀ o ∈ (crowded true).ring.slots, o ≠ none) := by decide

theorem test_witness_refused_outcomes :
    armedState.noOutcomeDue ∧ (capturing .halted).noOutcomeDue ∧ (capturing .exposing).noOutcomeDue ∧ (crowded true).noOutcomeDue ∧
    (crowded false).noOutcomeDue :=
  ⟨noOutcomeDue_of (by decide), noOutcomeDue_of (by decide), noOutcomeDue_of (by decide), noOutcomeDue_of (by decide),
    noOutcomeDue_of (by decide)⟩

def darkOf (p : DarkPhase) : DarkCapture := { phase := p, shot := 1#32, duration := 2000, captureEnd := some 150#64, scanned := 0 }
def darkening (c : CaptureState) (p : DarkPhase) (tag : Tag) : State :=
  { holding tag none none ready with
    capture := { ready.capture with state := c, current := 1#32 }
    dark := { ready.dark with capture := some (darkOf p) } }

theorem test_witness_abandon :
    ((darkening .darkExposing .exposing .raw).inForce ∧ (darkening .darkExposing .exposing .raw).ring.next ≤ 2#32 ∧ 2#32 ≠ lastShot ∧
      (darkening .darkExposing .exposing .raw).capture.state = .darkExposing ∧
      (darkening .darkExposing .exposing .raw).dark.capture = some (darkOf .exposing)) ∧
    ((darkening .darkReading .scanning .raw).capture.state = .darkReading ∧
      (darkening .darkReading .scanning .raw).dark.capture = some (darkOf .scanning)) ∧
    ({ (darkening .darkReading .scanning .raw).capture with haltPending := true } : Capture).settledState ≠ .armed := by decide

def pulseMode (s : State) : State :=
  { s with member := { s.member with settings := { s.settings with syncMode := .pulse } } }

theorem test_witness_integration_end :
    ((exposing ready).inForce ∧ (exposing ready).capture.state = .exposing ∧ (exposing ready).capture.exposure = some (handOf none) ∧
      (exposing ready).slot? 1#32 = some (slotOf 1#32 .exposing) ∧ (exposing ready).entry? 1#32 = some (entryOf 1#32 none none)) ∧
    ((underTest .low (exposing ready)).maturing (underTest .low (exposing ready)).settings.syncPolarity.openLevel whole ∧
      (underTest .low (exposing ready)).settings.syncMode = .follow) ∧
    (entryOf 1#32 none none).agreedClose = none ∧
    ((dueTimer .pulse (pulseMode (exposing ready))).expires .pulse ∧
      (dueTimer .pulse (pulseMode (exposing ready))).settings.syncMode = .pulse) ∧
    (dueTimer .exposureLimit (exposing ready)).expires .exposureLimit := by decide

theorem test_witness_integration_ring :
    (exposing ready).ringOk ∧ (underTest .low (exposing ready)).ringOk ∧ (dueTimer .pulse (pulseMode (exposing ready))).ringOk ∧
    (dueTimer .exposureLimit (exposing ready)).ringOk :=
  ⟨ringOk_of_check (by decide), ringOk_of_check (by decide), ringOk_of_check (by decide), ringOk_of_check (by decide)⟩

theorem test_witness_close :
    (ready.inForce ∧ ready.capture.state ≠ .exposing ∧ ready.entry? 1#32 = none) ∧ (pulseMode ready).settings.syncMode = .pulse ∧
    ((holding .raw none none ready).inForce ∧ (holding .raw none none ready).capture.state ≠ .exposing ∧
      (holding .raw none none ready).entry? 1#32 = some (entryOf 1#32 none none) ∧
      (holding .raw none none ready).settings.syncMode = .follow) ∧
    (∀ x, (exposing ready).capture.exposure = some x → x.shot ≠ 2#32) :=
  ⟨by decide, by decide, by decide, by rintro x ⟨⟩; decide⟩

theorem test_witness_refuse :
    ((exposing ready).inForce ∧ 1#32 < (exposing ready).ring.next ∧ (exposing ready).capture.exposure = some (handOf none) ∧
      (handOf none).shot = 1#32 ∧ (exposing ready).capture.state = .exposing ∧ (exposing ready).ringOk ∧
      ∃ y, (exposing ready).slot? 1#32 = some y ∧ (y.tag = .exposing ∨ y.tag = .reading)) ∧
    ((holding .raw none none ready).inForce ∧ 1#32 < (holding .raw none none ready).ring.next ∧
      (∀ x, (holding .raw none none ready).capture.exposure = some x → x.shot ≠ 1#32) ∧
      ∀ y, (holding .raw none none ready).slot? 1#32 = some y → y.tag ≠ .exposing ∧ y.tag ≠ .reading) :=
  ⟨⟨by decide, by decide, by decide, by decide, by decide, ringOk_of_check (by decide), slotOf 1#32 .exposing, by decide⟩,
    by decide, by decide, by rintro x ⟨⟩, by rintro y ⟨⟩; decide⟩

def quieted (l : List Node) (s : State) : State := { s with capture := { s.capture with quiet := l } }

theorem test_witness_quiet :
    (ready.inForce ∧ 1#32 ≠ ready.capture.current) ∧ (1#3 ∉ ready.capture.quiet) ∧
    ((quieted [1#3] ready).inForce ∧ 0#32 = (quieted [1#3] ready).capture.current ∧ 1#3 ∈ (quieted [1#3] ready).capture.quiet ∧
      1#3 ∈ (quieted [1#3] ready).memberNumbers) ∧
    (dueTimer .quiet (quieted [1#3] ready)).expires .quiet := by decide

def withEdge (o : Option Time) (s : State) : State := { s with capture := { s.capture with exposure := some (handOf o), current := 1#32 } }
/-- Shot 1, agreed open at 100, at the end of its window, with an own edge. -/
def windowEnd (o : Option Time) : State := dueTimer .attribution (withEdge o (holding .exposing none none ready))

theorem test_witness_outcome :
    ((dueTimer .attribution ready).expires .attribution ∧ (dueTimer .attribution ready).slot? (dueTimer .attribution ready).capture.current = none) ∧
    ((windowEnd none).expires .attribution ∧ (windowEnd none).slot? (windowEnd none).capture.current = some (slotOf 1#32 .exposing) ∧
      (windowEnd none).entry? (windowEnd none).capture.current = some (entryOf 1#32 none none) ∧
      (entryOf 1#32 none none).agreedOpen = some 100#64 ∧ (slotOf 1#32 .exposing).outcome = none ∧
      (slotOf 1#32 .exposing).tag ≠ .raw) ∧
    ({ slotOf 1#32 .exposing with outcome := some .equal } : Slot).outcome ≠ none ∧
    ((windowEnd (some 301#64)).capture.exposure = some (handOf (some 301#64)) ∧
      ((windowEnd none).settings.skewTolerance : Int) < ((301#64 : Time).toNat : Int) - (100#64 : Time).toNat) ∧
    (((300#64 : Time).toNat : Int) - (100#64 : Time).toNat ≤ (windowEnd none).settings.skewTolerance ∧
      -((windowEnd none).settings.skewTolerance : Int) ≤ ((300#64 : Time).toNat : Int) - (100#64 : Time).toNat) ∧
    ((0#64 : Time).toNat : Int) - (201#64 : Time).toNat < -((windowEnd none).settings.skewTolerance : Int) := by decide

theorem test_witness_outcome_ring : (dueTimer .attribution ready).ringOk ∧ (windowEnd none).ringOk :=
  ⟨ringOk_of_check (by decide), ringOk_of_check (by decide)⟩

theorem test_witness_outcome_unobserved :
    ∀ k, (windowEnd none).capture.exposure = some k → k.shot = (windowEnd none).capture.current → k.ownEdge = none := by
  rintro k ⟨⟩ _; rfl

def timed (d : Int) (e : Entry) : Entry := { e with agreedClose := some 200#64, agreedDuration := some d }
/-- Shot 1, read, with an agreed duration. -/
def readOut (d : Int) : State :=
  { reading ready with ring := { (reading ready).ring with roster := [timed d (entryOf 1#32 none none)] } }

theorem test_witness_readout :
    ((readOut 999999).capture.state = .reading ∧ (readOut 999999).capture.exposure = some (handOf none) ∧
      (readOut 999999).slot? 1#32 = some (slotOf 1#32 .reading) ∧
      (readOut 999999).entry? 1#32 = some (timed 999999 (entryOf 1#32 none none)) ∧
      (timed 999999 (entryOf 1#32 none none)).agreedDuration = some 999999 ∧ (timed 999999 (entryOf 1#32 none none)).agreedClose ≠ none ∧
      (∀ p ∈ (timed 999999 (entryOf 1#32 none none)).parts, p.placement ≠ .committed) ∧ (slotOf 1#32 .reading).tag = .reading ∧
      needsDark (readOut 999999).settings 999999 = false) ∧
    (needsDark (readOut 1000000).settings 1000000 = true ∧ (readOut 1000000).darkFits 1000000 = false) := by decide

theorem test_witness_readout_ring : (readOut 999999).ringOk ∧ (readOut 1000000).ringOk :=
  ⟨ringOk_of_check (by decide), ringOk_of_check (by decide)⟩

def darkSlot : State := { ready with dark := { ready.dark with valid := true, duration := some 2000000, captureEnd := some 0#64 } }

theorem test_witness_dark_fit :
    (ready.settings.darkThreshold = some 1000 ∧ ({ ready.settings with darkThreshold := none } : Settings).darkThreshold = none) ∧
    (darkSlot.dark.duration = some 2000000 ∧ darkSlot.dark.captureEnd = some 0#64 ∧ 0#64 ≤ darkSlot.clock.linkTime ∧
      darkSlot.darkFits 1777778 = true ∧ darkSlot.darkFits 1777777 = false) := by decide

def scanning (samples : List Sample) (defects : List Defect) : State :=
  { darkening .darkReading .scanning .raw with
    dark := { (darkening .darkReading .scanning .raw).dark with samples := samples, defects := defects } }

theorem test_witness_dark_run :
    ((dueTimer .dark (darkening .darkExposing .exposing .raw)).expires .dark ∧
      (dueTimer .dark (darkening .darkExposing .exposing .raw)).capture.state = .darkExposing) ∧
    ((dueTimer .dark ready).expires .dark ∧ (dueTimer .dark ready).capture.state ≠ .darkExposing) ∧
    ((darkening .darkReading .reading .raw).capture.state = .darkReading ∧
      (darkening .darkReading .reading .raw).dark.capture = some (darkOf .reading) ∧ (darkOf .reading).phase = .reading) ∧
    ((scanning [2048#14, 2049#14] []).dark.capture = some (darkOf .scanning) ∧ (darkOf .scanning).phase = .scanning ∧
      (darkOf .scanning).scanned ≤ 1 ∧ 1 < pixelCount (scanning [2048#14, 2049#14] []).settings ∧
      (scanning [2048#14, 2049#14] []).dark.samples[1]? = some 2049#14 ∧
      (scanning [2048#14, 2049#14] []).settings.hotThreshold < (2049#14).toNat ∧
      (scanning [2048#14, 2049#14] []).dark.samples[0]? = some 2048#14 ∧
      (2048#14).toNat ≤ (scanning [2048#14, 2049#14] []).settings.hotThreshold ∧
      (scanning [2048#14, 2049#14] []).dark.defects.Pairwise (fun a b => a.before b = true) ∧
      (scanning [] [{ row := 0, column := 1, origin := .fixed }]).dark.holds 0 1 = true ∧
      (scanning [2048#14, 2049#14] []).dark.holds 0 1 = false ∧ (scanning [2048#14, 2049#14] []).dark.defects.length < 1024) := by
  decide

theorem test_witness_full_defects : 1024 ≤ (List.replicate 1024 ({ row := 9, column := 9, origin := .hot } : Defect)).length := by
  rw [List.length_replicate]

theorem test_witness_scan_complete :
    (scanning [] []).ringOk ∧ (scanning [] []).dark.capture = some (darkOf .scanning) ∧ (darkOf .scanning).phase = .scanning ∧
    (scanning [2048#14] []).hotAhead (darkOf .scanning) = [] ∧ (darkOf .scanning).shot ≠ 0#32 :=
  ⟨ringOk_of_check (by decide), by decide, by decide, by decide, by decide⟩

def reserving (t : Transfer) (g : Nat) : Option Part := some (partOf .reserved t g)
/-- A station without a card socket, in Ready. -/
def plain (s : State) : State :=
  { s with member := { s.member with straps := { s.member.straps with fitted := { card := false, release := true, sync := true } } } }
def sending (s : State) : State := { s with transfer := { current := some 9#32 } }

theorem test_witness_place :
    ((sending (holding .raw (some (partOf .pending .idle 0)) none ready)).inForce ∧
      (sending (holding .raw (some (partOf .pending .idle 0)) none ready)).entry? 1#32 =
        some (entryOf 1#32 (some (partOf .pending .idle 0)) none) ∧
      (entryOf 1#32 (some (partOf .pending .idle 0)) none).part .a = some (partOf .pending .idle 0) ∧
      (sending (holding .raw (some (partOf .pending .idle 0)) none ready)).transfer.current ≠ none ∧
      (sending (holding .raw (some (partOf .pending .idle 0)) none ready)).card.letter ≠ some .b) ∧
    (sending (holding .raw (some (partOf .pending .idle 0)) none ready)).ringOk ∧
    (entryOf 1#32 (some (partOf .pending .idle 0)) (reserving .idle 0)).part .b = reserving .idle 0 :=
  ⟨by decide, ringOk_of_check (by decide), by decide⟩

theorem test_witness_commit :
    ((holding .raw (reserving .closed 0) none ready).inForce ∧
      (holding .raw (reserving .closed 0) none ready).entry? 1#32 = some (entryOf 1#32 (reserving .closed 0) none) ∧
      (entryOf 1#32 (reserving .closed 0) none).part .a = some (partOf .reserved .closed 0) ∧
      (holding .raw (reserving .closed 0) none ready).slot? 1#32 = some (slotOf 1#32 .raw)) ∧
    (holding .raw (reserving .closed 0) none ready).ringOk ∧
    (∀ k' q, k' ≠ Socket.a → (entryOf 1#32 (reserving .closed 0) none).part k' = some q → q.placement ≠ .reserved) ∧
    (Socket.b ≠ .a ∧ (entryOf 1#32 (reserving .closed 0) (reserving .idle 0)).part .b = reserving .idle 0 ∧
      (holding .raw (reserving .closed 0) (reserving .idle 0) ready).transfer.current ≠ some 1#32) ∧
    (entryOf 1#32 (some (partOf .void .idle 0)) none).part .a = some (partOf .void .idle 0) :=
  ⟨by decide, ringOk_of_check (by decide), (by rintro (_ | _) q h ⟨⟩; exact absurd rfl h), by decide, by decide⟩

theorem test_witness_unplace :
    ((holding .raw (reserving .sending 3) none ready).inForce ∧
      (holding .raw (reserving .sending 3) none ready).entry? 1#32 = some (entryOf 1#32 (reserving .sending 3) none) ∧
      (entryOf 1#32 (reserving .sending 3) none).part .a = some (partOf .reserved .sending 3) ∧
      (holding .raw (reserving .sending 3) none ready).transfer.current ≠ some 1#32 ∧
      (holding .raw (reserving .sending 3) none ready).card.letter ≠ some .b ∧
      ∀ q ∈ (entryOf 1#32 (reserving .sending 3) none).parts, q.placement ≠ .committed) ∧
    (holding .raw (reserving .sending 3) none ready).ringOk :=
  ⟨by decide, ringOk_of_check (by decide)⟩

def rollOf (blocks index write : Nat) : Roll := { identity := 7#32, blocks := blocks, index := index, write := write }
def mounted (r : Roll) (s : State) : State :=
  { carded (blankCard 100) .ready s with card := { (carded (blankCard 100) .ready s).card with roll := some r } }

/-- A shot of two members takes three blocks here: 68 is just enough after 65, and 67 is not. -/
theorem test_witness_reservation :
    ((mounted (rollOf 68 1023 65) ready).card.letter = some .a ∧ (mounted (rollOf 68 1023 65) ready).card.state = .ready ∧
      (mounted (rollOf 68 1023 65) ready).card.roll = some (rollOf 68 1023 65) ∧ (rollOf 68 1023 65).index ≠ 1024 ∧
      (rollOf 68 1023 65).write + shotExtent (mounted (rollOf 68 1023 65) ready).settings (entryOf 1#32 none none).members.length ≤
        (rollOf 68 1023 65).blocks) ∧
    ((mounted (rollOf 68 1024 65) ready).card.roll = some (rollOf 68 1024 65) ∧ (rollOf 68 1024 65).index = 1024) ∧
    ((rollOf 67 1023 65).index ≠ 1024 ∧
      (rollOf 67 1023 65).blocks < (rollOf 67 1023 65).write +
        shotExtent (mounted (rollOf 67 1023 65) ready).settings (entryOf 1#32 none none).members.length) ∧
    (carded (blankCard 1) .unformatted ready).card.state = .unformatted ∧ (carded (blankCard 1) .mounting ready).card.state = .mounting ∧
    (carded (blankCard 1) .ejecting ready).card.state = .ejecting := by decide

def jobOf (p : Phase) (edges : List Edge) : Job :=
  { shot := 1#32, slot := 0, phase := p, base := .blackLevel, snapshot := [], edges := edges, flags := {} }
def developing (p : Phase) (edges : List Edge) : State :=
  { holding .developing none none ready with develop := { ready.develop with job := some (jobOf p edges) } }
def edgeIn (e : EdgeState) : Edge := { dir := .right, neighbour := 1, state := e }

theorem test_witness_phases :
    ((developing .base []).develop.job = some (jobOf .base []) ∧ (jobOf .base []).phase = .base ∧
      (jobOf .base []).slot < (developing .base []).ring.areas.length) ∧
    ((developing .interior []).develop.job = some (jobOf .interior []) ∧ (jobOf .interior []).phase = .interior) ∧
    ((developing .edge [edgeIn .oneSided]).develop.job = some (jobOf .edge [edgeIn .oneSided]) ∧
      (jobOf .edge [edgeIn .oneSided]).phase = .edge ∧ ∀ e ∈ (jobOf .edge [edgeIn .oneSided]).edges, e.state = .oneSided) ∧
    (∃ e ∈ (jobOf .edge [edgeIn .waiting]).edges, e.state = .pending ∨ e.state = .waiting) ∧
    ((developing .gain []).develop.job = some (jobOf .gain []) ∧ (jobOf .gain []).phase = .gain) ∧
    ((developing .finish []).develop.job = some (jobOf .finish []) ∧ (jobOf .finish []).phase = .finish ∧
      (developing .finish []).slot? (jobOf .finish []).shot = some (slotOf 1#32 .developing)) ∧
    ([16383] ≠ [] ∧ ∀ v ∈ [16383], v ≤ 16383) := by decide

theorem test_witness_finish_ring : (developing .finish []).ringOk := ringOk_of_check (by decide)

/-- Its rows number one, so that a band along an upright edge has four samples. -/
def narrow (s : State) : State := { s with member := { s.member with settings := { s.settings with tileRows := 1 } } }
def bandOf (k : Nat) : Band := { neighbour := k, shot := 1#32, samples := [1#16, 2#16, 3#16, 4#16] }
def stored (l : List Band) (s : State) : State := { s with develop := { s.develop with store := l } }

theorem test_witness_seam :
    (ready.inForce ∧ [1#16].length ≠ 4 * edgeLength ready.settings .left) ∧ State.reset.settings.gridShape = none ∧
    ((narrow ready).settings.gridShape ≠ none ∧ (bandOf 1).samples.length = 4 * edgeLength (narrow ready).settings .left) ∧
    neighbour? (narrow ready).settings.gridShape (1#3).toNat .right = none ∧
    (neighbour? (narrow ready).settings.gridShape (1#3).toNat .left = some (narrow ready).self.toNat ∧
      (narrow ready).entry? 1#32 = none) ∧
    (neighbour? (narrow (strapped 1#3 ready)).settings.gridShape (1#3).toNat .left = some 0 ∧
      0 ≠ (narrow (strapped 1#3 ready)).self.toNat) ∧
    ((narrow (holding .raw none none ready)).entry? 1#32 ≠ none ∧
      (narrow (holding .raw none none ready)).edgeFinished 1#3 1#32 = false ∧
      (narrow (holding .raw none none ready)).develop.job = none ∧
      (∀ b ∈ (narrow (holding .raw none none ready)).develop.store, ¬(b.neighbour = (1#3).toNat ∧ b.shot = 1#32)) ∧
      (narrow (holding .raw none none ready)).develop.store.length < 8) ∧
    (narrow (holding .held none none ready)).edgeFinished 1#3 1#32 = true ∧
    8 ≤ (stored (List.replicate 8 (bandOf 2)) (narrow (holding .raw none none ready))).develop.store.length ∧
    ((stored [bandOf 2, bandOf 1] (narrow (holding .raw none none ready))).develop.store = [bandOf 2] ++ bandOf 1 :: [] ∧
      ∀ a ∈ [bandOf 2], ¬(a.neighbour = (1#3).toNat ∧ a.shot = 1#32)) := by decide

theorem test_witness_seam_timer :
    ((dueTimer .seam (developing .edge [edgeIn .oneSided])).expires .seam ∧
      (dueTimer .seam (developing .edge [edgeIn .oneSided])).develop.job = some (jobOf .edge [edgeIn .oneSided]) ∧
      ∀ e ∈ (jobOf .edge [edgeIn .oneSided]).edges, e.state ≠ .waiting) ∧
    ((jobOf .edge [edgeIn .waiting, edgeIn .pending]).edges = [] ++ edgeIn .waiting :: [edgeIn .pending] ∧
      (edgeIn .waiting).state = .waiting ∧ ∀ a ∈ [edgeIn .pending], a.state = .pending) := by decide

def progressOf (m : Node) (expected : Nat) (closed : Bool) (redos : Nat) : Progress :=
  { member := m, expected := expected, running := 0#16, closed := closed, close := none, redos := redos }
def placedOf (p : PlacePhase) (unwritten : Nat) (l : List Progress) : Placed :=
  { shot := 1#32, frameNo := 1, firstBlock := 65, blocks := 3, progress := l, unwritten := unwritten, phase := p }
/-- A card station with a placement of shot 1. -/
def filling (p : Placed) (s : State) : State :=
  { mounted (rollOf 100 1 68) s with card := { (mounted (rollOf 100 1 68) s).card with placements := [p] } }
def granting (l : List GrantRecord) (w : List Claim) (s : State) : State := { s with card := { s.card with grants := l, waiting := w } }
def openPlace : Placed := placedOf .filling 0 [progressOf 0#3 0 false 0, progressOf 1#3 0 false 0]
def claimOf (n : Node) : Claim := { member := n, socket := 1#8, shot := 1#32, count := 1 }
def grantOf (n : Node) (unfilled : Nat) : GrantRecord := { member := n, shot := 1#32, unfilled := unfilled }
/-- All 32 buffers are another member's. -/
def taken : List GrantRecord := [grantOf 5#3 32]

theorem test_witness_claim_stands : (filling openPlace ready).claimStands 1#3 1#8 1#32 8 :=
  ⟨⟨.a, rfl, by decide⟩, by decide, by decide, openPlace, progressOf 1#3 0 false 0, by decide, by decide, by decide, by decide⟩

theorem test_witness_claim :
    ((filling openPlace ready).inForce ∧ (filling openPlace ready).cardStation = true) ∧
    ((granting [grantOf 1#3 2] [] (filling openPlace ready)).card.grant? 1#3 = some (grantOf 1#3 2) ∧ 0 < (grantOf 1#3 2).unfilled ∧
      (granting [grantOf 1#3 2] [] (filling openPlace ready)).card.waiting = []) ∧
    (filling openPlace ready).card.grant? 1#3 = none ∧ 1 ≤ (granting [grantOf 5#3 31] [] (filling openPlace ready)).card.free ∧
    ((granting taken [] (filling openPlace ready)).card.free = 0 ∧
      ∀ q ∈ (granting taken [claimOf 2#3] (filling openPlace ready)).card.waiting, q.member ≠ 1#3) ∧
    ((granting taken [claimOf 2#3, claimOf 1#3] (filling openPlace ready)).card.waiting = [claimOf 2#3] ++ claimOf 1#3 :: [] ∧
      ∀ a ∈ [claimOf 2#3], a.member ≠ 1#3) := by decide

theorem test_witness_claim_stands_not : ¬(filling openPlace ready).claimStands 1#3 1#8 1#32 9 := fun h =>
  absurd h.2.2.1 (by decide)

theorem test_witness_grant :
    ((holding .developed (reserving .sending 1) none ready).inForce ∧ socketOf? 1#8 = some .a ∧
      (holding .developed (reserving .sending 1) none ready).entry? 1#32 = some (entryOf 1#32 (reserving .sending 1) none) ∧
      (entryOf 1#32 (reserving .sending 1) none).part .a = some (partOf .reserved .sending 1) ∧
      (partOf .reserved .sending 1).transfer ≠ .claiming) ∧
    ((holding .developed (reserving .claiming 0) none ready).entry? 1#32 = some (entryOf 1#32 (reserving .claiming 0) none) ∧
      (partOf .reserved .claiming 0).transfer = .claiming ∧ 1 ≤ (8#8).toNat ∧ (8#8).toNat ≤ 8 ∧
      (holding .developed (reserving .claiming 0) none ready).transfer.current ≠ some 1#32) ∧
    (∃ k' q, k' ≠ Socket.a ∧ (entryOf 1#32 (reserving .claiming 0) (reserving .claiming 0)).part k' = some q ∧ q.target = true) ∧
    (∀ k' q, k' ≠ Socket.a → (entryOf 1#32 (reserving .claiming 0) none).part k' = some q → q.target = false) :=
  ⟨by decide, by decide, ⟨.b, partOf .reserved .claiming 0, by decide⟩, by rintro (_ | _) q h ⟨⟩; exact absurd rfl h⟩

def current (n : Shot) (s : State) : State := { s with transfer := { current := some n } }

theorem test_witness_redo :
    (ready.inForce ∧ ready.card.placed? 1#32 = none ∧ ready.entry? 1#32 = none) ∧
    ((filling openPlace ready).cardStation = true ∧ (filling openPlace ready).card.placed? 1#32 = some openPlace ∧
      openPlace.progress? 1#3 = some (progressOf 1#3 0 false 0) ∧ (1#3).setWidth 8 = 1#8 ∧
      (filling openPlace ready).self.setWidth 8 ≠ 1#8 ∧ openPlace.phase = .filling) ∧
    ((filling (placedOf .committing 0 openPlace.progress) ready).card.placed? 1#32 = some (placedOf .committing 0 openPlace.progress) ∧
      (placedOf .committing 0 openPlace.progress).phase = .committing) ∧
    ((current 2#32 (holding .developed (reserving .closed 0) none ready)).inForce ∧
      (current 2#32 (holding .developed (reserving .closed 0) none ready)).card.placed? 1#32 = none ∧
      (current 2#32 (holding .developed (reserving .closed 0) none ready)).self.setWidth 8 = 0#8 ∧
      (current 2#32 (holding .developed (reserving .closed 0) none ready)).entry? 1#32 = some (entryOf 1#32 (reserving .closed 0) none) ∧
      (current 2#32 (holding .developed (reserving .closed 0) none ready)).transfer.current = some 2#32 ∧ 2#32 ≠ 1#32) ∧
    ((current 1#32 (holding .developed (reserving .sending 1) none ready)).transfer.current = some 1#32 ∧
      ∀ p ∈ (entryOf 1#32 (reserving .sending 1) none).parts, p.placement = .reserved → 1 ≤ p.grants) := by decide

def segmentFrame : WireFrame := Frame.wire 0#3 (segmentHead 0 false).frame
def onAir (s : State) : State := { s with link := { s.link with phase := .sending .bulk false, bulk := some (segmentHead 0 false) } }

theorem test_witness_sent_segment :
    (onAir (plain (holding .developed (reserving .sending 2) none ready))).power.state ≠ .sleep ∧
    (onAir (plain (holding .developed (reserving .sending 2) none ready))).cardStation = false ∧ segmentFrame.faulty = false ∧
    segmentFrame.malformed = false ∧ segmentFrame.kind = 0x41#8 ∧ (segmentHead 0 false).frame.msg = .segment (segmentOf [1#8]) ∧
    (onAir (plain (holding .developed (reserving .sending 2) none ready))).link.phase = .sending .bulk false ∧
    (onAir (plain (holding .developed (reserving .sending 2) none ready))).link.bulk = some (segmentHead 0 false) ∧
    (segmentOf [1#8]).close = none ∧
    (onAir (plain (holding .developed (reserving .sending 2) none ready))).entry? (segmentOf [1#8]).shot =
      some (entryOf 1#32 (reserving .sending 2) none) ∧
    ∀ p ∈ (entryOf 1#32 (reserving .sending 2) none).parts, p.target = true → 2 ≤ p.grants := by decide

/-- A narrow tile has 14 bytes, whose sum here is 0707h. -/
def whole14 (sum tileSum : Word16) : SegmentBody :=
  { segmentOf (List.replicate 14 1#8) with
    sum := sum, close := some { tileSum := tileSum, flags := {}, outcome := .equal, skew := 0#32 } }
def receiving (p : Placed) (unfilled : Nat) : State := narrow (granting [grantOf 1#3 unfilled] [] (filling p ready))

theorem test_witness_segment_taken :
    ((receiving openPlace 1).inForce ∧ (receiving openPlace 1).cardStation = true ∧ (receiving openPlace 1).card.letter = some .a ∧
      (receiving openPlace 1).card.waiting = [] ∧ (receiving openPlace 1).card.state ≠ .ejecting ∧
      (receiving openPlace 1).card.placed? (segmentOf [1#8]).shot = some openPlace ∧
      openPlace.progress? 1#3 = some (progressOf 1#3 0 false 0) ∧ (receiving openPlace 1).card.grant? 1#3 = some (grantOf 1#3 1)) ∧
    (grantOf 1#3 0).unfilled = 0 ∧
    ((segmentOf [1#8]).tile = (1#3).setWidth 8 ∧ (grantOf 1#3 1).shot = (segmentOf [1#8]).shot ∧ 0 < (grantOf 1#3 1).unfilled ∧
      openPlace.phase = .filling ∧ (progressOf 1#3 0 false 0).closed = false) ∧
    (placedOf .committing 0 []).phase = .committing ∧
    ((segmentOf [1#8]).openFlag = true ∧ (segmentOf [1#8]).offset = 0#32 ∧ (progressOf 1#3 8192 false 0).expected ≠ 0) ∧
    (({ segmentOf [1#8] with offset := 1#32 } : SegmentBody).offset.toNat ≠ (progressOf 1#3 0 false 0).expected ∧
      ({ segmentOf [1#8] with offset := 1#32 } : SegmentBody).offset ≠ 0#32) ∧
    ((segmentOf [1#8]).offset.toNat = (progressOf 1#3 0 false 0).expected ∧ (progressOf 1#3 0 false 0).expected = 0 ∧
      (receiving openPlace 1).segmentFits (segmentOf [1#8]) = false) := by decide

theorem test_witness_segment_sums :
    ((receiving openPlace 1).segmentFits (whole14 0#16 0#16) = true ∧ (whole14 0#16 0#16).sum = 0#16 ∧
      (progressOf 1#3 0 false 2).redos < 3 ∧ 3 ≤ (progressOf 1#3 0 false 3).redos) ∧
    ((receiving openPlace 1).segmentFits (whole14 0x707#16 0x707#16) = true ∧ (whole14 0x707#16 0x707#16).sum ≠ 0#16 ∧
      recorded (sumBytes (whole14 0x707#16 0x707#16).payload) = (whole14 0x707#16 0x707#16).sum ∧
      onesAdd (progressOf 1#3 0 false 0).running (whole14 0x707#16 0x707#16).sum = 0x707#16) ∧
    onesAdd (progressOf 1#3 0 false 0).running (whole14 0x707#16 0x708#16).sum ≠ 0x708#16 := by decide

def writeOf (k : WriteKind) (cancelled : Bool) : Write :=
  { kind := k, shot := 1#32, frameNo := 1, address := 65 * 512, data := [1#8], cancelled := cancelled }
def writing (w : Write) (p : Placed) (s : State) : State :=
  { filling p s with card := { (filling p s).card with writes := [w] } }
def allClosed : Placed := placedOf .filling 1 [progressOf 0#3 112 true 0, progressOf 1#3 112 true 0]

theorem test_witness_card_writes :
    ((writing (writeOf .block true) openPlace ready).card.writes = writeOf .block true :: [] ∧
      (writing (writeOf .block true) openPlace ready).card.letter = some .a ∧
      (writing (writeOf .block true) openPlace ready).card.waiting = [] ∧
      (writing (writeOf .block true) openPlace ready).card.state ≠ .ejecting) ∧
    ((writing (writeOf .block false) openPlace ready).card.placed? (writeOf .block false).shot = some openPlace ∧
      ∃ m ∈ openPlace.progress, m.closed = false) ∧
    ((writing (writeOf .block false) allClosed (holding .raw none none ready)).card.placed? (writeOf .block false).shot = some allClosed ∧
      allClosed.phase = .filling ∧ (∀ m ∈ allClosed.progress, m.closed = true) ∧ allClosed.unwritten = 1 ∧
      (writing (writeOf .block false) allClosed (holding .raw none none ready)).entry? (writeOf .block false).shot =
        some (entryOf 1#32 none none)) ∧
    (writeOf .header false).kind = .header ∧ (writeOf (.index 7#16) false).kind = .index 7#16 ∧
    (writeOf .void false).kind = .void ∧ (writeOf .header false).kind ≠ .block := by decide

def withCard (c : Card) : State := { ready with card := c }
def labelled (blocks : Nat) : Medium := { capacity := 100, bytes := Memory.writeBytes [] 0 (labelBytes labelMagic 7#32 blocks) }

theorem test_witness_card_states :
    (ready.cardStation = true ∧ ready.card.medium = none ∧ ready.card.state = .empty ∧ ready.power.state ≠ .sleep) ∧
    (plain ready).cardStation = false ∧ ready.card.state ≠ .mounting ∧
    ((carded (blankCard 67) .mounting ready).card.state = .mounting ∧
      (carded (blankCard 67) .mounting ready).card.medium = some (blankCard 67) ∧
      (carded (blankCard 67) .mounting ready).ring.roster = [] ∧
      (blankCard 67).capacity < 65 + shotExtent (carded (blankCard 67) .mounting ready).settings
        (max 2 (carded (blankCard 67) .mounting ready).member.table.length)) ∧
    (65 + shotExtent ready.settings (max 2 ready.member.table.length) ≤ (blankCard 68).capacity ∧ labelValid (blankCard 68) = false) ∧
    ((carded (blankCard 1) .formatting ready).card.state = .formatting) ∧
    ((writing (writeOf .block false) openPlace ready).card.state = .ready ∧ (writing (writeOf .block false) openPlace ready).card.writes ≠ []) ∧
    (ready.card.state ≠ .formatting ∧ ready.card.writes = []) ∧
    ((carded (blankCard 1) .ready ready).card.medium ≠ none ∧ (carded (blankCard 1) .ready ready).card.state ≠ .empty) ∧
    ((carded (blankCard 1) .empty ready).card.medium ≠ none ∧ (carded (blankCard 1) .empty ready).card.state = .empty) := by decide

theorem test_witness_label :
    (65 + shotExtent ready.settings (max 2 ready.member.table.length) ≤ (labelled 100).capacity ∧ labelValid (labelled 100) = true ∧
      labelValid (labelled 101) = false) ∧
    (cardIndexEntry (labelled 100).bytes 0).kind = 0 ∧
    (cardIndexEntry (Memory.writeBytes (labelled 100).bytes (indexAddress 1) [3#8]) 0).kind = 3 := by decide +kernel

theorem test_witness_format_eject :
    ready.inForce ∧ (∀ k, ready.card.letter = some k → socketCode k ≠ 1#8) ∧
    ((carded (blankCard 1) .unformatted ready).card.letter = some .a ∧ socketCode .a = 1#8 ∧
      (carded (blankCard 1) .unformatted ready).card.state = .unformatted ∧
      (carded (blankCard 1) .unformatted ready).card.medium = some (blankCard 1)) ∧
    ((mounted (rollOf 100 0 65) ready).card.state = .ready ∧ (mounted (rollOf 100 0 65) ready).card.placements = [] ∧
      (mounted (rollOf 100 0 65) ready).card.writes = []) ∧
    ((filling openPlace ready).card.state = .ready ∧ (filling openPlace ready).card.placements ≠ []) ∧
    (carded (blankCard 1) .failed ready).card.state = .failed ∧ (carded (blankCard 1) .ejecting ready).card.state = .ejecting ∧
    ((carded (blankCard 100) .formatting (mounted (rollOf 100 0 65) ready)).card.state = .formatting ∧
      (carded (blankCard 100) .formatting (mounted (rollOf 100 0 65) ready)).card.medium = some (blankCard 100) ∧
      (carded (blankCard 100) .formatting (mounted (rollOf 100 0 65) ready)).card.roll = some (rollOf 100 0 65) ∧
      (carded (blankCard 100) .formatting (mounted (rollOf 100 0 65) ready)).ring.roster = [] ∧ (blankCard 100).bytes.wf = true) :=
  ⟨by decide, by rintro k ⟨⟩, by decide⟩

theorem test_witness_requests :
    (State.reset.member.state = .rolling ∧ State.reset.member.rejoin = false ∧ State.reset.member.ownRollOut = false ∧
      State.reset.power.state ≠ .sleep) ∧
    (station .excluded).member.state = .excluded ∧ ((station .duplicate).member.state = .duplicate ∧ 0x10#8 ≠ 0x30#8) ∧
    ((rolling true).member.state = .rolling ∧ (rolling true).member.rejoin = true ∧ Req.read 0x10#8 [0#8] = .unreadable) ∧
    (Req.read 0x10#8 [] ≠ .unreadable ∧ Req.read 0x10#8 [] = .arm) ∧ ((station .configuring).member.state = .configuring) ∧
    (ready.member.state = .ready ∧ Req.read 0x02#8 [] ≠ .unreadable) := by decide

def configuring : State := station .configuring
def defects (n : Nat) (s : State) : State :=
  { s with dark := { s.dark with defects := List.replicate n { row := 7, column := 7, origin := .fixed } } }

theorem test_witness_set :
    (configuring.power.state ≠ .sleep ∧ configuring.member.state = .configuring) ∧
    (0x0F#8 ≠ 0x0E#8 ∧ configuring.settings.put 0x0F#8 2 = none) ∧
    (configuring.settings.put 0x0F#8 1 = some { configuring.settings with ringFullPolicy := .halt }) ∧
    (configuring.settings.put 0x02#8 1024 = some { configuring.settings with tileColumns := 1024 } ∧
      (∀ d ∈ configuring.dark.defects, d.row < 8 ∧ d.column < 1024) ∧ configuring.ring.roster = [] ∧ configuring.develop.job = none ∧
      ∀ o ∈ configuring.ring.slots, o = none) ∧
    configuring.settings.tileRows ≤ (0x80000#32).toNat / 65536 ∧
    ((0x70007#32).toNat / 65536 < configuring.settings.tileRows ∧ (0x70007#32).toNat % 65536 < configuring.settings.tileColumns ∧
      configuring.dark.defects.length < 1024) ∧
    (∃ d ∈ (defects 1 configuring).dark.defects, d.row = (0x70007#32).toNat / 65536 ∧ d.column = (0x70007#32).toNat % 65536) := by
  decide

theorem test_witness_set_full : 1024 ≤ (defects 1024 configuring).dark.defects.length := by
  rw [show (defects 1024 configuring).dark.defects = List.replicate 1024 { row := 7, column := 7, origin := .fixed } from rfl,
    List.length_replicate]

/-- Two members of which the second has the number 2 fail the third check and none before it. -/
def misnumbered : Membership :=
  { configuring.member with table := back.set 1 { number := 2#3, serial := 2#32, fitted := fits, duplicated := false } }

theorem test_witness_begin :
    (∀ i, 1 ≤ i → i ≤ 6 → configuring.member.passes i) ∧ (misnumbered.passes 1 ∧ misnumbered.passes 2 ∧ ¬misnumbered.passes 3) := by
  refine ⟨?_, ?_, ?_, ?_⟩
  · intro i h1 h6
    have : i = 1 ∨ i = 2 ∨ i = 3 ∨ i = 4 ∨ i = 5 ∨ i = 6 := by omega
    rcases this with rfl | rfl | rfl | rfl | rfl | rfl
    · show configuring.member.settings.gridShape ≠ none
      decide
    · rintro g ⟨⟩
      rfl
    · intro i e h
      have hi : i < 2 := (List.getElem?_eq_some_iff.mp h).1
      have : i = 0 ∨ i = 1 := by omega
      rcases this with rfl | rfl <;> (cases h; rfl)
    · exact ⟨by decide, by decide⟩
    · exact Or.inl rfl
    · show (configuring.member.table.filter (·.fitted.release)).length ≤ 1
      decide
  · show misnumbered.settings.gridShape ≠ none
    decide
  · rintro g ⟨⟩
    rfl
  · intro h
    exact absurd (h 1 { number := 2#3, serial := 2#32, fitted := fits, duplicated := false } rfl) (by decide)

def pendingHalt (s : State) : State := { s with capture := { s.capture with haltPending := true } }

theorem test_witness_capture_requests :
    (ready.power.state ≠ .sleep ∧ ready.member.state = .ready) ∧ (capturing .halted).capture.state = .halted ∧
    ((capturing .disarmed).capture.haltPending = false ∧ (capturing .disarmed).capture.state = .disarmed) ∧
    armedState.capture.state = .armed ∧ (capturing .reading).capture.state.working = true ∧
    (capturing .halted).capture.state.working = false ∧
    ((pendingHalt (capturing .exposing)).capture.state ≠ .halted ∧ (pendingHalt (capturing .exposing)).capture.haltPending = true) ∧
    (ready.member.straps.fitted.release = true ∧ (unwired ready).member.straps.fitted.release = false) ∧
    (armedState.clock.linkTime.toNat + 60000000 < (60000001#64).toNat ∧ 0#64 ≤ armedState.clock.linkTime ∧
      armedState.clock.linkTime < 60000000#64 ∧ (60000000#64).toNat ≤ armedState.clock.linkTime.toNat + 60000000) ∧
    (100 ≤ (100#32).toNat ∧ (100#32).toNat ≤ 1000000) ∧ (99#32).toNat < 100 ∧ ready.capture.state ≠ .armed ∧
    (1 ≤ (3600000#32).toNat ∧ (3600000#32).toNat ≤ 3600000) ∧ 3600000 < (3600001#32).toNat := by decide

def broadcastHeader : ReqHeader := { tag := 1#8, toAll := true }

theorem test_witness_keep_discard :
    (ready.inForce ∧ ready.entry? 1#32 = none) ∧ (holding .held none none ready).ringOk ∧
    ((holding .raw none none ready).slot? 1#32 = some (slotOf 1#32 .raw) ∧ (slotOf 1#32 .raw).tag ≠ .held) ∧
    ((holding .held none none ready).slot? 1#32 = some (slotOf 1#32 .held) ∧ (slotOf 1#32 .held).tag = .held) ∧
    ({ broadcastHeader with toAll := false } : ReqHeader).toAll = false ∧ broadcastHeader.toAll = true ∧
    (slotOf 1#32 .exposing).tag = .exposing ∧
    ((holding .developing none none ready).slot? 1#32 = some (slotOf 1#32 .developing) ∧ (slotOf 1#32 .developing).tag = .developing) ∧
    ((darkening .darkReading .scanning .raw).dark.capture = some (darkOf .scanning) ∧ (darkOf .scanning).phase = .scanning) ∧
    ((∀ m x, ready.slot? m = some x → x.tag ≠ .developing) ∧ ∀ k, ready.dark.capture = some k → k.phase ≠ .scanning) :=
  ⟨by decide, ringOk_of_check (by decide), by decide, by decide, by decide, by decide, by decide, by decide, by decide,
    (by rintro m x ⟨⟩), by rintro k ⟨⟩⟩

def statistics (x : Stats) (s : State) : State := { s with develop := { s.develop with stats := x } }

theorem test_witness_reports :
    (ready.power.state ≠ .sleep ∧ ready.inForce ∧ ready.notices.records.length = 11 ∧ ready.settings.noticeLevels.length = 11 ∧
      ready.ring.slots.length = 8) ∧
    ((statistics (.histogram 1#32 [64]) ready).develop.stats = .histogram 1#32 [64] ∧ 1#32 ≠ 0#32) ∧
    (∀ bins, ready.develop.stats ≠ .histogram 1#32 bins) ∧ (station .duplicate).member.state = .duplicate ∧
    (statistics (.wakeRecord [1#8]) ready).develop.stats = .wakeRecord [1#8] ∧ ready.develop.stats = .invalid :=
  ⟨by decide, by decide, by rintro bins ⟨⟩, by decide⟩

theorem test_witness_sleep :
    (ready.member.state = .ready ∧ (power .doze ready).power.state = .doze ∧ ready.power.state = .active) ∧
    ready.power.state ≠ .doze ∧ (∃ o ∈ (power .doze (holding .raw none none ready)).ring.slots, o ≠ none) ∧
    ((power .doze ready).power.state = .doze ∧ (∀ o ∈ (power .doze ready).ring.slots, o = none) ∧
      (power .doze ready).card.placements = [] ∧ (power .doze ready).develop.job = none ∧ (power .doze ready).link.urgent = [] ∧
      (power .doze ready).link.control = [] ∧ (power .doze ready).link.urgentHeld = [] ∧ (power .doze ready).link.controlHeld = []) := by
  decide

def asleep (c : Option Candidate) : State := { ready with power := { ready.power with state := .sleep, latched := some .high, candidate := c } }

theorem test_witness_wakes :
    ((0#8).getLsbD ready.self.toNat = false ∧ (1#8).getLsbD (power .doze ready).self.toNat = true ∧ (power .doze ready).power.state = .doze) ∧
    ((1#8).getLsbD (asleep none).self.toNat = true ∧ (asleep none).power.state = .sleep) ∧
    ((asleep (some whole)).power.state = .sleep ∧ (asleep (some whole)).member.straps.fitted.sync = true ∧
      (asleep (some whole)).settings.wakeOnSync = true ∧ (asleep (some whole)).power.latched = some .high ∧
      (asleep (some whole)).power.candidate = some whole ∧ whole.interval ≤ whole.samples * 10) ∧
    ((asleep none).cardStation = true ∧ (asleep none).card.medium = none) ∧ (asleep none).power.candidate = none ∧
    ({ whole with samples := 49 } : Candidate).samples * 10 < whole.interval := by decide

theorem test_witness_frames : (1#3 ≠ 6#3 ∧ takenBody (.segment (segmentOf [1#8])) = true) ∧ takenBody (.request 1#8 0x10#8 []) = true := by decide

/-- The settings after Start. -/
def defaults (s : State) : State := { s with member := { s.member with settings := {} } }
def busy : State :=
  { defaults (filling openPlace (holding .raw none none ready)) with pending := [.noticeAdmit] }

theorem test_witness_ranges : busy.settings.inRange ∧ ∀ id, (busy.timer id).fits id := by
  refine ⟨⟨by decide, by decide, by decide, by decide, by decide, ?_, by decide, by decide, by decide, by decide, by decide, by decide,
    by decide⟩, ?_⟩
  · rintro t ⟨⟩
    decide
  · rintro (_ | _ | _ | _ | _ | _ | _ | _) <;> refine ⟨fun n h => ?_, fun p n h => ?_⟩ <;> (cases h; all_goals decide)

theorem test_witness_capacities : busy.withinCapacity ∧ (∀ c ∈ busy.pending, c.wf = true) ∧ ∃ t, step busy = .next t :=
  ⟨⟨by rintro m ⟨⟩; rfl, by decide, by decide, by decide, by decide, by decide, by decide, by decide, by decide, by decide,
    test_witness_ranges.1, by decide, by decide, test_witness_ranges.2⟩, by decide, _, rfl⟩

theorem test_witness_ring : busy.shotsInStep ∧ ∃ t, step busy = .next t :=
  ⟨⟨ringOk_of_check (by decide), by decide, by decide, by decide, by decide⟩, _, rfl⟩

/-! ## The hypotheses of the later clauses are met too -/

/-- The state after a command. -/
def after (i : Instr) (s : State) : State :=
  match exec i s with
  | .next t => t
  | _ => s

theorem test_witness_strapped_six :
    (strapped 6#3 ready).self = 6#3 ∧ (strapped 7#3 ready).self = 7#3 ∧
    (Frame.wire 1#3 { dst := 6#4, msg := .mark 7#64 }).faulty = false ∧ (Frame.wire 1#3 { dst := 6#4, msg := .mark 7#64 }).malformed = false ∧
    (Frame.wire 1#3 { dst := 6#4, msg := .mark 7#64 }).dst = nodeDst (strapped 6#3 ready).self ∧
    after (.frameEnd (Frame.wire 1#3 { dst := 6#4, msg := .mark 7#64 }) false) (onLink (.hearing true) (strapped 6#3 ready)) =
      onLink .free (strapped 6#3 ready) := by decide

theorem test_witness_pulse_end :
    (after .releasePulseEnd (pulseAt 1999)).clock.pulse = none ∧ (after .tapEdge (pulseAt 1999)).clock.pulse = none ∧
    (after .tapEdge (pulseAt 1998)).clock.pulse = some 1999 ∧
    (∀ T, (pulseAt 1999).clock.alarm = some T → (pulseAt 1999).clock.linkTime.toNat + (10 - (pulseAt 1999).clock.sinceFine) < T.toNat) :=
  ⟨by decide, by decide, by decide, by rintro T ⟨⟩⟩

/-- The station's own Answer, its Grant to station 1, and a frame of its own with a class that is not its kind's. -/
def ownAnswer : Queued := { frame := { dst := 7#4, msg := .answer 1#8 0x10#8 .done none [] }, spoils := 0 }
def ownGrant : Queued := { frame := { dst := 1#4, msg := .grant 1#8 1#8 1#32 4#8 false }, spoils := 0 }
def answering : State := onLink (.sending .control false) (queues [] [ownAnswer, ownGrant] none)
def wrongKind : WireFrame :=
  { goodMark with sum := some (frameSum goodMark.dst 0x3F#8 goodMark.len goodMark.body), kind := 0x3F#8 }
/-- A Place with a socket byte that is no code. -/
def unlisted : WireFrame :=
  let b := (fromNode (.unplace 1#32 .a .discarded)).body.set 4 9#8
  { fromNode (.unplace 1#32 .a .discarded) with
    body := b, sum := some (frameSum 15#4 0x21#8 (fromNode (.unplace 1#32 .a .discarded)).len b) }

theorem test_witness_frame_out :
    answering.ownFrameOut { answering with link := { answering.link.ended with control := [ownGrant] } } ∧
    (onLink (.sending .urgent false) (queues [urgentHead] [] none)).ownFrameOut
      { queues [urgentHead] [] none with link := { (queues [] [] none).link with urgent := [] } } :=
  ⟨Or.inr (Or.inl ⟨rfl, rfl⟩), Or.inl ⟨rfl, rfl⟩⟩

theorem test_witness_no_block :
    reachesNoBlock (Frame.wire 0#3 ownAnswer.frame) answering ∧ reachesNoBlock unlisted ready ∧
    ((Frame.wire 0#3 ownAnswer.frame).faulty = false ∧ (Frame.wire 0#3 ownAnswer.frame).malformed = false ∧
      (Frame.wire 0#3 ownAnswer.frame).dst ≠ nodeDst answering.self ∧ (Frame.wire 0#3 ownAnswer.frame).dst ≠ 15#4) ∧
    (after (.frameEnd (Frame.wire 0#3 ownAnswer.frame) false) answering).link.control = [ownGrant] ∧
    (after (.frameEnd wrongKind false) answering).link.control = [ownGrant] ∧
    (after (.frameEnd wrongKind false) answering).link.malformed = 1 ∧
    (unlisted.faulty = false ∧ unlisted.malformed = false ∧
      after (.frameEnd unlisted false) (onLink (.hearing true) ready) = ready) :=
  ⟨Or.inl (by decide), Or.inr (Or.inr (Or.inr ⟨by decide, by decide⟩)), by decide, by decide, by decide, by decide,
    by decide⟩

theorem test_witness_disregarded :
    (blockFrame (.seamTaken 1#3 1#32 .left []) = true ∧ blockFrame (.openTaken 1#3 1#32 1#64) = true ∧
      captureFrame (.openTaken 1#3 1#32 1#64) = true ∧ captureFrame (.seamTaken 1#3 1#32 .left []) = false) ∧
    ((station .excluded).calm ∧ (station .duplicate).calm) ∧
    ((rolling true).calm ∧ (rolling true).member.state = .rolling ∧ (rolling true).member.rejoin = true) ∧
    after (.openTaken 1#3 1#32 1#64) (rolling true) = rolling true := by decide

theorem test_witness_no_notice :
    ((station .duplicate).member.state = .duplicate ∧ after .noticeAdmit (station .duplicate) = station .duplicate) ∧
    (∀ j, j < 11 → (ready.notices.records.getD j none).isSome → ready.settings.noticeLevels.getD j 0 = 0) ∧
    (after .noticeAdmit noticed).notices.records.getD 10 none = none := by decide

/-- Shot 1 with its Seam to the right owed. -/
def owing (s : State) : State := { s with develop := { s.develop with owed := [(1#32, .right)] } }
/-- Its own Segment, which it has withdrawn. -/
def withdrawn (cancelled : Bool) : State :=
  { ready with link := { ready.link with phase := .sending .bulk true, bulk := some (segmentHead 3 cancelled) } }

theorem test_witness_bulk :
    ((withdrawn true).power.state ≠ .sleep ∧ (withdrawn true).link.phase = .sending .bulk true ∧
      (withdrawn true).link.bulk = some (segmentHead 3 true)) ∧
    (station .excluded).member.state ≠ .configuring ∧ (station .excluded).member.state ≠ .ready ∧
    ((owing (holding .raw none none ready)).inForce ∧ (owing (holding .raw none none ready)).develop.owed = (1#32, .right) :: [] ∧
      (owing (holding .raw none none ready)).slot? 1#32 = some (slotOf 1#32 .raw) ∧
      (owing (holding .raw none none ready)).link.bulk = none ∧ (owing (holding .raw none none ready)).capture.quiet = []) ∧
    ((current 1#32 (holding .developed (reserving .sending 1) none ready)).develop.owed = [] ∧
      (current 1#32 (holding .developed (reserving .sending 1) none ready)).slot? 1#32 = some (slotOf 1#32 .developed) ∧
      (∃ p ∈ (entryOf 1#32 (reserving .sending 1) none).parts, p.target = true) ∧
      ∀ p ∈ (entryOf 1#32 (reserving .sending 1) none).parts, p.target = true → p.transfer = .sending ∧ 1 ≤ p.grants) ∧
    (∃ p ∈ (entryOf 1#32 (reserving .claiming 0) none).parts, p.target = true ∧ (p.transfer ≠ .sending ∨ p.grants = 0)) ∧
    (∀ p ∈ (entryOf 1#32 (reserving .closed 0) none).parts, p.target = false) ∧ ready.transfer.current = none := by decide

def seamFrame : Frame := { dst := 15#4, msg := .seam 1#32 .right (List.replicate 4096 0#16) }
def seamInAir : State :=
  { owing (holding .raw none none ready) with link := { ready.link with
      phase := .sending .bulk false, bulk := some { frame := seamFrame, spoils := 0, cancelled := false } } }

theorem test_witness_seam_out :
    seamInAir.ownFrameOut ((State.bulkSent { frame := seamFrame, spoils := 0, cancelled := false }
      { seamInAir with link := { seamInAir.link with bulk := none, phase := .free } }).onLink Link.ended) :=
  Or.inr (Or.inr ⟨_, rfl, rfl, rfl⟩)

theorem test_witness_sent_seam :
    seamInAir.inForce ∧ (Frame.wire 0#3 seamFrame).kind = 0x40#8 ∧ seamInAir.link.phase = .sending .bulk false ∧
    neighbour? seamInAir.settings.gridShape (Frame.wire 0#3 seamFrame).src.toNat .right = some 1 ∧ 1 ≠ seamInAir.self.toNat := by decide

/-- Rolling without the rejoin flag, with station 1 heard or nobody. -/
def rolled (out : Bool) (others : Bool) : State :=
  { station .rolling with member := { (station .rolling).member with
      ownRollOut := out, highest := 5#32, table := if others then back else back.take 1 } }

theorem test_witness_shown_back :
    (showsBack (rolled true true).cardStation (.markTaken 1#3 5#64 4#64) = true ∧ takesMark (.markTaken 1#3 5#64 4#64) = true ∧
      showsBack (rolled true true).cardStation (.readDoneTaken 1#3 1#32 .regular false) = true ∧
      takesMark (.readDoneTaken 1#3 1#32 .regular false) = false) ∧
    ((rolled true true).power.state ≠ .sleep ∧ (rolled true true).member.state = .rolling ∧ (rolled true true).member.rejoin = false ∧
      (rolled true true).member.ownRollOut = true ∧ ∃ m ∈ (rolled true true).member.table, m.number ≠ (rolled true true).self) ∧
    (rolled false true).member.ownRollOut = false ∧ (∀ m ∈ (rolled true false).member.table, m.number = (rolled true false).self) ∧
    (after (.readDoneTaken 1#3 1#32 .regular false) (rolled true true)).member.state = .configuring ∧
    (after (.readDoneTaken 1#3 1#32 .regular false) (rolled true false)).member.state = .excluded := by decide

def quietDue (s : State) : State := dueTimer .quiet (quieted [1#3] s)

theorem test_witness_quiet_due :
    (((quietDue ready).timer .quiet).due = true ∧ (quietDue ready).expiresAlone .quiet ∧ (quietDue ready).inForce) ∧
    ((closing (quietDue armedState)).maturing .low whole ∧ (closing (quietDue armedState)).expiresAlone .quiet ∧ ((closing (quietDue armedState)).timer .attribution).running = false ∧
      (closing (quietDue armedState)).capture.state = .armed ∧ (closing (quietDue armedState)).ring.next ≤ 4#32) ∧
    (0 < armedLast.settings.exposureLimit ∧ 0 < armedLast.capture.shutter) ∧
    ((after (.readDoneTaken 1#3 0#32 .regular false) (quietDue ready)).notices.records.getD 8 none).isSome = true := by decide

theorem test_witness_refuse_ahead :
    (exposing ready).ring.next ≤ 4#32 ∧ 4#32 ≠ lastShot ∧ (ready.noOutcomeDue ∧ ready.inForce ∧ ready.ring.next ≤ 4#32 ∧
      ready.capture.state ≠ .darkExposing ∧ ready.capture.state ≠ .darkReading) :=
  ⟨by decide, by decide, noOutcomeDue_of (by decide), by decide⟩

/-- Shot 1, read, with no agreed close yet, or Committed. -/
def closeless : State :=
  { reading ready with ring := { (reading ready).ring with roster := [{ entryOf 1#32 none none with agreedClose := none }] } }
def committed : State :=
  { readOut 100 with ring := { (readOut 100).ring with
      roster := [timed 100 (entryOf 1#32 (some (partOf .committed .closed 0)) none)] } }

theorem test_witness_readout_ends :
    (closeless.capture.state = .reading ∧ closeless.capture.exposure = some (handOf none) ∧
      closeless.slot? 1#32 = some (slotOf 1#32 .reading) ∧ closeless.settings.syncMode = .follow ∧
      (slotOf 1#32 .reading).ownEnd = some 200#64 ∧ closeless.port = .readOut (.area 0)) ∧
    ((∀ p ∈ (timed 100 (entryOf 1#32 (some (partOf .committed .closed 0)) none)).parts, p.placement ≠ .reserved) ∧
      ∃ p ∈ (timed 100 (entryOf 1#32 (some (partOf .committed .closed 0)) none)).parts, p.placement = .committed) ∧
    (armedState.port = .flush ∧ ready.port = .idle ∧ (exposing ready).port = .integrate (.area 0) ∧
      (darkening .darkExposing .exposing .raw).port = .integrate .darkSlot ∧
      (darkening .darkReading .reading .raw).port = .readOut .darkSlot ∧ (darkening .darkReading .scanning .raw).port = .idle) ∧
    (windowEnd none).slot? 1#32 = some (slotOf 1#32 .exposing) := by decide

theorem test_witness_readout_rings : closeless.ringOk ∧ committed.ringOk :=
  ⟨ringOk_of_check (by decide), ringOk_of_check (by decide)⟩

/-- Armed, with socket A or B and a card that has room for one shot of two members. -/
def placing (k : Socket) : State :=
  { mounted (rollOf 68 1023 65) armedLast with card := { (mounted (rollOf 68 1023 65) armedLast).card with letter := some k } }
/-- Station 1 with socket B in Overflow, and shot 1 with nothing placed. -/
def overflowing : State :=
  let s := mounted (rollOf 100 5 68) (strapped 1#3
    (sending (holding .raw (some (partOf .pending .idle 0)) (some (partOf .pending .idle 0)) ready)))
  { s with card := { s.card with letter := some .b }, member := { s.member with settings := { s.settings with storageMode := .overflow } } }

theorem test_witness_placing :
    ((placing .a).placesAtAdmission ∧ ¬(placing .b).placesAtAdmission ∧ (placing .a).capture.state = .armed ∧ (placing .a).inForce ∧
      (placing .a).ring.next ≤ 0xFFFFFFFE#32 ∧
      (closing (placing .a)).maturing .low whole ∧ ((closing (placing .a)).timer .attribution).running = false ∧
      (placing .a).ring.slots.getD (((placing .a).ring.top + 1) % 8) none = none ∧ (entryOf 0xFFFFFFFE#32 none none).members = (placing .a).memberNumbers) ∧
    (overflowing.inForce ∧ overflowing.entry? 1#32 = some (entryOf 1#32 (some (partOf .pending .idle 0)) (some (partOf .pending .idle 0))) ∧
      overflowing.overflowsTo 0#3 (entryOf 1#32 (some (partOf .pending .idle 0)) (some (partOf .pending .idle 0))) ∧
      ¬overflowing.overflowsTo 1#3 (entryOf 1#32 (some (partOf .pending .idle 0)) (some (partOf .pending .idle 0))) ∧
      overflowing.transfer.current ≠ none ∧ overflowing.transfer.current ≠ some 1#32) ∧
    ((after (.openTaken 1#3 0xFFFFFFFE#32 7#64) (placing .a)).card.placements.map (·.shot) = [0xFFFFFFFE#32] ∧
      (after (.openTaken 1#3 0xFFFFFFFE#32 7#64) (placing .b)).card = (placing .b).card) ∧
    (after (.placeTaken 0#3 1#32 .a (.refused .full)) overflowing).card.placements.map (·.shot) = [1#32] := by decide

theorem test_witness_placing_rings : (placing .a).ringOk ∧ (placing .a).noOutcomeDue ∧ overflowing.ringOk :=
  ⟨ringOk_of_check (by decide), noOutcomeDue_of (by decide), ringOk_of_check (by decide)⟩

/-- A shot on the placement list is announced again, and no second entry is made. -/
theorem test_witness_listed :
    (filling openPlace ready).card.placed? (entryOf 1#32 none none).shot = some openPlace ∧
    ((filling openPlace ready).tryReserve (entryOf 1#32 none none)).card = (filling openPlace ready).card := by decide

theorem test_witness_again :
    ((mounted (rollOf 100 0 65) (holding .raw none none ready)).card.letter = some .a ∧
      (mounted (rollOf 100 0 65) (holding .raw none none ready)).card.state = .ready ∧
      (mounted (rollOf 100 0 65) (holding .raw none none ready)).member.state = .ready) ∧
    placesAgain .single .a (entryOf 1#32 (some (partOf .refused .idle 0)) none) = true ∧
    placesAgain .single .a (entryOf 1#32 (reserving .idle 0) none) = false ∧ placesAgain .single .b (entryOf 1#32 none none) = false ∧
    ((carded (labelled 100) .mounting (holding .raw none none ready)).card.state = .mounting ∧
      (carded (labelled 100) .mounting (holding .raw none none ready)).card.medium = some (labelled 100) ∧
      (after .mountReadComplete (carded (labelled 100) .mounting (holding .raw none none ready))).card.placements.map (·.shot) = [1#32]) := by
  decide +kernel

/-- An 8 x 8 tile whose pixels are numbered, with two interior defects and one at the edge to station 1. -/
def tile : State :=
  { developing .interior [] with
    develop := { ready.develop with
      job := some { jobOf .interior [edgeIn .pending] with snapshot := [(3, 3), (3, 5), (0, 6)] }, store := [bandOf 1] }
    ring := { (developing .interior []).ring with
      areas := ready.ring.areas.set 0 { developed := (List.range 64).map (BitVec.ofNat 14) } } }

theorem test_witness_repairs :
    (isEdgeEntry tile.settings 0 3 3 = false ∧ isEdgeEntry tile.settings 0 0 6 = true) ∧
    candidateValues tile.settings [(3, 3), (3, 5), (0, 6)] (tile.area 0).developed [] 3 3 = [11, 43, 25] ∧
    ((after .phaseInteriorComplete tile).area 0).developed =
      ((tile.area 0).developed.set 27 (repairValue [11, 43, 25])).set 29 (repairValue [13, 45, 31]) ∧
    ((after .phaseInteriorComplete tile).develop.store = [] ∧
      (after .phaseInteriorComplete tile).develop.job.map (·.edges) = some [edgeIn (.band (bandOf 1).samples)]) ∧
    ((after .edgeRepairsComplete (after .phaseInteriorComplete tile)).area 0).developed.getD 6 0#14 = repairValue [22, 4, 1] ∧
    (tile.develop.store.map fun b => (b.neighbour, b.shot)).Nodup ∧
    (∃ b ∈ tile.develop.store, b.neighbour = (edgeIn .pending).neighbour ∧ b.shot = 1#32) := by decide +kernel

/-- A job that waits for the band of station 1. -/
def waits : State := narrow (developing .edge [edgeIn .waiting])

theorem test_witness_waited_band :
    (neighbour? waits.settings.gridShape (1#3).toNat .left = some waits.self.toNat ∧ waits.entry? 1#32 ≠ none ∧
      waits.edgeFinished 1#3 1#32 = false ∧ waits.develop.job = some (jobOf .edge [edgeIn .waiting]) ∧
      (waits.timer .seam).due = false ∧ waits.develop.store = []) ∧
    (dueTimer .seam waits).expiresAlone .seam ∧
    ((after (.seamTaken 1#3 1#32 .left (bandOf 1).samples) waits).develop.job.map (·.edges) = some [edgeIn (.band (bandOf 1).samples)] ∧
      ((after (.seamTaken 1#3 1#32 .left (bandOf 1).samples) waits).timer .seam).request = .stop) ∧
    ((after (.seamTaken 1#3 1#32 .left (bandOf 1).samples) (dueTimer .seam waits)).develop.late = 1 ∧
      (after (.seamTaken 1#3 1#32 .left (bandOf 1).samples) (dueTimer .seam waits)).develop.job.map (·.edges) =
        some [edgeIn .oneSided]) := by decide

/-- The second edge's band is stored, or not. -/
def edgeTo (k : Nat) (e : EdgeState) : Edge := { dir := .up, neighbour := k, state := e }
def waitsTwice (l : List Band) : State := stored l (narrow (developing .edge [edgeIn .waiting, edgeTo 2 .pending]))

theorem test_witness_waits_twice :
    (([edgeTo 2 .pending].map (·.neighbour)).Nodup ∧ ([bandOf 2].map fun b => (b.neighbour, b.shot)).Nodup ∧
      ∃ b ∈ [bandOf 2], b.neighbour = (edgeTo 2 .pending).neighbour ∧ b.shot = 1#32) ∧
    ((after (.seamTaken 1#3 1#32 .left (bandOf 1).samples) (waitsTwice [bandOf 2])).develop.job.map (·.edges) =
        some [edgeIn (.band (bandOf 1).samples), edgeTo 2 (.band (bandOf 2).samples)] ∧
      (after (.seamTaken 1#3 1#32 .left (bandOf 1).samples) (waitsTwice [bandOf 2])).develop.store = [] ∧
      ((after (.seamTaken 1#3 1#32 .left (bandOf 1).samples) (waitsTwice [bandOf 2])).timer .seam).request = .stop) ∧
    ((after (.seamTaken 1#3 1#32 .left (bandOf 1).samples) (waitsTwice [])).develop.job.map (·.edges) =
        some [edgeIn (.band (bandOf 1).samples), edgeTo 2 .waiting] ∧
      ((after (.seamTaken 1#3 1#32 .left (bandOf 1).samples) (waitsTwice [])).timer .seam).request = .load 400) ∧
    ((after .seamTimerExpiry (dueTimer .seam (waitsTwice [bandOf 2]))).develop.job.map (·.edges) =
        some [edgeIn .oneSided, edgeTo 2 (.band (bandOf 2).samples)] ∧
      (after .seamTimerExpiry (dueTimer .seam (waitsTwice [bandOf 2]))).develop.store = []) ∧
    ((after .seamTimerExpiry (dueTimer .seam (waitsTwice []))).develop.job.map (·.edges) =
        some [edgeIn .oneSided, edgeTo 2 .waiting] ∧
      ((after .seamTimerExpiry (dueTimer .seam (waitsTwice []))).timer .seam).request = .load 400) ∧
    (after (.seamTaken 1#3 1#32 .left (bandOf 1).samples) (waitsTwice (List.replicate 8 (bandOf 3)))).develop.overrun = 1 ∧
    (after (.seamTaken 1#3 1#32 .left (bandOf 2).samples) (waitsTwice [bandOf 1])).develop.store = [] ∧
    (∀ s ∈ [waitsTwice [], waitsTwice [bandOf 2], waitsTwice [bandOf 1]], s.calm ∧ s.inForce) ∧
    ¬ready.expires .seam ∧ (dueTimer .seam (waitsTwice [])).expires .seam := by decide

def sized : State := filling openPlace (holding .raw (reserving .idle 0) none configuring)

theorem test_witness_resize :
    (configuring.settings.put 0x02#8 1024 = some { configuring.settings with tileColumns := 1024 } ∧ sized.member.state = .configuring ∧
      ({ configuring.settings with tileColumns := 1024 } : Settings).tileColumns ≠ sized.settings.tileColumns ∧
      (defaults sized).settings.put 0x02#8 4096 = some (defaults sized).settings ∧ (sized.card.placements.map (·.shot)).Nodup) ∧
    (after (.setItem header 0x02#8 1024#32) sized).ring = { sized.ring with roster := [], slots := List.replicate 8 none } ∧
    (after (.setItem header 0x02#8 1024#32) sized).card.placements = [] := by decide +kernel

theorem test_witness_resize_ring : sized.ringOk := ringOk_of_check (by decide)

/-! ### Frames against a rival, due roll timers, and edges in Doze -/

theorem test_witness_rivals :
    (queues [] [queuedMark] none).link.control = queuedMark :: [] ∧
    (after (.linkFreeOffer (some (fromNode (.mark 7#64)))) (queues [] [queuedMark] none)).link.phase = .sending .control false ∧
    (after (.linkFreeOffer (some (fromNode (.openShot 1#32 0#64)))) (queues [] [queuedMark] none)).link.phase = .hearing true ∧
    (after (.linkFreeOffer (some (fromNode (.mark 7#64)))) (strapped 2#3 (queues [] [queuedMark] none))).link.phase = .hearing true ∧
    (after (.linkFreeOffer (some (fromNode (.segment (segmentOf [1#8]))))) (queues [] [] (some (segmentHead 0 false)))).link.phase =
      .sending .bulk false ∧
    (after (.linkFreeOffer (some (fromNode (.mark 1#64)))) (queues [] [] (some (segmentHead 0 false)))).link.phase = .hearing true ∧
    (after (.linkFreeOffer none) (queues [] [] (some (segmentHead 0 false)))).link.offered = some (segmentHead 0 false).frame.msg ∧
    (after (.linkFreeOffer none) ready).link.offered = none := by decide

/-- The roll timer is due in Rolling without the rejoin flag. -/
def rollDue (out others : Bool) : State := dueTimer .roll (rolled out others)

theorem test_witness_roll_due :
    (((rollDue true true).timer .roll).due = true ∧ ((rolled true true).timer .roll).due = false) ∧
    ((rollDue true true).rollRow = .rollWindowExpiry ∧ (rollDue false true).rollRow = .rollWaitExpiry) ∧
    after (.rollTaken 2#3 2#8 9#32 fits 3#32 false) (rollDue true true) =
      after (.rollTaken 2#3 2#8 9#32 fits 3#32 false) (after (rollDue true true).rollRow (rollDue true true)) ∧
    after (.readDoneTaken 1#3 1#32 .regular false) (rollDue false true) =
      after (.readDoneTaken 1#3 1#32 .regular false) (after (rollDue false true).rollRow (rollDue false true)) ∧
    after (.arm header) (rollDue true false) = after (.arm header) (after (rollDue true false).rollRow (rollDue true false)) ∧
    (after (.markTaken 1#3 7#64 0#64) (rollDue true false)).member.state = .configuring ∧
    (after (.markTaken 1#3 7#64 0#64) (rollDue false true)).member.state = .excluded ∧
    (after (.markTaken 1#3 7#64 0#64) (rollDue false true)).link.control.length = 1 := by decide

/-- Shot 1, read, at the end of the exposure limit, with the quiet timer due as well. -/
def limitDue : State := dueTimer .exposureLimit (quietDue (exposing ready))
/-- Shot 1, Raw, at the end of its window. -/
def rawAtWindow (own : Option Time) : State := { windowEnd own with ring := (holding .raw none none ready).ring }

theorem test_witness_restart_due :
    after (.restartTaken false true) limitDue = after (.restartTaken false true) limitDue.afterExpiries ∧
    after (.restartTaken true false) (rawAtWindow none) = after (.restartTaken true false) (rawAtWindow none).afterExpiries ∧
    ((after (.restartTaken true false) (rawAtWindow none)).slot? 1#32).map (·.outcome) = some (some .unobserved) := by decide +kernel

theorem test_witness_restart_calm : ready.calm ∧ limitDue.afterExpiries.calm ∧ (strapped 6#3 ready).calm := by decide +kernel

/-- Shot 1, being read, with a placement that holds close fields already. -/
def closePart : Placed :=
  { openPlace with progress := [{ progressOf 0#3 112 true 0 with
      close := some { tileSum := 1#16, flags := { clipped := true }, outcome := .equal, skew := 0#32 } }] }

theorem test_witness_restart_void :
    ((filling closePart (reading ready)).calm ∧ (filling closePart (reading ready)).slot? 1#32 = some (slotOf 1#32 .reading) ∧
      (filling closePart (reading ready)).entry? 1#32 = some (entryOf 1#32 none none) ∧
      (filling closePart (reading ready)).card.placed? 1#32 = some closePart) ∧
    (after (.restartTaken true false) (filling closePart (reading ready))).card.writes =
      [voidWrite (entryOf 1#32 none none) closePart] ∧ closePart.flags = { clipped := true } ∧
    (after (.restartTaken true true) (filling closePart (holding .held none none ready))).card.writes =
      [closePart.voidRecord {} (entryOf 1#32 none none)] ∧
    (after (.restartTaken true true) (filling { closePart with phase := .committing } (holding .held none none ready))).card.writes =
      [closePart.voidRecord closePart.flags (entryOf 1#32 none none)] ∧
    ((after (.restartTaken true true) (filling closePart (holding .held none none ready))).ring.roster = [] ∧
      (filling closePart (holding .held none none ready)).settings.tileRows ≠ 3072) ∧
    ((after (.restartTaken true false) (filling closePart (holding .held none none ready))).card.placements.flatMap fun p =>
      p.progress.map (·.close)) = [none] := by decide +kernel

theorem test_witness_restart_void_ring :
    (filling closePart (reading ready)).ringOk ∧ (filling closePart (holding .held none none ready)).ringOk :=
  ⟨ringOk_of_check (by decide), ringOk_of_check (by decide)⟩

/-! ### An expiry that is due comes first (R44) -/

/-- Its own Mark ends on the link as the mark timer has expired again. -/
def markDue : State := dueTimer .mark (onLink (.sending .control false) (queues [] [queuedMark] none))
def ownMark : Instr := .frameEnd (Frame.wire 0#3 queuedMark.frame) false
/-- A rejoin roll call at the end of its window. -/
def rejoinDue : State := dueTimer .roll { rolled true true with member := { (rolled true true).member with rejoin := true } }
/-- Shot 1 is exposed, its window is at its end, and the next sample is a closing edge. -/
def edgeDue : State := closing { windowEnd none with capture := (exposing ready).capture }

theorem test_witness_due_first :
    (startOrExpiry ownMark = false ∧ markDue.power.state ≠ .sleep ∧ markDue.afterExpiries.calm) ∧
    (after ownMark markDue = after ownMark markDue.afterExpiries ∧ (after ownMark markDue).link.control = [] ∧
      ((after ownMark markDue).timer .mark).request = .load 100) ∧
    (rejoinDue.afterExpiries.calm ∧ (after (.openTaken 1#3 5#32 7#64) rejoinDue).member.state = .configuring ∧
      (after (.openTaken 1#3 5#32 7#64) rejoinDue).link.urgent.map (·.frame.msg) = [.refuse 5#32 .notArmed .drop]) ∧
    (edgeDue.afterExpiries.calm ∧ ((after .syncClosingEdge edgeDue).slot? 1#32).map (·.outcome) = some (some .unobserved) ∧
      (after .syncClosingEdge edgeDue).capture.exposure = some (handOf none)) := by decide +kernel

/-- Socket B in Overflow, in a rejoin roll call that has heard nobody yet. -/
def rejoining : State :=
  { overflowing with transfer := {}, member := { overflowing.member with state := .rolling, rejoin := true, table := [] } }

theorem test_witness_rejoin_overflow :
    rejoining.takesFrames ∧
    rejoining.overflowsTo 0#3 (entryOf 1#32 (some (partOf .pending .idle 0)) (some (partOf .pending .idle 0))) ∧
    (after (.placeTaken 0#3 1#32 .a (.refused .full)) rejoining).card.placements.map (·.shot) = [1#32] ∧
    (after (.placeTaken 1#3 1#32 .a (.refused .full)) rejoining).card.placements = [] := by decide

def dozing (s : State) : State := { s with power := { s.power with state := .doze, sleepPending := true } }
def unwoken (s : State) : State := { s with member := { s.member with settings := { s.settings with wakeOnSync := false } } }

theorem test_witness_doze_edges :
    ((dozing (closing ready)).maturingAwake (dozing (closing ready)).settings.syncPolarity.closedLevel whole ∧
      (dozing (closing ready)).power.state = .doze) ∧
    after .syncClosingEdge (dozing (closing (capturing .darkExposing))) =
      { closing (capturing .darkExposing) with sync := (closing ready).sync.accept .low } ∧
    after .syncOpeningEdge (dozing (underTest .low ready)) =
      { underTest .low ready with sync := (underTest .low ready).sync.accept .high } ∧
    after .syncOpeningEdge (unwoken (dozing (underTest .low ready))) =
      { unwoken (dozing (underTest .low ready)) with sync := (underTest .low ready).sync.accept .high } := by decide

/-! ### The opener's notice, and outcomes at a later trigger or a late Open -/

/-- This station is the opener of the shots it holds. -/
def opened (s : State) : State := { s with ring := { s.ring with roster := s.ring.roster.map fun e => { e with opener := true } } }
/-- Exposing as the opener, with no agreed open or close yet. -/
def unagreed : State :=
  opened { exposing ready with ring := { (exposing ready).ring with
    roster := [{ entryOf 1#32 none none with agreedClose := none, agreedOpen := none }] } }
def unagreedEntry : Entry := { entryOf 1#32 none none with agreedClose := none, agreedOpen := none, opener := true }
/-- Shot 1, integrated, whose Open is still to come. -/
def unopened : State :=
  { reading ready with ring := { (reading ready).ring with
      roster := [{ entryOf 1#32 none none with openTaken := false, agreedOpen := none }] } }

theorem test_witness_shot_opened :
    ((opened (exposing ready)).entry? 1#32 = some { entryOf 1#32 none none with opener := true } ∧ unagreed.entry? 1#32 = some unagreedEntry) ∧
    (after .syncOpeningEdge (underTest .low (opened (exposing ready)))).notices =
      (opened (underTest .low (exposing ready))).noticesEnding (handOf none) { entryOf 1#32 none none with opener := true } 50#64 false ∧
    (after (.closeTaken 1#3 1#32 70#64 true) unagreed).notices = unagreed.noticesEnding (handOf none) unagreedEntry 0#64 true ∧
    (after .exposureLimitExpiry (dueTimer .exposureLimit unagreed)).notices =
      unagreed.noticesEnding (handOf none) unagreedEntry 0#64 true ∧
    ((unagreed.noticesEnding (handOf none) unagreedEntry 0#64 true).records.getD 0 none).isSome = true ∧
    (after (.openTaken 0#3 1#32 70#64) unopened).notices =
      unopened.notices.raise (.shotOpened 1#32 70#64 200#64 false 0#8) ∧
    (after (.openTaken 1#3 1#32 70#64) unopened).notices = unopened.notices := by decide

/-- Shot 1 is Raw with its outcome due, and a trigger comes. -/
def nextTrigger (c : CaptureState) : State :=
  { withEdge (some 301#64) (holding .raw none none ready) with
    capture := { (withEdge (some 301#64) (holding .raw none none ready)).capture with state := c } }
def laterOutcome (y : Slot) : Option SyncOutcome × Tag × Option Int := (y.outcome, y.tag, y.skew)
/-- As `unopened`, with its window at an end. -/
def waitingOpen : State := { unopened with capture := { unopened.capture with windowEnded := true } }

theorem test_witness_outcome_later :
    ((nextTrigger .armed).slot? (nextTrigger .armed).capture.current = some (slotOf 1#32 .raw) ∧ (slotOf 1#32 .raw).outcome = none ∧
      (nextTrigger .armed).calm ∧ (nextTrigger .armed).inForce ∧ (nextTrigger .armed).ring.next ≤ 2#32 ∧
      ((nextTrigger .armed).entry? 1#32).bind (·.agreedOpen) = some 100#64 ∧
      (nextTrigger .armed).edgeAtTrigger = some 301#64 ∧ (closing (nextTrigger .armed)).maturing .low whole) ∧
    ((after (.openTaken 1#3 2#32 70#64) (attributing (nextTrigger .armed))).slot? 1#32).map laterOutcome =
      some (some .later, .developing, some 0) ∧
    ((after (.refuseTaken 1#3 2#32 .blocked .drop) (attributing (nextTrigger .armed))).slot? 1#32).map laterOutcome =
      some (some .later, .developing, some 0) ∧
    ((after .syncClosingEdge (closing (nextTrigger .armed))).slot? 1#32).map laterOutcome = some (some .later, .developing, some 0) := by
  decide

theorem test_witness_outcome_late_open :
    (waitingOpen.inForce ∧ waitingOpen.calm ∧ 1#32 < waitingOpen.ring.next ∧ waitingOpen.slot? 1#32 = some (slotOf 1#32 .reading) ∧
      1#32 = waitingOpen.capture.current ∧ unopened.capture.windowEnded = false ∧ (unopened.timer .attribution).running = false) ∧
    ((after (.openTaken 1#3 1#32 110#64) waitingOpen).slot? 1#32).map laterOutcome = some (some .unobserved, .reading, some (-10)) ∧
    (after (.openTaken 1#3 1#32 110#64) unopened).slot? 1#32 = some (slotOf 1#32 .reading) ∧
    ((nextTrigger .armed).entry? 1#32 = some (entryOf 1#32 none none) ∧ (entryOf 1#32 none none).agreedOpen ≠ none ∧
      (entryOf 1#32 none none).openTaken = true ∧ after (.openTaken 1#3 1#32 110#64) (nextTrigger .armed) = nextTrigger .armed) := by
  decide

theorem test_witness_outcome_later_rings : (nextTrigger .armed).ringOk ∧ unopened.ringOk ∧ waitingOpen.ringOk :=
  ⟨ringOk_of_check (by decide), ringOk_of_check (by decide), ringOk_of_check (by decide)⟩

/-- In a dark capture of shot 1, which awaits it with its outcome due. -/
def darkTrigger (c : CaptureState) (p : DarkPhase) : State :=
  { nextTrigger c with
    dark := { ready.dark with capture := some (darkOf p) }
    ring := { (nextTrigger c).ring with
      slots := some { slotOf 1#32 .raw with dark := some .awaiting } :: List.replicate 7 none } }

theorem test_witness_outcome_dark :
    ((darkTrigger .darkExposing .exposing).calm ∧ (darkTrigger .darkExposing .exposing).inForce ∧
      (darkTrigger .darkExposing .exposing).edgeAtTrigger = none ∧
      (darkTrigger .darkExposing .exposing).slot? 1#32 = some { slotOf 1#32 .raw with dark := some .awaiting }) ∧
    ((after (.openTaken 1#3 2#32 70#64) (darkTrigger .darkExposing .exposing)).slot? 1#32).map laterOutcome =
      some (some .unobserved, .developing, some 0) ∧
    ((after (.refuseTaken 1#3 2#32 .blocked .drop) (darkTrigger .darkReading .scanning)).slot? 1#32).map laterOutcome =
      some (some .unobserved, .developing, some 0) ∧
    (((after .syncClosingEdge (closing (darkTrigger .darkReading .scanning))).slot? 1#32).map laterOutcome =
        some (some .unobserved, .developing, some 0) ∧
      ((after .syncClosingEdge (closing (darkTrigger .darkReading .scanning))).slot? 1#32).map (·.dark) = some (some .none)) := by
  decide

theorem test_witness_outcome_dark_rings :
    (darkTrigger .darkExposing .exposing).ringOk ∧ (darkTrigger .darkReading .scanning).ringOk :=
  ⟨ringOk_of_check (by decide), ringOk_of_check (by decide)⟩

/-! ### Triggers by an own closing edge that are refused, or that abandon a dark capture; a Refuse in a dark capture -/

/-- The next shot number is FFFFFFFFh. -/
def exhausted (s : State) : State := { s with ring := { s.ring with next := lastShot } }

theorem test_witness_edge_refused :
    ((closing (capturing .reading)).maturing .low whole ∧ (closing (capturing .reading)).calm ∧
      ((closing (capturing .reading)).timer .attribution).running = false ∧
      State.refuses .reading 1#32 .sensorBusy .drop (closing (capturing .reading)) ∧
      (closing (capturing .reading)).ring.next = 1#32) ∧
    State.refuses .armed lastShot .exhausted .drop (closing (exhausted armedState)) ∧
    (State.refuses .armed 9#32 .blocked .drop (closing (crowded false)) ∧ (closing (crowded false)).ring.next = 9#32) ∧
    State.refuses .armed 9#32 .ringFull .drop (closing (crowded true)) ∧
    State.refuses .halted 2#32 .notArmed .drop (capturing .halted) ∧ State.refuses .exposing 2#32 .sensorBusy .drop (capturing .exposing) ∧
    after .syncClosingEdge (closing (crowded true)) =
      { (closing (crowded true)).refusedAt 9#32 .ringFull .drop with sync := (closing (crowded true)).sync.accept .low } ∧
    after .syncClosingEdge (closing (exhausted armedState)) =
      { (closing (exhausted armedState)).refusedAt lastShot .exhausted .drop with sync := (closing armedState).sync.accept .low } := by
  and_intros <;> first | decide | (unfold State.refuses; decide)

theorem test_witness_edge_refused_outcomes :
    (closing (capturing .reading)).noOutcomeDue ∧ (closing (exhausted armedState)).noOutcomeDue ∧
    (closing (crowded false)).noOutcomeDue ∧ (closing (crowded true)).noOutcomeDue :=
  ⟨noOutcomeDue_of (by decide), noOutcomeDue_of (by decide), noOutcomeDue_of (by decide), noOutcomeDue_of (by decide)⟩

theorem test_witness_edge_abandons :
    ((closing (darkTrigger .darkExposing .exposing)).maturing .low whole ∧ (closing (darkTrigger .darkExposing .exposing)).calm ∧
      ((closing (darkTrigger .darkExposing .exposing)).timer .attribution).running = false ∧
      (closing (darkTrigger .darkExposing .exposing)).dark.capture = some (darkOf .exposing) ∧
      (darkTrigger .darkExposing .exposing).capture.settledState = .armed) ∧
    (after .syncClosingEdge (closing (darkTrigger .darkExposing .exposing))).capture.state = .exposing ∧
    (after .syncClosingEdge (closing (darkTrigger .darkExposing .exposing))).link.urgent.map (·.frame.msg) =
      [.readDone 1#32 .dark false, .openShot 2#32 50#64] ∧
    (State.refuses (pendingHalt (darkTrigger .darkExposing .exposing)).capture.settledState 2#32 .notArmed .drop
        (pendingHalt (darkTrigger .darkExposing .exposing)) ∧
      (after .syncClosingEdge (closing (pendingHalt (darkTrigger .darkExposing .exposing)))).capture.state = .halted ∧
      (after .syncClosingEdge (closing (pendingHalt (darkTrigger .darkExposing .exposing)))).link.urgent.map (·.frame.msg) =
        [.readDone 1#32 .dark false, .refuse 2#32 .notArmed .drop]) ∧
    (State.refuses .armed lastShot .exhausted .drop (exhausted (darkTrigger .darkReading .scanning)) ∧
      (after (.openTaken 1#3 lastShot 7#64) (exhausted (darkTrigger .darkReading .scanning))).link.urgent.map (·.frame.msg) =
        [.readDone 1#32 .dark false, .refuse lastShot .exhausted .drop]) := by
  and_intros <;> first | decide | (unfold State.refuses; decide)

theorem test_witness_dark_refused :
    ((darkTrigger .darkReading .scanning).inForce ∧ (darkTrigger .darkReading .scanning).calm ∧
      1#32 < (darkTrigger .darkReading .scanning).ring.next ∧
      (darkTrigger .darkReading .scanning).capture.exposure = some (handOf (some 301#64)) ∧ (handOf (some 301#64)).shot = 1#32 ∧
      (darkTrigger .darkReading .scanning).capture.state ≠ .exposing ∧ (darkTrigger .darkReading .scanning).capture.state ≠ .reading) ∧
    after (.refuseTaken 1#3 1#32 .blocked .drop) (quieted [0#3] (darkTrigger .darkReading .scanning)) =
      { darkTrigger .darkReading .scanning with
        clock := { ready.clock with timers := { ready.clock.timers with quiet := { request := .stop } } } } ∧
    (after (.refuseTaken 1#3 1#32 .blocked .halt) (darkTrigger .darkReading .scanning)).capture =
      { (darkTrigger .darkReading .scanning).capture with haltPending := true } := by decide

/-! ### Waiting claims, the end of a pass, and ejecting cards -/

/-- One buffer is free, and two members wait. -/
def served (count : Nat) : State :=
  granting [grantOf 5#3 31] [{ claimOf 1#3 with count := count }, claimOf 0#3] (filling openPlace ready)
/-- Station 1 claims again with two grants unfilled, and station 0 waits for a buffer. -/
def reclaiming : State := granting [grantOf 1#3 2, grantOf 5#3 30] [claimOf 0#3] (filling openPlace ready)
def returned : State := State.serve { reclaiming with card := reclaiming.card.setGrant { grantOf 1#3 2 with unfilled := 0 } }

theorem test_witness_served :
    ((served 1).card.waiting = claimOf 1#3 :: [claimOf 0#3] ∧ (served 1).card.free = 1) ∧
    (State.serve (served 1)).card.waiting = [claimOf 0#3] ∧ (State.serve (served 9)).card.waiting = [] ∧
    (State.serve (served 9)).link.control.map (·.frame.msg) =
      [.grant 1#8 1#8 1#32 0#8 true, .grant 0#8 1#8 1#32 1#8 false] ∧
    (reclaiming.card.grant? 1#3 = some (grantOf 1#3 2) ∧ returned.card.free = 1 ∧ returned.card.waiting = []) ∧
    after (.claimTaken 1#3 1#8 1#32 4#8) reclaiming =
      { returned with
        card := { returned.card with
          grants := returned.card.grants.filter (·.member != 1#3) ++ [{ member := 1#3, shot := 1#32, unfilled := 1 }] }
        link := returned.linkAfter (nodeDst 1#3) (.grant 1#8 1#8 1#32 1#8 false) } := by decide

def atTransfer (a b : Option Part) : State := current 1#32 (holding .developed a b ready)
/-- Shot 2 waits behind the current tile. -/
def behind : State :=
  { atTransfer (reserving .claiming 0) none with ring := { (atTransfer (reserving .claiming 0) none).ring with
      slots := [some (slotOf 1#32 .developed), some (slotOf 2#32 .developed), none, none, none, none, none, none]
      top := 1
      next := 3#32
      roster := [entryOf 1#32 (reserving .claiming 0) none, { entryOf 2#32 (reserving .idle 0) none with slot := 1 }] } }
def grantNone : Instr := .grantTaken 0#3 0#8 1#8 1#32 0#8 true

theorem test_witness_pass_ends :
    ((atTransfer (reserving .claiming 0) none).transfer.current = some 1#32 ∧
      (partOf .reserved .claiming 0).transfer = .claiming ∧ (partOf .reserved .idle 2).target = false) ∧
    ((after grantNone (atTransfer (reserving .claiming 0) none)).transfer.current = none ∧
      (after grantNone (atTransfer (reserving .claiming 0) none)).entry? 1#32 = some (entryOf 1#32 (reserving .closed 0) none)) ∧
    ((after grantNone (atTransfer (reserving .claiming 0) (reserving .idle 2))).transfer.current = some 1#32 ∧
      (after grantNone (atTransfer (reserving .claiming 0) (reserving .idle 2))).entry? 1#32 =
        some (entryOf 1#32 (reserving .claiming 0) (reserving .sending 2)) ∧
      (after grantNone (atTransfer (reserving .claiming 0) (reserving .idle 2))).link.control.map (·.frame.msg) =
        [.claim 1#8 1#32 1#8]) ∧
    ((after grantNone behind).transfer.current = some 2#32 ∧
      (after grantNone behind).entry? 2#32 = some { entryOf 2#32 (reserving .claiming 0) none with slot := 1 }) := by decide +kernel

theorem test_witness_pass_rings :
    (atTransfer (reserving .claiming 0) none).ringOk ∧ (atTransfer (reserving .claiming 0) (reserving .idle 2)).ringOk ∧ behind.ringOk :=
  ⟨ringOk_of_check (by decide), ringOk_of_check (by decide), ringOk_of_check (by decide)⟩

def commitA : Instr := .commitTaken 0#3 1#32 .a 1#16 1#16
def unplaceA : Instr := .unplaceTaken 0#3 1#32 .a .removed

/-- A Commit or an Unplace at the current tile, and at another; and an Unplace that frees its shot. -/
theorem test_witness_socket_left :
    ((atTransfer (reserving .sending 1) (reserving .idle 0)).inForce ∧ (atTransfer (reserving .sending 1) (reserving .idle 0)).calm ∧
      (partOf .reserved .sending 1).target = true ∧ (partOf .reserved .idle 0).target = false ∧
      (partOf .committed .closed 0).target = false ∧ (partOf .void .idle 0).target = false) ∧
    ((after commitA (atTransfer (reserving .sending 1) (reserving .idle 0))).entry? 1#32 =
        some (entryOf 1#32 (some (partOf .committed .closed 0)) (reserving .claiming 0)) ∧
      (after commitA (atTransfer (reserving .sending 1) (reserving .closed 0))).transfer.current = none ∧
      (after commitA (current 2#32 (atTransfer (reserving .sending 1) (reserving .closed 0)))).transfer.current = some 2#32 ∧
      (after commitA (atTransfer (reserving .sending 1) (reserving .sending 1))).transfer.current = some 1#32) ∧
    ((after unplaceA (atTransfer (reserving .sending 1) (reserving .idle 0))).entry? 1#32 =
        some (entryOf 1#32 (some (partOf .void .idle 0)) (reserving .claiming 0)) ∧
      (after unplaceA (atTransfer (reserving .sending 1) none)).transfer.current = none) ∧
    (((partOf .reserved .sending 1).placement = .reserved ∧ (partOf .committed .closed 0).placement = .committed) ∧
      (after unplaceA (atTransfer (reserving .sending 1) (some (partOf .committed .closed 0)))).slot? 1#32 = none ∧
      (after unplaceA (atTransfer (reserving .sending 1) (some (partOf .committed .closed 0)))).transfer.current = none) := by
  decide

theorem test_witness_socket_left_rings :
    (atTransfer (reserving .sending 1) (reserving .idle 0)).ringOk ∧ (atTransfer (reserving .sending 1) (reserving .closed 0)).ringOk ∧
    (atTransfer (reserving .sending 1) (some (partOf .committed .closed 0))).ringOk :=
  ⟨ringOk_of_check (by decide), ringOk_of_check (by decide), ringOk_of_check (by decide)⟩

def ownSegment (g : SegmentBody) (cancelled : Bool) (s : State) : State :=
  { s with link := { s.link with
      phase := .sending .bulk false
      bulk := some { frame := { dst := 15#4, msg := .segment g }, spoils := 0, cancelled := cancelled } } }
def ownWire (g : SegmentBody) : WireFrame := Frame.wire 0#3 { dst := 15#4, msg := .segment g }
def plainSegment : SegmentBody := { segmentOf [1#8] with tile := 0#8 }
def lastSegment : SegmentBody := { whole14 0x707#16 0x707#16 with tile := 0#8 }
def sentBy (g : SegmentBody) (cancelled : Bool) (s : State) : State := after (.frameEnd (ownWire g) false) (ownSegment g cancelled s)
/-- A card station that sends to its own socket. -/
def ownSocket : State := granting [grantOf 0#3 2] [] (filling openPlace (atTransfer (reserving .sending 2) none))

theorem test_witness_own_segments :
    (Msg.parse (ownWire plainSegment).kind (ownWire plainSegment).body = some (.segment plainSegment) ∧
      Msg.parse (ownWire lastSegment).kind (ownWire lastSegment).body = some (.segment lastSegment)) ∧
    ((sentBy plainSegment false (atTransfer (reserving .sending 1) none)).entry? 1#32 =
        some { entryOf 1#32 (reserving .claiming 0) none with cursor := 1 } ∧
      (sentBy plainSegment false (atTransfer (reserving .sending 1) none)).link.control.length = 1) ∧
    (sentBy plainSegment true (atTransfer (reserving .sending 1) none)).entry? 1#32 = some (entryOf 1#32 (reserving .claiming 0) none) ∧
    ((sentBy lastSegment false (atTransfer (reserving .sending 1) none)).entry? 1#32 = some (entryOf 1#32 (reserving .closed 0) none) ∧
      (sentBy lastSegment false (atTransfer (reserving .sending 1) none)).transfer.current = none) ∧
    ((sentBy plainSegment false ownSocket).card.grants = [grantOf 0#3 1] ∧
      (sentBy plainSegment false ownSocket).entry? 1#32 = some { entryOf 1#32 (reserving .sending 1) none with cursor := 1 }) := by
  decide +kernel

/-- The Segment in hand goes with the end of its pass (R170). -/
theorem test_witness_pass_cancels :
    ((after commitA (ownSegment plainSegment false (atTransfer (reserving .sending 1) (reserving .closed 0)))).link.bulk.map
      (·.cancelled)) = some true ∧
    ((after unplaceA (ownSegment plainSegment false (atTransfer (reserving .sending 1) none))).link.bulk.map (·.cancelled)) =
      some true := by decide

theorem test_witness_own_rings : (ownSegment plainSegment false (atTransfer (reserving .sending 1) none)).ringOk ∧
    (ownSegment lastSegment false (atTransfer (reserving .sending 1) none)).ringOk ∧ (ownSegment plainSegment false ownSocket).ringOk :=
  ⟨ringOk_of_check (by decide), ringOk_of_check (by decide), ringOk_of_check (by decide)⟩

/-- No buffer is free, and station 0 waits for one. -/
def crammed (p : Placed) : State := narrow (granting [grantOf 1#3 1, grantOf 5#3 31] [claimOf 0#3] (filling p ready))
def ejecting (s : State) : State := { s with card := { s.card with state := .ejecting } }
/-- Station 1 has been asked three times. -/
def thrice : Placed := placedOf .filling 0 [progressOf 0#3 0 false 0, progressOf 1#3 0 false 3]

theorem test_witness_segment_waiting :
    ((crammed openPlace).card.free = 0 ∧ (crammed openPlace).card.waiting = [claimOf 0#3] ∧
      (crammed openPlace).card.grant? 1#3 = some (grantOf 1#3 1)) ∧
    after (.segmentTaken 1#3 (segmentOf [1#8])) (crammed openPlace) =
      State.serve { crammed openPlace with card := (crammed openPlace).card.spendGrant 1#3 } ∧
    ((after (.segmentTaken 1#3 (segmentOf [1#8])) (crammed openPlace)).card.waiting = [] ∧
      (after (.segmentTaken 1#3 (whole14 0#16 0#16)) (crammed openPlace)).card.waiting = [] ∧
      (after (.segmentTaken 1#3 (whole14 0#16 0#16)) (crammed openPlace)).link.control.length = 2) ∧
    (thrice.progress? 1#3 = some (progressOf 1#3 0 false 3) ∧
      (after (.segmentTaken 1#3 (whole14 0#16 0#16)) (crammed thrice)).card.state = .ready ∧
      (after (.segmentTaken 1#3 (whole14 0#16 0#16)) (crammed thrice)).card.placements = [] ∧
      (ejecting (crammed thrice)).card.letter = some .a ∧
      (after (.segmentTaken 1#3 (whole14 0#16 0#16)) (ejecting (crammed thrice))).card.state = .released) := by decide

/-- A write is at the head of the queue of a card, and station 0 waits for a buffer. -/
def freeing (w : Write) (p : Placed) : State := granting [grantOf 5#3 31] [claimOf 0#3] (writing w p (holding .raw none none ready))
/-- Shot 1 is Committing, and a claim of shot 2 waits. -/
def indexing : State :=
  let s := granting [grantOf 5#3 30, grantOf 1#3 2] [{ claimOf 0#3 with shot := 2#32 }]
    (writing (writeOf (.index 7#16) false) (placedOf .committing 0 openPlace.progress) (holding .raw none none ready))
  { s with card := { s.card with placements := s.card.placements ++ [{ openPlace with shot := 2#32 }] } }
def lastOne (w : Write) : State :=
  let s := ejecting (freeing w openPlace)
  { s with card := { s.card with placements := [], grants := [], waiting := [] } }

theorem test_witness_writes_waiting :
    ((freeing (writeOf .block false) { openPlace with unwritten := 1 }).card.free = 0 ∧
      (after .cardBlockWriteComplete (freeing (writeOf .block false) { openPlace with unwritten := 1 })).card.waiting = [] ∧
      (after .cardBlockWriteComplete (freeing (writeOf .block false) { openPlace with unwritten := 1 })).link.control.map
        (·.frame.msg) = [.grant 0#8 1#8 1#32 1#8 false]) ∧
    (indexing.card.free = 0 ∧ (after .indexWriteComplete indexing).card.waiting = [] ∧
      (after .indexWriteComplete indexing).card.grants =
        [{ member := 0#3, shot := 2#32, unfilled := 1 }]) ∧
    ((after .cardBlockWriteComplete (freeing (writeOf .block false) allClosed)).card.placements.map (·.phase) = [.committing] ∧
      (after .cardBlockWriteComplete (freeing (writeOf .block false) allClosed)).card.writes.length = 2) := by decide +kernel

theorem test_witness_writes_ejecting :
    (lastOne (writeOf .void false)).card.state = .ejecting ∧
    (after .voidWriteComplete (lastOne (writeOf .void false))).card.state = .released ∧
    (after .headerWriteComplete (lastOne (writeOf .header false))).card.state = .released ∧
    (after .cardBlockWriteComplete (lastOne (writeOf .block true))).card.state = .released ∧
    (after .headerWriteComplete (ejecting (freeing (writeOf .header false) allClosed))).card.state = .ejecting ∧
    (after .indexWriteComplete (ejecting (writing (writeOf (.index 7#16) false) (placedOf .committing 0 openPlace.progress)
      (holding .raw none none ready)))).card.state = .released := by decide

/-- Shot 1 is placed and goes, and a claim of shot 2 waits. -/
def discarding : State :=
  let s := granting [grantOf 5#3 30, grantOf 1#3 2] [{ claimOf 0#3 with shot := 2#32 }]
    (filling openPlace (holding .raw (reserving .sending 2) none ready))
  { s with card := { s.card with placements := [openPlace, { openPlace with shot := 2#32 }] } }

theorem test_witness_discard_placed :
    (discarding.card.placed? 1#32 = some openPlace ∧ discarding.transfer.current ≠ some 1#32 ∧ discarding.link.bulk = none) ∧
    (after (.discard broadcastHeader 1#32) discarding).card =
      (State.serve { discarding with card := { discarding.card.without 1#32 with
        writes := [voidWrite (entryOf 1#32 (reserving .sending 2) none) openPlace] } }).card ∧
    (after (.discard broadcastHeader 1#32) discarding).card.waiting = [] := by decide

theorem test_witness_discard_ring : discarding.ringOk := ringOk_of_check (by decide)

/-- Shot 1, Held, with a socket open for it, and no current transfer tile, or with another tile current. -/
def heldOpen : State := holding .held (reserving .idle 0) none ready

theorem test_witness_keep_answers :
    (heldOpen.calm ∧ heldOpen.inForce ∧ heldOpen.transfer.current = none) ∧
    ((after (.keep header 1#32) heldOpen).transfer.current = some 1#32 ∧
      (after (.keep header 1#32) heldOpen).link.control.map (·.frame.msg) =
        [.claim 1#8 1#32 1#8, .answer 1#8 0x20#8 .done none []]) ∧
    ((current 9#32 heldOpen).transfer.current ≠ none ∧
      (after (.keep header 1#32) (current 9#32 heldOpen)).link = (current 9#32 heldOpen).linkAnswering header 0x20#8 .done) ∧
    (after (.discard broadcastHeader 1#32) (holding .raw none none ready)).link =
      (holding .raw none none ready).linkAnswering broadcastHeader 0x21#8 .done ∧
    ((atTransfer (reserving .idle 0) none).transfer.current = some 1#32 ∧
      (after (.discard broadcastHeader 1#32) (atTransfer (reserving .idle 0) none)).transfer.current = none) ∧
    ((developing .edge [edgeIn .waiting]).develop.job = some (jobOf .edge [edgeIn .waiting]) ∧ (jobOf .edge [edgeIn .waiting]).waiting = true ∧
      ((after (.discard broadcastHeader 1#32) (developing .edge [edgeIn .waiting])).timer .seam).request = .stop) := by decide +kernel

theorem test_witness_keep_none_waits : ∀ m, ¬(holding .developed none none ready).awaitsTransfer m := by
  rintro m ⟨_, e, x, he, _, _, p, hp, _⟩
  have : e = entryOf 1#32 none none := by
    have h := List.mem_of_find?_eq_some he
    simpa [holding] using h
  subst this
  simp [Entry.parts, entryOf] at hp

theorem test_witness_keep_rings : heldOpen.ringOk ∧ (atTransfer (reserving .idle 0) none).ringOk :=
  ⟨ringOk_of_check (by decide), ringOk_of_check (by decide)⟩

/-! ### A used roll -/

def indexed (pos : Nat) (kind : Byte) (first blocks : Nat) (m : Medium) : Medium :=
  { m with bytes := Memory.writeBytes m.bytes (indexAddress pos) (indexEntryBytes kind 0#8 2 1#32 first blocks 0#64 0#32 0#16) }
/-- A Void entry, a Blank one, and a Shot. -/
def usedRoll : Medium := indexed 3 1#8 71 3 (indexed 1 2#8 65 3 (labelled 100))

theorem test_witness_used_roll :
    ((cardIndex usedRoll.bytes)[2]? = some { kind := 1, first := 71, blocks := 3 } ∧
      (∀ e ∈ (cardIndex usedRoll.bytes).drop 3, e.kind = 0) ∧ labelValid usedRoll = true) ∧
    (after .mountReadComplete (carded usedRoll .mounting ready)).card.roll = some (rollOf 100 3 74) := by decide +kernel

theorem test_witness_faulty_index :
    (after .mountReadComplete (carded (indexed 1 1#8 66 3 (labelled 100)) .mounting ready)).card.state = .failed ∧
    (after .mountReadComplete (carded (indexed 2 1#8 69 3 (indexed 1 1#8 65 3 (labelled 100))) .mounting ready)).card.state = .failed ∧
    (after .mountReadComplete (carded (indexed 3 1#8 67 3 (indexed 1 1#8 65 3 (labelled 100))) .mounting ready)).card.state =
      .failed := by decide +kernel

theorem test_witness_index_fault :
    indexFault 100 [{ kind := 1, first := 66, blocks := 3 }] 0 ∧
    indexFault 100 [{ kind := 1, first := 65, blocks := 3 }, { kind := 0, first := 0, blocks := 0 }, { kind := 2, first := 67, blocks := 3 }] 2 :=
  ⟨⟨_, rfl, by decide, .inr (.inr (.inr (.inl ⟨rfl, by decide⟩)))⟩,
    ⟨_, rfl, by decide, .inr (.inr (.inr (.inr ⟨0, _, by decide, rfl, by decide,
      fun h q h0 h2 hq => by
        have : h = 1 := by omega
        subst this
        cases hq
        rfl, .inl (by decide)⟩)))⟩⟩

/-! ### Choices at a Place, an overflow at the current tile, a Redo at the sender, and the forms of a Segment -/

def placeA (o : PlaceOutcome) : Instr := .placeTaken 0#3 1#32 .a o
/-- `overflowing` with no current transfer tile, or with shot 1 as the current one. -/
def overflowIdle : State := { overflowing with transfer := { current := none } }
def overflowCurrent : State :=
  let s := mounted (rollOf 100 5 68) (strapped 1#3 (atTransfer (reserving .sending 1) (some (partOf .pending .idle 0))))
  { s with card := { s.card with letter := some .b }, member := { s.member with settings := { s.settings with storageMode := .overflow } } }

theorem test_witness_place_chooses :
    ((holding .developed (some (partOf .pending .idle 0)) none ready).takesFrames ∧
      (holding .developed (some (partOf .pending .idle 0)) none ready).transfer.current = none ∧
      (after (placeA (.reserved 1#16 65#32)) (holding .developed (some (partOf .pending .idle 0)) none ready)).transfer.current =
        some 1#32) ∧
    (overflowIdle.takesFrames ∧ overflowIdle.transfer.current = none ∧ overflowIdle.member.state = .ready ∧
      overflowIdle.overflowsTo 0#3 (entryOf 1#32 (some (partOf .pending .idle 0)) (some (partOf .pending .idle 0))) ∧
      (after (placeA (.refused .full)) overflowIdle).card.placements.map (·.shot) = [1#32]) ∧
    ((entryOf 1#32 none (reserving .idle 0)).part .a = none ∧ ready.entry? 1#32 = none ∧
      after (placeA (.refused .full)) ready = ready) ∧
    (overflowCurrent.overflowsTo 0#3 (entryOf 1#32 (reserving .sending 1) (some (partOf .pending .idle 0))) ∧
      (after unplaceA overflowCurrent).transfer.current = none ∧
      (after unplaceA overflowCurrent).card.placements.map (·.shot) = [1#32]) ∧
    (after unplaceA { overflowCurrent with ring := { overflowCurrent.ring with
        roster := [entryOf 1#32 (some (partOf .committed .closed 0)) (some (partOf .pending .idle 0))] } }).card.placements.map
      (·.shot) = [1#32] := by decide

theorem test_witness_place_rings :
    (holding .developed (some (partOf .pending .idle 0)) none ready).ringOk ∧ overflowIdle.ringOk ∧ overflowCurrent.ringOk :=
  ⟨ringOk_of_check (by decide), ringOk_of_check (by decide), ringOk_of_check (by decide)⟩

def redoOwn : Instr := .redoTaken 0#3 1#32 0#8 .a .tileSum
/-- Station 0 has sent 14 bytes to its own socket. -/
def halfway : State :=
  filling (placedOf .filling 0 [progressOf 0#3 14 false 1, progressOf 1#3 0 false 0]) (atTransfer (reserving .closed 0) none)

theorem test_witness_redo_sender :
    ((holding .developed (reserving .closed 0) none ready).transfer.current = none ∧
      (after redoOwn (holding .developed (reserving .closed 0) none ready)).transfer.current = some 1#32 ∧
      (after redoOwn (holding .developed (reserving .closed 0) none ready)).link.control.length = 1) ∧
    ((atTransfer (reserving .claiming 0) (reserving .closed 0)).transfer.current = some 1#32 ∧
      (after redoOwn (atTransfer (reserving .claiming 0) (reserving .closed 0))).entry? 1#32 =
        some (entryOf 1#32 (reserving .claiming 0) (reserving .claiming 0)) ∧
      (after redoOwn (ownSegment plainSegment false (atTransfer (reserving .sending 1) none))).link.bulk.map (·.cancelled) =
        some true) ∧
    (halfway.cardStation = true ∧ halfway.self.setWidth 8 = 0#8 ∧ halfway.entry? 1#32 ≠ none ∧
      (after redoOwn halfway).card.placements = [placedOf .filling 0 [progressOf 0#3 0 false 1, progressOf 1#3 0 false 0]] ∧
      (after redoOwn halfway).entry? 1#32 = some (entryOf 1#32 (reserving .claiming 0) none)) := by decide

/-- The tile's sum differs, and station 1 has been asked three times; a block of the shot is queued behind the header of another. -/
def queuedBlocks (p : Placed) (s : State) : State :=
  { filling p s with card := { (filling p s).card with
      writes := [{ writeOf .header false with shot := 2#32 }, writeOf .block false] } }

theorem test_witness_segment_forms :
    ((plain ready).cardStation = false ∧ (granting [grantOf 1#3 1] [] (filling openPlace ready)).card.placed? 2#32 = none ∧
      openPlace.progress? 5#3 = none ∧ (filling openPlace ready).card.grant? 1#3 = none ∧
      (segmentOf [1#8]).tile ≠ (2#3).setWidth 8 ∧ (grantOf 1#3 0).unfilled = 0) ∧
    ((after (.segmentTaken 1#3 (whole14 0x707#16 0x707#16)) (ejecting (crammed openPlace))).card.writes.length = 1 ∧
      (after (.segmentTaken 1#3 (whole14 0x707#16 0x707#16)) (crammed openPlace)).card.waiting = [claimOf 0#3]) ∧
    ((after (.segmentTaken 1#3 (whole14 0x707#16 0x708#16)) (crammed openPlace)).link.control.map (·.frame.msg) =
        [.redo 1#32 1#8 .a .tileSum] ∧
      (after (.segmentTaken 1#3 (whole14 0x707#16 0x708#16)) (crammed thrice)).card.placements = [] ∧
      (after (.segmentTaken 1#3 (whole14 0x707#16 0x708#16)) (crammed thrice)).card.writes.map (·.cancelled) = [true] ∧
      (after (.segmentTaken 1#3 (whole14 0x707#16 0x708#16)) (crammed thrice)).card.waiting = []) ∧
    (after (.segmentTaken 1#3 (whole14 0#16 0#16)) (narrow (granting [grantOf 1#3 1] [] (queuedBlocks thrice ready)))).card.writes.map
      (·.shot) = [2#32] := by decide

theorem test_witness_wakes_mount :
    ((carded (blankCard 1) .empty (asleep none)).cardStation = true ∧ (carded (blankCard 1) .empty (asleep none)).card.medium ≠ none ∧
      (after (.wakeTaken 7#3 1#8 .panel) (carded (blankCard 1) .empty (asleep none))).card.state = .mounting ∧
      (after (.wakeTaken 7#3 1#8 .panel) (carded (blankCard 1) .empty (asleep none))).link.control.map (·.frame.msg) =
        ((asleep none).rollAtEntry true).map (·.frame.msg)) ∧
    (((asleep none).rollAtEntry true).length = 1 ∧ (strapped 1#3 (asleep none)).rollAtEntry true = []) ∧
    ((after (.cardInserted (blankCard 1)) (strapped 1#3 (asleep none))).link.control.map (·.frame.msg) = [.wake 0x3F#8 .card] ∧
      (after (.cardInserted (blankCard 1)) (asleep none)).link.control =
        { frame := { dst := 15#4, msg := .wake 0x3F#8 .card }, spoils := 0 } :: (asleep none).rollAtEntry true ∧
      (after .syncWake (asleep (some whole))).link.control =
        { frame := { dst := 15#4, msg := .wake 0x3F#8 .sync }, spoils := 0 } :: (asleep (some whole)).rollAtEntry true) ∧
    ((after .syncWake (carded (blankCard 1) .empty (asleep (some whole)))).notices.records.getD 5 none =
        some { data := .cardState (some .a) .mounting 0#32 0#16 0#32, count := 1 } ∧
      (after .syncWake (carded (blankCard 1) .empty (asleep (some whole)))).notices.records.getD 9 none =
        some { data := .woke .sync (asleep (some whole)).clock.linkTime, count := 1 }) := by decide

theorem test_witness_eject_notices :
    ((mounted (rollOf 100 0 65) ready).card.ejectingNotice = .cardState (some .a) .ejecting 7#32 0#16 65#32 ∧
      (after (.eject header 1#8) (mounted (rollOf 100 0 65) ready)).notices.records.getD 5 none =
        some { data := .cardState (some .a) .released 0#32 0#16 0#32, count := 2 }) ∧
    (after (.eject header 1#8) (filling openPlace ready)).notices.records.getD 5 none =
      some { data := .cardState (some .a) .ejecting 7#32 1#16 68#32, count := 1 } := by decide

/-- A Refuse with policy Halt in Doze makes the station Halted; Resume makes it Armed there, in Doze (log 57). -/
theorem test_resume_in_doze : after (.resume header) (power .doze (capturing .halted)) =
    { power .doze (capturing .halted) with
      capture := { (capturing .halted).capture with state := .armed }
      sync := { (capturing .halted).sync with bounces := 0 }
      link := (power .doze (capturing .halted)).linkAnswering header 0x12#8 .done } := by decide

/-! ## No expiry comes before the commands of the witnesses -/

theorem test_witness_calm_link :
    ∀ s ∈ [onLink (.hearing true) ready, queues [] [] none, queues [urgentHead] [] none, queues [] [queuedMark] none,
      queues [] [] (some (segmentHead 0 false)), onLink (.hearing false) ready,
      onLink (.sending .urgent false) (queues [{ urgentHead with spoils := 14 }] [] none),
      onLink (.sending .control false) (queues [] [{ queuedMark with spoils := 14 }] none),
      onLink (.sending .bulk false) (queues [] [] (some (segmentHead 14 false))), onLink (.sending .urgent false) ready,
      power .sleep ready, heldBack, noticed, withdrawn true, station .excluded, owing (holding .raw none none ready),
      current 1#32 (holding .developed (reserving .sending 1) none ready), strapped 6#3 ready], s.calm := by decide

theorem test_witness_calm_station :
    ∀ s ∈ [rolling true, rolling false, rolled true true, rolled false true, rolled true false, station .excluded, strapped 7#3 ready,
      alarmAt 2#64 ready, alarmAt 9#64 ready, pulseAt 1999, ticks 9 98 99, ticks 9 99 98, ticks 9 99 99, alarmAt 2#64 (ticks 9 0 0),
      unwired ready, accepted none none, accepted (some .low) none, accepted (some .low) (some whole), station .duplicate,
      configuring, rejoining, asleep none, asleep (some whole), power .doze ready, dozing (closing ready)], s.calm := by decide

theorem test_witness_calm_capture :
    ∀ s ∈ [observing, attributing observing, attributing (closing ready), closing (capturing .halted), closing armedLast, armedLast,
      armedState, capturing .halted, capturing .exposing, crowded true, crowded false, darkening .darkExposing .exposing .raw,
      darkening .darkReading .scanning .raw, darkening .darkReading .reading .raw, exposing ready, underTest .low (exposing ready),
      unopened, unagreed, pulseMode ready, holding .raw none none ready, quieted [1#3] ready, readOut 999999, readOut 1000000,
      closeless, committed, scanning [2048#14, 2049#14] [], scanning [] []], s.calm := by decide

theorem test_witness_calm_tiles :
    ∀ s ∈ [sending (holding .raw (some (partOf .pending .idle 0)) none ready), holding .raw (reserving .closed 0) none ready,
      placing .a, closing (placing .a), overflowing, carded (labelled 100) .mounting (holding .raw none none ready),
      developing .base [], developing .interior [], developing .edge [edgeIn .waiting], developing .gain [], developing .finish [],
      tile, waits, narrow ready, narrow (holding .raw none none ready), filling openPlace ready, reclaiming,
      holding .developed (reserving .claiming 0) none ready, atTransfer (reserving .claiming 0) none, behind, seamInAir,
      onAir (plain (holding .developed (reserving .sending 2) none ready)),
      ownSegment plainSegment false (atTransfer (reserving .sending 1) none), ownSegment lastSegment false ownSocket,
      receiving openPlace 1, crammed openPlace, ejecting (crammed thrice), writing (writeOf .block false) openPlace ready, indexing,
      lastOne (writeOf .void false), carded (blankCard 67) .mounting ready, carded (blankCard 1) .formatting ready,
      mounted (rollOf 100 0 65) ready, statistics (.wakeRecord [1#8]) ready, discarding, sized, overflowIdle, overflowCurrent, halfway,
      holding .developed (some (partOf .pending .idle 0)) none ready, queuedBlocks thrice ready, ejecting (crammed openPlace),
      carded (blankCard 1) .empty (asleep none)], s.calm := by decide +kernel

/-! ## Small steps of the sleep test, of an expiry that comes first, and of a length of 0 -/

/-- Detached and idle, a station that takes Sleep is asleep in that event. -/
theorem test_sleep_enters_in_its_event :
    (after (.sleep header) { ready with link := { ready.link with detached := true } }).power.state = .sleep ∧
    (after (.sleep header) ready).power.state = .doze := by decide

/-- A refused Arm changes nothing, in Doze as well. -/
theorem test_refused_arm : after (.arm header) (power .doze (capturing .halted)) =
    { power .doze (capturing .halted) with
      link := (power .doze (capturing .halted)).linkAnswering header 0x10#8 (.refused .badState) } := by decide

theorem test_zero_length : Timer.load 0 {} = { request := .stop, due := true } ∧ (Timer.load 7 {}).reported = .starting ∧
    ({ count := .counting 3 7 } : Timer).reported = .running ∧ ({} : Timer).reported = .idle := by decide

/-! ## Reset and small steps -/

theorem test_reset_starts : exec (.start resetStraps resetSerial false) ready = .next State.reset := rfl

theorem test_reset_idles : step State.reset = .next { State.reset with clock := { State.reset.clock with linkTime := 1#64, sinceFine := 1 } } := rfl

theorem test_no_word_spells_a_command : decodeTableWord 32 7 = none ∧ State.reset.withFetchWord 32 7 = State.reset := by decide

theorem test_restart_is_answered_by_no_one : exec (.restartTaken true false) (power .sleep ready) = .next (power .sleep ready) := rfl

/-! ### A Restart, triggers that end a dark capture, agreed values, and a sender's own fault -/

def badMark : WireFrame := { goodMark with sum := none }

/-- The sender finds a fault in its own frame, alone or with another station. -/
theorem test_witness_own_fault :
    (badMark.faulty = true ∧ (onLink (.sending .control false) (queues [] [queuedMark] none)).calm) ∧
    ((after (.frameEnd badMark false) (onLink (.sending .control false) (queues [] [queuedMark] none))).link.spoiled = 1 ∧
      (after (.frameEnd badMark false) (onLink (.sending .control false) (queues [] [queuedMark] none))).link.retries = 1) ∧
    ((after (.frameEnd goodMark true) (onLink (.sending .control false) (queues [] [queuedMark] none))).link.spoiled = 0 ∧
      (after (.frameEnd goodMark true) (onLink (.sending .control false) (queues [] [queuedMark] none))).link.retries = 1) ∧
    (after (.frameEnd badMark true) (onLink (.sending .urgent false) (queues [{ urgentHead with spoils := 15 }] [] none))).link.spoiled =
      1 ∧
    (after (.frameEnd badMark true) (onLink (.sending .bulk false) (queues [] [] (some (segmentHead 0 true))))).link.bulk = none := by
  decide

/-- Shot 1 is developed with an edge waiting, shot 2 is Held, and shot 3 awaits the dark capture in hand. -/
def restartable : State :=
  filling { openPlace with progress := [progressOf 0#3 14 false 1, progressOf 1#3 28 true 2] }
    { ready with
      ring := { ready.ring with
        slots := [some (slotOf 1#32 .developing), some (slotOf 2#32 .held), some { slotOf 3#32 .raw with dark := some .awaiting },
          none, none, none, none, none]
        top := 2, next := 4#32
        roster := [entryOf 1#32 (reserving .sending 3) none, { entryOf 2#32 none none with slot := 1 },
          { entryOf 3#32 none none with slot := 2 }] }
      capture := { ready.capture with state := .darkExposing, current := 3#32 }
      dark := { ready.dark with capture := some { darkOf .exposing with shot := 3#32 } }
      develop := { ready.develop with job := some (jobOf .edge [edgeIn .waiting]), owed := [(2#32, .up)] } }

theorem test_witness_restart_kept :
    (restartable.calm ∧ restartable.self = 0#3 ∧ (strapped 1#3 restartable).self = 1#3 ∧ restartable.card.letter = some .a ∧
      (restartable.card.placements.map (·.shot)).Nodup ∧ restartable.keepsShot 1#32 = true ∧
      (reading ready).keepsShot 1#32 = false) ∧
    (after (.restartTaken false false) restartable).link.rollHeld = restartable.redosHeld .a ∧
    ((restartable.redosHeld .a).map (·.msg) = [.redo 1#32 0#8 .a .restarted, .redo 1#32 1#8 .a .restarted] ∧
      (after (.restartTaken true false) restartable).link.rollHeld = []) ∧
    ((after (.restartTaken true false) restartable).link.control = restartable.rollAtEntry false ∧
      (after (.restartTaken true false) restartable).clock.timers = restartable.timersAtRestart ∧
      ((after (.restartTaken true false) (strapped 1#3 restartable)).timer .roll).request = .load 1) ∧
    ((after (.restartTaken true false) restartable).develop.owed = restartable.bandsOwed ∧ restartable.bandsOwed = [(2#32, .right)]) ∧
    (after (.restartTaken true false) restartable).ring.roster =
      [entryOf 1#32 (reserving .idle 0) none, { entryOf 2#32 none none with slot := 1 }, { entryOf 3#32 none none with slot := 2 }] ∧
    ((after (.restartTaken true false) restartable).ring.slots.take 3 =
      [some (slotOf 1#32 .raw), some (slotOf 2#32 .held), some { slotOf 3#32 .raw with dark := some .none }]) ∧
    (after (.restartTaken true false) restartable).card.placements = restartable.card.placements.map Placed.begunAgain := by
  decide +kernel

/-- Where the tile size changes, the placements are voided and no Redo is held. -/
theorem test_witness_restart_resized :
    ((∀ p ∈ restartable.card.placements, restartable.entry? p.shot ≠ none) ∧ restartable.settings.tileRows ≠ 3072) ∧
    ((after (.restartTaken false true) restartable).card.placements = [] ∧
      (after (.restartTaken false true) restartable).link.rollHeld = []) := by decide +kernel

theorem test_witness_restart_kept_ring : restartable.ringOk := ringOk_of_check (by decide)

/-- As `placing`, in the dark capture of shot 1. -/
def darkPlacing (k : Socket) : State :=
  { mounted (rollOf 68 1023 65) (darkTrigger .darkExposing .exposing) with
    card := { (mounted (rollOf 68 1023 65) (darkTrigger .darkExposing .exposing)).card with letter := some k } }

/-- An admission after an abandoned dark capture, at a station that places and at one that does not. -/
theorem test_witness_dark_admits :
    ((darkPlacing .a).placesAtAdmission ∧ ¬(darkPlacing .b).placesAtAdmission ∧ (darkPlacing .a).capture.settledState = .armed ∧
      (darkPlacing .a).ring.slots.getD (((darkPlacing .a).ring.top + 1) % 8) none = none ∧
      0 < (darkPlacing .a).settings.exposureLimit ∧ 0 < (darkPlacing .a).capture.shutter ∧ (darkPlacing .a).ring.next = 2#32) ∧
    ((after (.openTaken 1#3 2#32 70#64) (darkPlacing .a)).card.placements.map (·.shot) = [2#32] ∧
      (after (.openTaken 1#3 2#32 70#64) (darkPlacing .b)).card = (darkPlacing .b).card) ∧
    (after (.openTaken 1#3 2#32 70#64) (darkPlacing .a)).clock.timers =
      (darkOf .exposing).timersAbandoning (darkPlacing .a).timersAtAdmission ∧
    (after .syncClosingEdge (closing (darkPlacing .a))).entry? 2#32 = some ((closing (darkPlacing .a)).entryAdmitted 2#32) ∧
    ((after .syncClosingEdge (closing (placing .a))).ring.roster = [(closing (placing .a)).entryAdmitted 0xFFFFFFFE#32] ∧
      (after .syncClosingEdge (closing (placing .a))).card.placements.map (·.shot) = [0xFFFFFFFE#32]) := by decide

theorem test_witness_dark_admits_rings : (darkPlacing .a).ringOk ∧ (closing (darkPlacing .a)).ringOk ∧ (closing (placing .a)).noOutcomeDue :=
  ⟨ringOk_of_check (by decide), ringOk_of_check (by decide), noOutcomeDue_of (by decide)⟩

/-- A Refuse of the next shot abandons the dark capture, and is dropped in the settled state. -/
theorem test_witness_dark_refuse_ahead :
    ((darkTrigger .darkExposing .exposing).ring.next ≤ 2#32 ∧ 2#32 ≠ lastShot ∧
      (darkTrigger .darkExposing .exposing).dark.capture = some (darkOf .exposing)) ∧
    ((after (.refuseTaken 0#3 2#32 .blocked .drop) (darkTrigger .darkExposing .exposing)).capture =
        { (darkTrigger .darkExposing .exposing).capture with state := .armed, current := 2#32, exposure := none } ∧
      (after (.refuseTaken 0#3 2#32 .blocked .drop) (darkTrigger .darkExposing .exposing)).link.urgent.map (·.frame.msg) =
        [.readDone 1#32 .dark false]) ∧
    ((after (.refuseTaken 0#3 2#32 .blocked .halt) (pendingHalt (darkTrigger .darkReading .scanning))).capture.state = .halted ∧
      (after (.refuseTaken 0#3 2#32 .blocked .halt) (pendingHalt (darkTrigger .darkReading .scanning))).capture.haltPending = false) := by
  decide

/-- Shot 1 with no agreed open yet, exposed, or read with its agreed close at 400. -/
def openless (close : Option Time) (s : State) : State :=
  { s with ring := { s.ring with roster := [{ entryOf 1#32 none none with
      openTaken := false, agreedOpen := none, agreedDuration := none, agreedClose := close }] } }
def runningTimers (s : State) : State :=
  { s with clock := { s.clock with timers := { s.clock.timers with
      exposureLimit := { count := .counting 5 600 }, pulse := { request := .load 9 } } } }

/-- The agreed duration of a Close and of a late Open, the agreed open that is supplied, and the timers stopped (R61, R62, R65). -/
theorem test_witness_agreed_values :
    ((runningTimers (openless none (exposing ready))).calm ∧ (runningTimers (openless none (exposing ready))).inForce) ∧
    ((after (.closeTaken 1#3 1#32 500#64 false) (runningTimers (openless none (exposing ready)))).entry? 1#32).map
      (fun g => (g.agreedOpen, g.agreedClose, g.agreedDuration)) = some (some 100#64, some 500#64, some 400) ∧
    (((after (.closeTaken 1#3 1#32 500#64 false) (runningTimers (openless none (exposing ready)))).timer .exposureLimit).request = .stop ∧
      ((after (.closeTaken 1#3 1#32 500#64 false) (runningTimers (openless none (exposing ready)))).timer .pulse).request = .stop) ∧
    ((after .syncOpeningEdge (underTest .low (openless none (exposing ready)))).entry? 1#32).map (·.agreedOpen) = some (some 100#64) ∧
    ((after (.openTaken 1#3 1#32 110#64) (openless (some 400#64) (reading ready))).entry? 1#32).map
      (fun g => (g.agreedOpen, g.agreedDuration)) = some (some 110#64, some 290) := by decide

theorem test_witness_agreed_values_rings :
    (runningTimers (openless none (exposing ready))).ringOk ∧ (openless (some 400#64) (reading ready)).ringOk :=
  ⟨ringOk_of_check (by decide), ringOk_of_check (by decide)⟩

def mirroring (b : Option Part) : State :=
  let s := holding .raw (reserving .idle 0) b ready
  { s with member := { s.member with settings := { s.settings with storageMode := .mirror } } }

/-- The unmirrored flag at an Unplace and at a Place in Mirror, with the other part made, pending, or none. -/
theorem test_witness_unmirrored :
    ((mirroring (reserving .idle 0)).takesFrames ∧ (mirroring (reserving .idle 0)).settings.storageMode = .mirror) ∧
    ((after unplaceA (mirroring (reserving .idle 0))).entry? 1#32).map (·.unmirrored) = some true ∧
    ((after unplaceA (mirroring (some (partOf .pending .idle 0)))).entry? 1#32).map (·.unmirrored) = some false ∧
    ((after unplaceA (mirroring none)).entry? 1#32).map (·.unmirrored) = some false ∧
    (∀ k', k' ≠ Socket.a → (entryOf 1#32 (reserving .idle 0) none).part k' = none) :=
  ⟨by decide, by decide, by decide, by decide, by rintro (_ | _) h; exacts [absurd rfl h, rfl]⟩

theorem test_witness_unmirrored_rings : (mirroring (reserving .idle 0)).ringOk ∧ (mirroring none).ringOk :=
  ⟨ringOk_of_check (by decide), ringOk_of_check (by decide)⟩

/-! ## The manual's worked examples, one step each -/

/-- 1.6, step 1: station 3's Segment is on the link when its contact closes. -/
def overtaken : State := onAir (closing (plain armedState))

theorem test_example_1_6 :
    (after .syncClosingEdge overtaken).link.phase = .sending .bulk true ∧
    (after .syncClosingEdge overtaken).link.urgent.map (·.frame.msg) = [.openShot 1#32 50#64] ∧
    (after .syncClosingEdge overtaken).capture.quiet = [0#3, 1#3] ∧
    (after (.frameEnd { segmentFrame with sum := none } true) (after .syncClosingEdge overtaken)).link.bulk = some (segmentHead 0 false) ∧
    (after (.frameEnd { segmentFrame with sum := none } true) (after .syncClosingEdge overtaken)).link.spoiled = 1 ∧
    (after (.frameEnd { segmentFrame with sum := none } true) (after .syncClosingEdge overtaken)).link.retries = 0 := by decide

/-- 2.10: a Seam of a peer goes out before this station's roll timer has expired. -/
def slower : State := rollEnding fun m => { kept [(0#3, 1#32), (1#3, 2#32)] m with rejoin := false, highest := 58#32 }

theorem test_example_2_10 :
    (after (.seamTaken 1#3 1#32 .left (List.replicate 32 0#16)) slower).member.state = .ready ∧
    (after (.seamTaken 1#3 1#32 .left (List.replicate 32 0#16)) slower).ring.next = 58#32 := by decide

/-- 3.8: the alarm's target is stepped over, and the mark timer has one more milli edge to count. -/
def stepping : State :=
  { armedState with
    capture := { armedState.capture with pendingRelease := some 5200360#64 }
    clock := { armedState.clock with
      linkTime := 5200350#64, alarm := some 5200360#64, sinceMilli := 99, sinceFine := 9
      timers := { armedState.clock.timers with mark := { count := .counting 1 100 } } } }

theorem test_example_3_8 :
    (after (.markTaken 0#3 5200340#64 5200310#64) stepping).clock.linkTime = 5200380#64 ∧
    (after (.markTaken 0#3 5200340#64 5200310#64) stepping).clock.alarm = none ∧
    (after (.markTaken 0#3 5200340#64 5200310#64) stepping).clock.pulse = some 0 ∧
    (after (.markTaken 0#3 5200340#64 5200310#64) stepping).capture.pendingRelease = none ∧
    (after .tapEdge (after (.markTaken 0#3 5200340#64 5200310#64) stepping)).clock.timers.mark =
      { count := .counting 100 100 } ∧
    (after .tapEdge stepping).clock.timers.mark = { count := .counting 100 100, due := true } := by decide

/-- 4.12: the outcomes of the four stations, with 3,000,090 agreed. -/
theorem test_example_4_12 :
    syncOutcome 200 (some 3000090#64) 3000090#64 = .equal ∧ syncOutcome 200 none 3000090#64 = .unobserved ∧
    syncOutcome 200 (some 3000100#64) 3000090#64 = .equal ∧ syncOutcome 200 (some 3000330#64) 3000090#64 = .later ∧
    (Slot.recordSync 200 none 3000090#64 { slotOf 12#32 .exposing with ownStart := 3000620#64 }).skew = some 530 ∧
    (Slot.recordSync 200 none 3000090#64 { slotOf 12#32 .exposing with ownStart := 3000620#64 }).skewed = true := by decide

/-- 5.10, shots 11 and 14: blocked by a held slot, and refused by a full ring. -/
theorem test_example_5_10 :
    (crowded false).ring.refusal = some .blocked ∧ (crowded true).ring.refusal = some .ringFull ∧
    (after (.openTaken 1#3 9#32 5#64) (crowded false)).link.urgent.map (·.frame.msg) = [.refuse 9#32 .blocked .drop] ∧
    (after (.openTaken 1#3 9#32 5#64) (crowded true)).link.urgent.map (·.frame.msg) = [.refuse 9#32 .ringFull .drop] := by decide

/-- 6.9: shots 20 to 22, and the insertions of the scan. -/
def dark20 : State :=
  { ready with
    clock := { ready.clock with linkTime := 14000000#64 }
    dark := { ready.dark with valid := true, duration := some 2000000, captureEnd := some 10400010#64 } }

theorem test_example_6_9 :
    needsDark ({} : Settings) 2000000 = true ∧ dark20.darkFits 2100000 = true ∧ dark20.darkFits 4000000 = false ∧
    ((Dark.insert 2100 4090 .hot (Dark.insert 100 1999 .hot (Dark.insert 5 40 .hot
      { ready.dark with defects := [{ row := 100, column := 2000, origin := .fixed },
        { row := 3000, column := 17, origin := .fixed }] }))).defects.map fun d => (d.row, d.column)) =
      [(5, 40), (100, 1999), (100, 2000), (2100, 4090), (3000, 17)] := by decide

/-- 7.8: the repair of (10, 1), without and with the band. -/
theorem test_example_7_8 : repairValue [400, 420, 410] = 410#14 ∧ repairValue [400, 420, 410, 436] = 417#14 := by decide

/-- 8.8: shots 41 and 42 at card A. -/
def big : State :=
  let s := mounted { identity := 7#32, blocks := 300000, index := 2, write := 172099 } ready
  { s with member := { s.member with settings := { s.settings with tileColumns := 4096, tileRows := 3072, storageMode := .overflow } } }

theorem test_example_8_8 :
    shotExtent ({} : Settings) 2 = 86017 ∧
    (big.tryReserve (entryOf 41#32 none none)).card.roll = some { identity := 7#32, blocks := 300000, index := 3, write := 258116 } ∧
    ((big.tryReserve (entryOf 41#32 none none)).tryReserve (entryOf 42#32 none none)).link.control.map (·.frame.msg) =
      [.place 41#32 .a (.reserved 3#16 172099#32), .place 42#32 .a (.refused .full)] := by decide +kernel

/-- 9.7: the second Redo count is B's alone; a full tile at a segment size of 64 has 28 segments. -/
theorem test_example_9_7 :
    (tileBytes { ({} : Settings) with tileColumns := 1024, tileRows := 1024 } + 65535) / 65536 = 28 ∧
    (after (.segmentTaken 1#3 (whole14 0x707#16 0x708#16)) (receiving openPlace 1)).link.control.map (·.frame.msg) =
      [.redo 1#32 1#8 .a .tileSum] := by decide +kernel

/-- 10.5: a record is given at 23 entries and none at 24. -/
def pressed (n : Nat) : State := { noticed with link := { noticed.link with control := List.replicate n queuedMark } }

theorem test_example_10_5 :
    (after .noticeAdmit (pressed 23)).link.control.length = 24 ∧ (after .noticeAdmit (pressed 23)).notices.records.getD 10 none = none ∧
    after .noticeAdmit (pressed 24) = pressed 24 := by decide

/-- 11.6: station 0 is woken by its contact: the Wake goes out ahead of its Roll. -/
theorem test_example_11_6 :
    (after .syncWake (asleep (some whole))).link.control.map (·.frame.msg.kind) = [0x39#8, 0x01#8] ∧
    (after .syncWake (asleep (some whole))).power.wakeCause = some .sync ∧
    (after .syncWake (asleep (some whole))).member.rejoin = true := by decide

end Sys2Proof.Tests
end

section
/-! PROOF. The Notice Unit's choice (R178): the record it gives, and what giving it does to the station. -/

namespace Sys2Proof.Machine

/-! ## The choice -/

/-- One comparison of the choice: a record takes the place of the best before it only where its level is higher. -/
def State.betterRecord (s : State) : Option Nat → Nat → Option Nat
  | none, i => some i
  | some j, i => if s.settings.level j < s.settings.level i then some i else some j

/-- The choice compares the givable records one by one, in class order. -/
theorem State.noticeChoice_eq_foldl (s : State) :
    s.noticeChoice = ((List.range 11).filter s.givable).foldl s.betterRecord none := by
  unfold State.noticeChoice
  congr 1
  funext best i
  cases best <;> rfl

/-- A comparison keeps the best before it, or takes the record compared. -/
theorem State.betterRecord_mem (s : State) (best : Option Nat) (i : Nat) :
    ∀ j ∈ s.betterRecord best i, j ∈ best ∨ j = i := by
  intro j hj
  cases best with
  | none => exact .inr (Option.some.inj hj).symm
  | some k =>
    simp only [State.betterRecord] at hj
    split at hj
    · exact .inr (Option.some.inj hj).symm
    · exact .inl hj

/-- What the comparisons choose is the best before them, or one of the records compared. -/
theorem State.foldl_betterRecord_mem (s : State) (l : List Nat) (best : Option Nat) :
    ∀ j ∈ l.foldl s.betterRecord best, j ∈ best ∨ j ∈ l := by
  induction l generalizing best with
  | nil => exact fun j hj => .inl hj
  | cons x xs ih =>
    intro j hj
    obtain hb | hxs := ih (s.betterRecord best x) j hj
    · exact (s.betterRecord_mem best x j hb).imp_right fun (hx : j = x) => hx ▸ List.mem_cons_self
    · exact .inr (List.mem_cons_of_mem x hxs)

/-- A record stays the best where none after it has a higher level. -/
theorem State.foldl_betterRecord_stays (s : State) (i : Nat) (l : List Nat)
    (hl : ∀ j ∈ l, s.settings.level j ≤ s.settings.level i) : l.foldl s.betterRecord (some i) = some i := by
  induction l with
  | nil => rfl
  | cons x xs ih =>
    have hx : s.betterRecord (some i) x = some i := if_neg (Nat.not_lt.mpr (hl x List.mem_cons_self))
    rw [List.foldl_cons, hx]
    exact ih fun j hj => hl j (List.mem_cons_of_mem x hj)

/-- A record becomes the best where every one before it has a lower level. -/
theorem State.betterRecord_of_lower (s : State) (i : Nat) (best : Option Nat)
    (hb : ∀ j ∈ best, s.settings.level j < s.settings.level i) : s.betterRecord best i = some i := by
  cases best with
  | none => rfl
  | some j => exact if_pos (hb j rfl)

/-- A record is chosen where every one before it has a lower level, and none after it a higher one. -/
theorem State.foldl_betterRecord_eq_some (s : State) (i : Nat) (before after : List Nat)
    (hb : ∀ j ∈ before, s.settings.level j < s.settings.level i)
    (ha : ∀ j ∈ after, s.settings.level j ≤ s.settings.level i) :
    (before ++ i :: after).foldl s.betterRecord none = some i := by
  have hlower : ∀ j ∈ before.foldl s.betterRecord none, s.settings.level j < s.settings.level i := by
    intro j hj
    obtain hn | hm := s.foldl_betterRecord_mem before none j hj
    · cases hn
    · exact hb j hm
  rw [List.foldl_append, List.foldl_cons, s.betterRecord_of_lower i _ hlower]
  exact s.foldl_betterRecord_stays i after ha

/-- A record is givable where it is pending at a level 1 to 3. -/
theorem State.givable_iff (s : State) (i : Nat) :
    s.givable i = true ↔ (s.notices.records.getD i none).isSome ∧ 1 ≤ s.settings.level i := by
  simp [State.givable]

/-- The choice is the givable record of the highest level, and of those the earliest in class order (R178). -/
theorem State.noticeChoice_eq_some (s : State) (i : Nat) (hi : i < 11) (hg : s.givable i = true)
    (hbest : ∀ j, j < 11 → s.givable j = true → s.settings.level j < s.settings.level i ∨
      (s.settings.level j = s.settings.level i ∧ i ≤ j)) : s.noticeChoice = some i := by
  have hmem : i ∈ (List.range 11).filter s.givable := List.mem_filter.mpr ⟨List.mem_range.mpr hi, hg⟩
  obtain ⟨before, after, hl⟩ := List.append_of_mem hmem
  have hgiv : ∀ j ∈ before ++ i :: after, j < 11 ∧ s.givable j = true := by
    intro j hj
    rw [← hl, List.mem_filter, List.mem_range] at hj
    exact hj
  have hsorted : (before ++ i :: after).Pairwise (· < ·) := hl ▸ List.pairwise_lt_range.filter _
  obtain ⟨-, -, hearlier⟩ := List.pairwise_append.mp hsorted
  rw [State.noticeChoice_eq_foldl, hl]
  refine s.foldl_betterRecord_eq_some i before after (fun j hj => ?_) (fun j hj => ?_)
  · obtain ⟨h11, hjg⟩ := hgiv j (List.mem_append_left _ hj)
    have hlt : j < i := hearlier j hj i List.mem_cons_self
    have hcmp := hbest j h11 hjg
    omega
  · obtain ⟨h11, hjg⟩ := hgiv j (List.mem_append_right _ (List.mem_cons_of_mem i hj))
    have hcmp := hbest j h11 hjg
    omega

/-- With no record givable, none is chosen. -/
theorem State.noticeChoice_eq_none (s : State) (h : ∀ j, j < 11 → s.givable j = false) : s.noticeChoice = none := by
  have hnil : (List.range 11).filter s.givable = [] :=
    List.filter_eq_nil_iff.mpr fun j hj => by simp [h j (List.mem_range.mp hj)]
  rw [State.noticeChoice_eq_foldl, hnil]
  rfl

/-! ## Giving a Notice -/

/-- Where the Link Interface asks, awake and in Configuring or Ready, the record chosen is queued to node 7 and cleared. -/
theorem State.giveNotice_of_choice (s : State) (i : Nat) (r : NoticeRecord) (hask : s.link.asksNotice = true)
    (hrun : s.running = true) (hawake : s.power.state ≠ .sleep) (hc : s.noticeChoice = some i)
    (hr : s.notices.records.getD i none = some r) :
    s.giveNotice = { s with
      link := s.linkAfter 7#4 (.notice (BitVec.ofNat 8 (s.settings.level i)) (BitVec.ofNat 8 r.count) r.data)
      notices := { s.notices with records := s.notices.records.set i none } } := by
  simp only [State.giveNotice, hask, hrun, hc, hr, bne_iff_ne, ne_eq, hawake, not_false_eq_true, Bool.and_self,
    Bool.true_and, if_true]
  rfl

/-- With no record chosen, none is given. -/
theorem State.giveNotice_of_no_choice (s : State) (hc : s.noticeChoice = none) : s.giveNotice = s := by
  simp [State.giveNotice, hc]

/-- Outside Configuring and Ready no Notice is given. -/
theorem State.giveNotice_not_running (s : State) (hrun : s.running = false) : s.giveNotice = s := by
  simp [State.giveNotice, hrun]

/-- The Link Interface asks with fewer than 24 control entries and nothing held for them (R14). -/
theorem Link.asksNotice_of_room (l : Link) (hroom : l.control.length < 24) (hheld : l.controlHeld = []) :
    l.asksNotice = true := by
  simp [Link.asksNotice, Config.noticeLimit, hroom, hheld]

/-- In Configuring and Ready the station is running. -/
theorem State.running_of_inForce (s : State) (h : s.inForce) : s.running = true := by
  obtain ⟨-, hconf | hready⟩ := h
  · simp [State.running, hconf]
  · simp [State.running, hready]

/-- In Rolling, Excluded and Duplicate the station is not running. -/
theorem State.running_eq_false (s : State)
    (h : s.member.state = .rolling ∨ s.member.state = .excluded ∨ s.member.state = .duplicate) : s.running = false := by
  obtain hroll | hexcl | hdup := h
  · simp [State.running, hroll]
  · simp [State.running, hexcl]
  · simp [State.running, hdup]

/-- With nothing before it, NOTICE_ADMIT gives a Notice as the station stands. -/
theorem exec_noticeAdmit_of_calm (s : State) (h : s.calm) : exec .noticeAdmit s = .next s.giveNotice := by
  obtain hsleep | hdue := h
  · exact State.event_asleep State.giveNotice s hsleep
  · exact State.event_calm State.giveNotice s hdue

/-- Settles O12: the comparisons in class order keep the first record of the highest level, which is the one given. -/
theorem noticeOfTheHighestLevelIsGiven : Obligations.NoticeOfTheHighestLevelIsGiven := by
  refine ⟨?given, fun s hcalm => ⟨?notRunning, ?nonePending⟩⟩
  case given =>
    intro i r s hforce hcalm hroom hheld hi hr hlevel hbest
    have hgiv : s.givable i = true := (s.givable_iff i).mpr ⟨by rw [hr]; rfl, hlevel⟩
    have hchoice : s.noticeChoice = some i := s.noticeChoice_eq_some i hi hgiv fun j hj hjg =>
      have ⟨hpending, hjlevel⟩ := (s.givable_iff j).mp hjg
      hbest j hj hpending hjlevel
    rw [exec_noticeAdmit_of_calm s hcalm, s.giveNotice_of_choice i r (s.link.asksNotice_of_room hroom hheld)
      (s.running_of_inForce hforce) hforce.1 hchoice hr]
    rfl
  case notRunning =>
    intro hstate
    rw [exec_noticeAdmit_of_calm s hcalm, s.giveNotice_not_running (s.running_eq_false hstate)]
  case nonePending =>
    intro hquiet
    have hnone : ∀ j, j < 11 → s.givable j = false := by
      intro j hj
      rw [Bool.eq_false_iff, ne_eq, s.givable_iff]
      rintro ⟨hpending, hlevel⟩
      have hzero : s.settings.level j = 0 := hquiet j hj hpending
      omega
    rw [exec_noticeAdmit_of_calm s hcalm, s.giveNotice_of_no_choice (s.noticeChoice_eq_none hnone)]

end Sys2Proof.Machine
end

section
/-! PROOF. The statistics area (R188): what DumpWake and Histogram make of what it holds, and the histogram that a completed develop
job leaves in it. -/

namespace Sys2Proof.Machine

/-! ## Events and Requests of a station in force -/

/-- With nothing before it, an event is handled as the station stands. -/
theorem State.event_of_calm (handle : State → State) (s : State) (h : s.calm) : s.event handle = .next (handle s) := by
  obtain hsleep | hdue := h
  · exact State.event_asleep handle s hsleep
  · exact State.event_calm handle s hdue

/-- In Configuring and Ready the rows of R173 turn away none but Set, Begin and the Requests of `captureCodes`: the
others are left to their own blocks. -/
theorem settleRequest_of_running {st : StationState} {code : Byte} (hst : st = .configuring ∨ st = .ready)
    (hcapture : captureCodes.contains code = false) (hset : code ≠ 0x01#8) (hbegin : code ≠ 0x02#8) :
    settleRequest st code true = none := by
  obtain rfl | rfl := hst
  · simp only [settleRequest, hcapture]
    rfl
  · simp [settleRequest, hset, hbegin]

/-- A Request that R173 leaves to its own block, and that no sleep test follows, is answered by its own rule. -/
theorem State.event_request_of_inForce (h : ReqHeader) (code : Byte) (act : Action) (s : State) (hforce : s.inForce)
    (hcalm : s.calm) (hown : settleRequest s.member.state code true = none) (htest : s.testsSleep code (act s).2 = false) :
    s.event (State.request h code act) = .next (State.answer h code (act s)) := by
  rw [State.event_of_calm _ s hcalm, State.request_running h code act s hforce.1 hforce.2,
    State.settle_answer h code true act s hown htest]

/-- DumpWake in Configuring and Ready is answered by its own rule. -/
theorem exec_dumpWake_of_inForce (h : ReqHeader) (s : State) (hforce : s.inForce) (hcalm : s.calm) :
    exec (.dumpWake h) s = .next (State.answer h 0x31#8 (actDumpWake s)) :=
  State.event_request_of_inForce h 0x31#8 actDumpWake s hforce hcalm
    (settleRequest_of_running hforce.2 (by decide) (by decide) (by decide)) (State.testsSleep_false _ _ s (by decide) (by decide))

/-- Histogram in Configuring and Ready is answered by its own rule. -/
theorem exec_histogram_of_inForce (h : ReqHeader) (n : Shot) (s : State) (hforce : s.inForce) (hcalm : s.calm) :
    exec (.histogram h n) s = .next (State.answer h 0x23#8 (actHistogram n s)) :=
  State.event_request_of_inForce h 0x23#8 (actHistogram n) s hforce hcalm
    (settleRequest_of_running hforce.2 (by decide) (by decide) (by decide)) (State.testsSleep_false _ _ s (by decide) (by decide))

/-! ## What is answered, by what the area holds -/

/-- A wake record that is held is reported, and the area becomes invalid. -/
theorem actDumpWake_of_wakeRecord {bytes : List Byte} {s : State} (h : s.develop.stats = .wakeRecord bytes) :
    actDumpWake s = (s.onDevelop fun d => { d with stats := .invalid }, .report bytes) := by
  simp [actDumpWake, h]

/-- Without a wake record DumpWake finds no data. -/
theorem actDumpWake_of_no_record {s : State} (h : ∀ bytes, s.develop.stats ≠ .wakeRecord bytes) :
    actDumpWake s = (s, .refused .noData) := by
  unfold actDumpWake
  split
  next bytes hstats => exact absurd hstats (h bytes)
  next => rfl

/-- While the area holds the wake record, a Histogram of any shot finds no data. -/
theorem actHistogram_of_wakeRecord {bytes : List Byte} {s : State} (n : Shot) (h : s.develop.stats = .wakeRecord bytes) :
    actHistogram n s = (s, .refused .noData) := by
  simp [actHistogram, h]

/-! ## The statistics area at the end of a develop job -/

/-- The choice of the next job leaves the statistics area as it is. -/
@[simp] theorem State.tryStartJob_stats (s : State) : s.tryStartJob.develop.stats = s.develop.stats := by
  unfold State.tryStartJob
  repeat' split
  all_goals simp

/-- An abandoned dark capture leaves the statistics area as it is. -/
@[simp] theorem State.abandonDark_stats (s : State) : s.abandonDark.develop.stats = s.develop.stats := by
  unfold State.abandonDark
  split
  · rfl
  · simp

/-- The dark record's loss leaves the statistics area as it is. -/
@[simp] theorem State.invalidateDark_stats (s : State) : s.invalidateDark.develop.stats = s.develop.stats := rfl

/-- Statistics outlast the entry into Sleep. -/
@[simp] theorem State.enterSleep_stats (s : State) : s.enterSleep.develop.stats = s.develop.stats := by
  simp [State.enterSleep, State.captureSleep]

/-- Whichever way the sleep test goes, the statistics area stays as it is. -/
@[simp] theorem State.sleepTest_stats (s : State) : s.sleepTest.develop.stats = s.develop.stats := by
  obtain hstays | henters := s.sleepTest_cases
  · rw [hstays]
  · rw [henters, State.enterSleep_stats]

/-- An event of a phase reaches the job that is in it. -/
theorem State.inPhase_of_job {j : Job} {s : State} (f : Job → State → State) (hjob : s.develop.job = some j) :
    State.inPhase j.phase f s = f j s := by
  simp [State.inPhase, hjob]

/-- Phase Finish of a shot in the ring puts its histogram into the statistics area, and nothing that follows in the event takes it
out. -/
theorem State.endFinish_stats {j : Job} {x : Slot} {s : State} (hslot : s.slot? j.shot = some x) :
    (s.endFinish j).develop.stats =
      .histogram j.shot (histogramBins (pixels (pixelCount s.settings) (s.area j.slot).developed)) := by
  simp [State.endFinish, hslot]

/-- Settles O54, by what the statistics area holds: DumpWake and Histogram answer from it, and phase Finish writes over it. -/
theorem dumpWakeReturnsTheRecordOnce : Obligations.DumpWakeReturnsTheRecordOnce := by
  intro h s hforce hcalm
  refine ⟨?recordHeld, ?noRecord, fun bytes hstats => ⟨?histogramRefused, ?jobWritesOver⟩⟩
  case recordHeld =>
    intro bytes hstats
    rw [exec_dumpWake_of_inForce h s hforce hcalm, actDumpWake_of_wakeRecord hstats]
    rfl
  case noRecord =>
    intro n bins hstats
    have hno : ∀ bytes, s.develop.stats ≠ .wakeRecord bytes := by
      obtain hhistogram | hinvalid := hstats
      · simp [hhistogram]
      · simp [hinvalid]
    rw [exec_dumpWake_of_inForce h s hforce hcalm, actDumpWake_of_no_record hno]
    rfl
  case histogramRefused =>
    intro n
    rw [exec_histogram_of_inForce h n s hforce hcalm, actHistogram_of_wakeRecord n hstats]
    rfl
  case jobWritesOver =>
    intro j x _ hjob hphase hslot
    refine ⟨s.endFinish j, _, ?_, State.endFinish_stats hslot⟩
    calc exec .phaseFinishComplete s
        = .next (State.inPhase .finish State.endFinish s) := State.event_of_calm _ s hcalm
      _ = .next (s.endFinish j) := by rw [← hphase, State.inPhase_of_job State.endFinish hjob]

end Sys2Proof.Machine
end

section
/-! PROOF. The step, reset and Start (R13, R21, R23, R42), and the tier 1 statements about the clock, the held frames and the dark
slot. -/

namespace Sys2Proof.Machine

/-! ## The step -/

/-- Settles O1, by the definition of the step. -/
theorem stepRunsTheFrontCommand : Obligations.StepRunsTheFrontCommand := by
  intro c rest s h
  simp [step, h]

/-- With no expiry command due, no timer's expiry is on its way (R46). -/
theorem State.calm_of_dueExpiry_none {s : State} (h : s.dueExpiry = none) : s.calm := by
  refine .inr fun id _ => ?_
  unfold State.dueExpiry at h
  dsimp only at h
  repeat' split at h
  any_goals cases h
  cases id <;> exact Bool.eq_false_iff.mpr ‹_›

/-- A step of a station with nothing due is not held back by an expiry. -/
theorem State.calm_of_dueStep_none {s : State} (h : s.dueStep = none) : s.calm := by
  apply State.calm_of_dueExpiry_none
  unfold State.dueStep at h
  split at h
  · cases h
  · assumption

/-- One microsecond that reaches no armed target moves the oscillator and link time alone. -/
theorem State.microsecond_quiet (s : State) (h : ∀ T, s.clock.alarm = some T → Time.plus s.clock.linkTime 1 < T) :
    s.microsecond = { s with clock := { s.clock with
      linkTime := Time.plus s.clock.linkTime 1, sinceFine := s.clock.sinceFine + 1 } } :=
  State.advance_quiet 1 (s.onClock fun c => { c with sinceFine := c.sinceFine + 1 }) h

/-- Settles O2: with nothing due the step is the oscillator's, and the tenth microsecond is the tap edge. -/
theorem stepOnAnEmptyQueue : Obligations.StepOnAnEmptyQueue := by
  intro s hp
  refine ⟨fun c hc => by simp [step, hp, hc], fun hd hf => ?_, fun hd hf ha => ?_⟩
  · have hedge : exec .tapEdge s = .next s.edge := State.event_of_calm _ s (State.calm_of_dueStep_none hd)
    simp [step, hp, hd, hedge, State.tick, Nat.not_lt.mpr hf]
  · have hquiet : ∀ T, s.clock.alarm = some T → Time.plus s.clock.linkTime 1 < T := by
      intro T hT
      have := ha T hT
      rw [BitVec.lt_def, Time.plus_toNat]
      omega
    refine ⟨Time.plus s.clock.linkTime 1, Time.plus_toNat _ _, ?_⟩
    simp [step, hp, hd, State.tick, hf, State.microsecond_quiet s hquiet]

/-- Accepting a level keeps the queue of commands. -/
@[simp] theorem State.acceptLevel_pending (level : Level) (s : State) : (s.acceptLevel level).pending = s.pending := by
  simp [State.acceptLevel]

/-- The sample that wakes the station keeps the queue of commands. -/
@[simp] theorem State.wakeSample_pending (s : State) : s.wakeSample.pending = s.pending := by
  unfold State.wakeSample
  split <;> simp

/-- The free link keeps the queue of commands. -/
@[simp] theorem State.meetFreeLink_pending (rival : Option WireFrame) (s : State) :
    (s.meetFreeLink rival).pending = s.pending := by
  unfold State.meetFreeLink
  split <;> simp

/-- The end of a frame keeps the queue of commands. -/
@[simp] theorem State.frameEnds_pending (f : WireFrame) (otherSpoils : Bool) (s : State) :
    (s.frameEnds f otherSpoils).pending = s.pending := by
  unfold State.frameEnds
  repeat' split
  all_goals simp

/-- Settles O3: each arm answers a next state by its definition, and no operation touches the queue of commands. -/
theorem everyCommandGoesOn : Obligations.EveryCommandGoesOn := by
  intro c s
  cases c <;> exact ⟨_, rfl, by simp⟩

/-! ## Start and reset -/

/-- With no card in the socket, or without a socket, nothing is mounted (R151). -/
theorem State.mountIfPresent_none (s : State) (h : s.cardStation = false ∨ s.card.medium = none) : s.mountIfPresent = s := by
  unfold State.mountIfPresent
  obtain h | h := h <;> simp [h]

/-- The roll call of a station strapped 0-5 whose blocks are as after Start, but for the card and the notices (R23, R45). -/
theorem State.setupRollCall_atStart (s : State) (h6 : s.self ≠ 6#3) (h7 : s.self ≠ 7#3) (hm : s.member = { straps := s.member.straps, serial := s.member.serial })
    (hl : s.link = { phase := s.link.phase }) (hc : s.clock = {}) (hr : s.ring = {}) :
    s.setupRollCall false = { s with
      link := { phase := s.link.phase, control := s.rollAtEntry false }
      clock := { timers := { roll := { request := if s.self = 0#3 then .stop else .load s.self.toNat } } } } := by
  rw [State.setupRollCall_eq false s (by rw [hc]) ⟨h6, h7⟩ (by rw [hl]; exact ⟨rfl, rfl⟩)]
  generalize hmem : s.rollAtEntry false = q
  rcases s with ⟨m, l, c, y, k, r, d, v, t, card, nt, p, pd⟩
  dsimp only at hm hl hc hr ⊢
  subst hc hr
  rw [hl, hm]

/-- START at a station strapped 0-5 mounts a card that is present and begins the roll call. -/
theorem State.start_eq (straps : Straps) (serial : Word32) (busy : Bool) (s : State) (h6 : straps.number ≠ 6#3)
    (h7 : straps.number ≠ 7#3) :
    s.start straps serial busy = { (s.fresh straps serial busy).mountIfPresent with
      link := {
        phase := if busy then .hearing false else .free
        control := if straps.number = 0#3 then
          [{ frame := { dst := 15#4, msg := .roll 0#8 serial straps.fitted 1#32 false }, spoils := 0 }] else [] }
      clock := { timers := { roll := {
        request := if straps.number = 0#3 then .stop else .load straps.number.toNat } } } } := by
  have hself : (s.fresh straps serial busy).mountIfPresent.self = straps.number := by simp [State.self, State.fresh]
  have hvalid : (s.fresh straps serial busy).mountIfPresent.strapInvalid = false := by
    simp [State.strapInvalid, hself, h6, h7]
  unfold State.start
  dsimp only
  rw [hvalid, if_neg (by decide), State.setupRollCall_atStart _ (hself ▸ h6) (hself ▸ h7) (by simp [State.fresh])
    (by simp [State.fresh]) (by simp [State.fresh]) (by simp [State.fresh])]
  simp only [State.rollAtEntry, hself]
  simp [State.fresh]

/-- Settles O5: the card's mount, where one is present, and the roll call, whose fields do not meet. -/
theorem startBeginsARollCall : Obligations.StartBeginsARollCall := by
  refine ⟨fun straps serial busy s h6 h7 hcard => ?_, fun straps serial busy s => ⟨fun h6 h7 hc hm => ?_, fun h => ?_⟩⟩
  · have hnone : (s.fresh straps serial busy).mountIfPresent = s.fresh straps serial busy :=
      State.mountIfPresent_none _ hcard
    change Host.Outcome.next (s.start straps serial busy) = _
    rw [State.start_eq straps serial busy s h6 h7, hnone]
    rfl
  · have hmount : (s.fresh straps serial busy).mountIfPresent = (s.fresh straps serial busy).beginMount := by
      have : s.card.medium.isSome = true := Option.isSome_iff_ne_none.mpr hm
      simp [State.mountIfPresent, State.cardStation, State.fresh, hc, this]
    refine ⟨s.start straps serial busy, rfl, ?_⟩
    rw [State.start_eq straps serial busy s h6 h7, hmount]
    exact ⟨rfl, rfl, rfl, rfl, rfl, rfl⟩
  · refine ⟨s.start straps serial busy, rfl, ?_⟩
    have hself : (s.fresh straps serial busy).mountIfPresent.self = straps.number := by simp [State.self, State.fresh]
    have hinvalid : (s.fresh straps serial busy).mountIfPresent.strapInvalid = true := by
      simpa [State.strapInvalid, hself] using h
    unfold State.start
    dsimp only
    rw [hinvalid, if_pos rfl]
    simp [State.fresh]

/-- Settles O4: Start with the model's straps, as O5 has it. -/
theorem resetIsTheStateAfterStart : Obligations.ResetIsTheStateAfterStart := by
  intro s hm hp
  have h := startBeginsARollCall.1 resetStraps resetSerial false s (by decide) (by decide) (.inr hm)
  rw [hm, hp] at h
  exact h

/-- Settles O60: after reset nothing is queued, the ring is empty, and the settings and timers have their defaults. -/
theorem resetKeepsTheInvariants : Obligations.ResetKeepsTheInvariants := by
  have hslots : ∀ (i : Nat) (x : Slot), State.reset.ring.slots[i]? ≠ some (some x) := by
    intro i x h
    have := List.mem_of_getElem? h
    simp [State.reset] at this
  refine ⟨⟨?_, by decide, by decide, by decide, by decide, by decide, by decide, by decide, by decide, by decide, ?_, by decide, by decide,
    fun id => ?_⟩, ⟨⟨by decide, by decide, fun i x h => absurd h (hslots i x), ?_, by decide, ?_, ?_⟩, by decide, by decide, ?_, ?_, ?_⟩, rfl⟩
  · intro m h
    cases h
  · unfold Settings.inRange
    decide
  · cases id <;> simp [Timer.fits, State.reset, State.timer, Timers.get, TimerId.longest, TimerId.wide]
  all_goals simp [State.reset]

/-! ## Held frames -/

/-- Settles O11: the admission moves the head of what is held, where the queue has room. -/
theorem heldFramesAreAdmittedInOrder : Obligations.HeldFramesAreAdmittedInOrder := by
  intro f fs s hcalm
  refine ⟨fun h => ?_, fun h => ?_⟩
  · refine (State.event_of_calm _ s hcalm).trans (congrArg _ ?_)
    by_cases hroom : s.link.urgent.length < 8 <;> simp [State.onLink, Link.admitHeld, h, Config.urgentCapacity, hroom]
  · refine (State.event_of_calm _ s hcalm).trans (congrArg _ ?_)
    by_cases hroom : s.link.control.length < 32 <;> simp [State.onLink, Link.admitHeld, h, Config.controlCapacity, hroom]

/-! ## The release alarm and the pulse -/

/-- A link time moved forward by what parts it from a target is the target. -/
theorem Time.plus_to {t T : Time} (h : t ≤ T) : Time.plus t (T.toNat - t.toNat) = T := by
  apply BitVec.eq_of_toNat_eq
  rw [Time.plus_toNat]
  rw [BitVec.le_def] at h
  have := T.isLt
  omega

/-- An edge with no target at or before it counts the pulse. -/
theorem State.edge_quiet (s : State) (hf : s.clock.sinceFine < 10)
    (ha : ∀ T, s.clock.alarm = some T → s.clock.linkTime.toNat + (10 - s.clock.sinceFine) < T.toNat) :
    ∃ c : Clock, s.edge = { s with clock := c } ∧ c.pulse = countPulse s.clock.pulse := by
  have hedgealarm : ∀ c : Clock, c.edge.alarm = c.alarm := by
    intro c; unfold Clock.edge; dsimp only; repeat' split
    all_goals rfl
  have hedgepulse : ∀ c : Clock, c.edge.pulse = countPulse c.pulse := by
    intro c; unfold Clock.edge; dsimp only; repeat' split
    all_goals rfl
  have hfirst : ∀ T, s.clock.alarm = some T → Time.plus s.clock.linkTime (10 - s.clock.sinceFine - 1) < T := by
    intro T hT
    have := ha T hT
    rw [BitVec.lt_def, Time.plus_toNat]
    omega
  unfold State.edge Clock.untilEdge
  rw [State.advance_quiet _ s hfirst, State.advance_quiet]
  · exact ⟨_, rfl, hedgepulse _⟩
  · intro T hT
    rw [State.onClock_clock, hedgealarm] at hT
    have := ha T hT
    have hT' := T.isLt
    rw [State.onClock_clock, Clock.edge_linkTime, BitVec.lt_def, Time.plus_toNat, Time.plus_toNat]
    omega

/-- Settles O19: link time comes to the target, where no edge lies before it, and the pulse's last edge is a tap edge. -/
theorem releaseAlarmAndPulse : Obligations.ReleaseAlarmAndPulse := by
  intro s hcalm
  have hfire : exec .releaseAlarmFire s = .next s.countToAlarm := State.event_of_calm _ s hcalm
  have hend : exec .releasePulseEnd s = .next s.endPulse := State.event_of_calm _ s hcalm
  have htap : exec .tapEdge s = .next s.edge := State.event_of_calm _ s hcalm
  rw [hfire, hend, htap]
  refine ⟨fun T ha hT => ?_, fun T ha hT hn => ?_, fun ha => ?_, fun hp => ?_, fun hp => ?_⟩
  · simp [State.countToAlarm, ha, hT, State.fireAlarm, State.onClock, State.onCapture]
  · have hle : s.clock.linkTime ≤ T := BitVec.le_of_lt hT
    rw [State.countToAlarm, ha]
    dsimp only
    rw [if_neg (BitVec.not_le.mpr hT), if_pos (by exact hn)]
    have hfires := State.advance_fires (T.toNat - s.clock.linkTime.toNat)
      (s.onClock fun c => { c with sinceFine := c.sinceFine + (T.toNat - c.linkTime.toNat) }) T ha
      (BitVec.le_def.mpr (congrArg BitVec.toNat (Time.plus_to hle).symm).le)
    rw [hfires]
    simp [Time.plus_to hle, State.onClock]
  · simp [State.countToAlarm, ha]
  · have hpulse : s.endPulse = s.edge := by simp [State.endPulse, hp, Config.pulseEdges]
    rw [hpulse]
    refine ⟨rfl, fun ha hf => ?_⟩
    obtain ⟨c, hc, hcp⟩ := State.edge_quiet s hf ha
    exact ⟨c, by rw [hc], by rw [hcp, hp]; rfl⟩
  · simp [State.endPulse, State.doIf, hp, Config.pulseEdges]

/-! ## Whether a dark frame is needed, and fits -/

/-- The length test of R98 in integers. -/
theorem lengthFits_iff (length : Nat) (duration : Int) :
    lengthFits length duration = true ↔ |(length : Int) - duration| * 8 ≤ duration := by
  rw [lengthFits, Int.abs_eq_natAbs, Bool.and_eq_true, decide_eq_true_eq, decide_eq_true_eq]
  omega

/-- Settles O32, by the integer reading of the tests of R97 and R98. -/
theorem darkFramesAreNeededAndFit : Obligations.DarkFramesAreNeededAndFit := by
  refine ⟨fun st duration => ⟨fun h => by simp [needsDark, h], fun ms h => ?_⟩, ⟨fun length duration made s hl hm hage => ?_,
    fun duration s h => by simp [State.darkFits, h], fun duration => ?_⟩⟩
  · simp only [needsDark, h, decide_eq_true_eq]
    split <;> omega
  · have hage' : s.clock.linkTime.toNat - made.toNat < s.settings.darkAgeLimit * 1000000 ↔
        (s.clock.linkTime.toNat : Int) - made.toNat < s.settings.darkAgeLimit * 1000000 := by
      rw [BitVec.le_def] at hage
      omega
    simp only [State.darkFits, hl, hm, Bool.and_eq_true, lengthFits_iff, decide_eq_true_eq, hage']
  · rw [show (2000000 : Nat) = 2000000 from rfl, lengthFits, Bool.and_eq_true, decide_eq_true_eq, decide_eq_true_eq]
    omega

end Sys2Proof.Machine
end

section
/-! PROOF. The capacities (R12, R75, R111, R127, R159, R177), the ranges of settings and timers (R33, R45, R55) and the canonical
form of the card's bytes: each operation of the model keeps them. -/

namespace Sys2Proof.Machine

/-! ## What fits, block by block -/

/-- The send queues are within their capacities (R12). -/
structure Link.Fits (l : Link) : Prop where
  urgent : l.urgent.length ≤ 8
  control : l.control.length ≤ 32

/-- The card's bytes are canonical, and the buffer pool is within its 32 buffers (R159). -/
structure Card.Fits (c : Card) : Prop where
  canonical : c.canonical
  pool : c.unfilled + c.filled ≤ 32

/-- Slots, areas and TOP have their fixed sizes (R75). -/
structure Ring.Fits (r : Ring) : Prop where
  slots : r.slots.length = 8
  areas : r.areas.length = 8
  top : r.top < 8

/-- Each timer's count and pending length fit its channel (R45). -/
def Timers.Fits (t : Timers) : Prop := ∀ id, (t.get id).fits id

/-- `withinCapacity`, block by block. -/
structure State.Fits (s : State) : Prop where
  link : s.link.Fits
  card : s.card.Fits
  ring : s.ring.Fits
  store : s.develop.store.length ≤ 8
  defects : s.dark.defects.length ≤ 1024
  notices : s.notices.records.length = 11
  settings : s.settings.inRange
  shutter : 100 ≤ s.capture.shutter ∧ s.capture.shutter ≤ 1000000
  timers : s.clock.timers.Fits

theorem State.fits_iff (s : State) : s.Fits ↔ s.withinCapacity := by
  constructor
  · intro h
    exact ⟨h.card.canonical, h.link.urgent, h.link.control, h.card.pool, h.ring.slots, h.ring.areas, h.ring.top, h.store,
      h.defects, h.notices, h.settings, h.shutter.1, h.shutter.2, h.timers⟩
  · rintro ⟨hm, hu, hc, hp, hs, ha, ht, hst, hd, hn, hset, hlow, hhigh, htm⟩
    exact ⟨⟨hu, hc⟩, ⟨hm, hp⟩, ⟨hs, ha, ht⟩, hst, hd, hn, hset, ⟨hlow, hhigh⟩, htm⟩

namespace State.Fits

variable {s : State}

/-! ## Updates of one block -/

theorem onMember (h : s.Fits) {f : Membership → Membership} (hf : ∀ m, (f m).settings = m.settings := by intro _; rfl) :
    (s.onMember f).Fits :=
  { h with settings := by show (f s.member).settings.inRange; rw [hf]; exact h.settings }

theorem onLink (h : s.Fits) {f : Link → Link} (hf : ∀ l, l.Fits → (f l).Fits) : (s.onLink f).Fits :=
  { h with link := hf _ h.link }

/-- An update of the link that keeps the queues. -/
theorem onLinkQueues (h : s.Fits) {f : Link → Link} (hu : ∀ l, (f l).urgent = l.urgent := by intro _; rfl)
    (hc : ∀ l, (f l).control = l.control := by intro _; rfl) : (s.onLink f).Fits :=
  h.onLink fun l hl => ⟨by rw [hu]; exact hl.urgent, by rw [hc]; exact hl.control⟩

theorem onClock (h : s.Fits) {f : Clock → Clock} (hf : ∀ c, c.timers.Fits → (f c).timers.Fits := by intro _ h; exact h) :
    (s.onClock f).Fits :=
  { h with timers := hf _ h.timers }

theorem onSync (h : s.Fits) {f : SyncInput → SyncInput} : (s.onSync f).Fits := { h with }

theorem onCapture (h : s.Fits) {f : Capture → Capture} (hf : ∀ c, (f c).shutter = c.shutter := by intro _; rfl) :
    (s.onCapture f).Fits :=
  { h with shutter := by show 100 ≤ (f s.capture).shutter ∧ (f s.capture).shutter ≤ 1000000; rw [hf]; exact h.shutter }

theorem onRing (h : s.Fits) {f : Ring → Ring} (hf : ∀ r, r.Fits → (f r).Fits) : (s.onRing f).Fits :=
  { h with ring := hf _ h.ring }

theorem onDark (h : s.Fits) {f : Dark → Dark} (hf : ∀ d, d.defects.length ≤ 1024 → (f d).defects.length ≤ 1024 := by intro _ h; exact h) :
    (s.onDark f).Fits :=
  { h with defects := hf _ h.defects }

theorem onDevelop (h : s.Fits) {f : Develop → Develop}
    (hf : ∀ d, (f d).store.length ≤ d.store.length := by intro _; exact Nat.le_refl _) : (s.onDevelop f).Fits :=
  { h with store := Nat.le_trans (hf _) h.store }

theorem onTransfer (h : s.Fits) {f : TransferUnit → TransferUnit} : (s.onTransfer f).Fits := { h with }

theorem onCard (h : s.Fits) {f : Card → Card} (hf : ∀ c, c.Fits → (f c).Fits) : (s.onCard f).Fits :=
  { h with card := hf _ h.card }

/-- An update of the card that keeps its bytes, and whose pool does not grow. -/
theorem onCardPool (h : s.Fits) {f : Card → Card} (hm : ∀ c, (f c).medium = c.medium := by intro _; rfl)
    (hp : ∀ c, (f c).unfilled + (f c).filled ≤ c.unfilled + c.filled := by intro _; exact Nat.le_refl _) :
    (s.onCard f).Fits :=
  h.onCard fun c hc => ⟨by unfold Card.canonical; rw [hm]; exact hc.canonical, Nat.le_trans (hp c) hc.pool⟩

theorem onNotices (h : s.Fits) {f : Notices → Notices} (hf : ∀ n, n.records.length = 11 → (f n).records.length = 11) :
    (s.onNotices f).Fits :=
  { h with notices := hf _ h.notices }

theorem onPower (h : s.Fits) {f : Power → Power} : (s.onPower f).Fits := { h with }

theorem doIf (h : s.Fits) {b : Bool} {f : State → State} (hf : (f s).Fits) : (s.doIf b f).Fits :=
  State.doIf_ind b f s h hf

/-- A conditional update whose condition matters for what it keeps. -/
theorem doIfOf (h : s.Fits) {b : Bool} {f : State → State} (hf : b = true → (f s).Fits) : (s.doIf b f).Fits := by
  cases b
  · exact h
  · exact hf rfl

theorem foldl {α : Type} {f : State → α → State} (hf : ∀ t x, t.Fits → (f t x).Fits) (l : List α) (h : s.Fits) :
    (l.foldl f s).Fits := by
  induction l generalizing s with
  | nil => exact h
  | cons x xs ih => exact ih (hf s x h)

end State.Fits

/-! ## Timers -/

theorem Timer.fits_load {id : TimerId} {t : Timer} {n : Nat} (hn : n ≤ id.longest) (h : t.fits id) : (t.load n).fits id := by
  by_cases h0 : n = 0
  · rw [h0, Timer.load_zero]
    exact ⟨fun _ he => (by cases he), h.2⟩
  · rw [Timer.load_positive t n h0]
    refine ⟨fun k hk => ?_, h.2⟩
    cases hk
    exact ⟨Nat.pos_of_ne_zero h0, hn⟩

theorem Timer.fits_halt {id : TimerId} {t : Timer} (h : t.fits id) : t.halt.fits id := ⟨fun _ he => (by cases he), h.2⟩

theorem Timer.fits_delivered {id : TimerId} {t : Timer} (h : t.fits id) : t.delivered.fits id := h

theorem Timer.fits_idle (id : TimerId) : Timer.fits id {} := ⟨fun _ he => (by cases he), fun _ _ he => (by cases he)⟩

theorem Timer.fits_edge {id : TimerId} {t : Timer} (c : Bool) (h : t.fits id) : (t.edge c).fits id := by
  obtain ⟨hr, hc⟩ := h
  unfold Timer.edge
  split
  next n hn =>
    obtain ⟨h1, h2⟩ := hr n hn
    refine ⟨fun _ he => (by cases he), fun p m he => ?_⟩
    cases he
    exact ⟨h1, Nat.le_refl _, h2⟩
  next => exact ⟨fun _ he => (by cases he), fun _ _ he => (by cases he)⟩
  next hn =>
    split
    next => exact ⟨hr, hc⟩
    next p n hp =>
      obtain ⟨h1, h2, h3⟩ := hc p n hp
      have hload : ∀ n, t.request = .load n → 1 ≤ n ∧ n ≤ id.longest := hr
      split
      · refine ⟨hload, fun q m he => ?_⟩
        cases he
        omega
      · refine ⟨hload, fun q m he => ?_⟩
        cases c <;> cases he
        omega

theorem Timers.Fits.upd {t : Timers} (h : t.Fits) {id : TimerId} {f : Timer → Timer} (hf : ∀ u, u.fits id → (f u).fits id) :
    (t.upd f id).Fits := by
  intro i
  by_cases hi : id = i
  · subst hi
    rw [Timers.get_upd_self]
    exact hf _ (h id)
  · rw [Timers.get_upd_ne _ _ _ _ hi]
    exact h i

theorem Timers.Fits.haltCapture {t : Timers} (h : t.Fits) : t.haltCapture.Fits := by
  intro id
  cases id
  case roll => exact h .roll
  case mark => exact h .mark
  case seam => exact h .seam
  all_goals exact Timer.fits_halt (h _)

theorem Timers.Fits.restart {t : Timers} (h : t.Fits) : t.restart.Fits :=
  Timers.Fits.upd h.haltCapture (id := .seam) fun _ => Timer.fits_halt

theorem Timers.Fits.fineEdge {t : Timers} (h : t.Fits) : t.fineEdge.Fits := by
  intro id
  cases id
  case attribution | pulse | dark => exact Timer.fits_edge _ (h _)
  all_goals exact h _

theorem Timers.Fits.milliEdge {t : Timers} (h : t.Fits) : t.milliEdge.Fits := by
  intro id
  cases id
  case roll | mark | seam => exact Timer.fits_edge _ (h _)
  all_goals exact h _

theorem Timers.Fits.coarseEdge {t : Timers} (h : t.Fits) : t.coarseEdge.Fits := by
  intro id
  cases id
  case exposureLimit | quiet => exact Timer.fits_edge _ (h _)
  all_goals exact h _

theorem Clock.edge_fits {c : Clock} (h : c.timers.Fits) : c.edge.timers.Fits := by
  unfold Clock.edge
  dsimp only
  repeat' split
  · exact h.fineEdge
  · exact h.fineEdge.milliEdge
  · exact h.fineEdge.milliEdge.coarseEdge

theorem Clock.sleep_fits (c : Clock) : c.sleep.timers.Fits := by
  intro id
  cases id <;> exact Timer.fits_idle _

/-! ## The link -/

theorem Link.Fits.give {l : Link} (h : l.Fits) (f : Frame) : (l.give f).Fits :=
  have hb := Link.give_bounds f h.urgent h.control
  ⟨hb.1, hb.2⟩

theorem Link.Fits.place {l : Link} (h : l.Fits) (m : Membership) (f : Frame) : (m.place f l).Fits :=
  have hb := m.place_bounds f h.urgent h.control
  ⟨hb.1, hb.2⟩

theorem Link.Fits.cancelBulk {l : Link} (h : l.Fits) (p : Msg → Bool) : (l.cancelBulk p).Fits := by
  unfold Link.cancelBulk
  repeat' split
  all_goals exact ⟨h.urgent, h.control⟩

theorem Link.Fits.withdraw {l : Link} (h : l.Fits) : l.withdraw.Fits := by
  unfold Link.withdraw
  split <;> exact ⟨h.urgent, h.control⟩

theorem Link.Fits.flushRollHeld {l : Link} (h : l.Fits) : l.flushRollHeld.Fits := by
  have hf : ∀ (fs : List Frame) (k : Link), k.Fits → (fs.foldl (fun k f => k.give f) k).Fits := by
    intro fs
    induction fs with
    | nil => intro k hk; exact hk
    | cons f fs ih => intro k hk; exact ih _ (hk.give f)
  exact hf _ _ ⟨h.urgent, h.control⟩

theorem Link.Fits.admitHeld {l : Link} (h : l.Fits) (q : Queue) : (l.admitHeld q).Fits := by
  obtain ⟨hu, hc⟩ := h
  cases q <;> unfold Link.admitHeld <;> dsimp only <;> split
  · exact ⟨hu, hc⟩
  · split
    next hroom =>
      have hroom : l.urgent.length < 8 := hroom
      exact ⟨by simp; omega, hc⟩
    next => exact ⟨hu, hc⟩
  · exact ⟨hu, hc⟩
  · split
    next hroom =>
      have hroom : l.control.length < 32 := hroom
      exact ⟨hu, by simp; omega⟩
    next => exact ⟨hu, hc⟩

theorem spoilHead_length (q : List Queued) : (spoilHead q).1.length ≤ q.length := by
  cases q with
  | nil => exact Nat.le_refl _
  | cons a as => simp only [spoilHead]; split <;> simp

theorem stampHead_length (now : Time) (q : List Queued) : (stampHead now q).length = q.length := by
  cases q <;> rfl

theorem Link.afterSpoil_fits (b : Bool) {l : Link} (h : l.Fits) : (l.afterSpoil b).Fits := by
  cases b <;> exact ⟨h.urgent, h.control⟩

theorem Link.Fits.ownSpoiled {l : Link} (h : l.Fits) (src : SendSource) : (l.ownSpoiled src).Fits := by
  have hu := Nat.le_trans (spoilHead_length l.urgent) h.urgent
  have hc := Nat.le_trans (spoilHead_length l.control) h.control
  cases src
  case urgent => refine Link.afterSpoil_fits _ ?_; exact ⟨hu, h.control⟩
  case control => refine Link.afterSpoil_fits _ ?_; exact ⟨h.urgent, hc⟩
  case bulk =>
    unfold Link.ownSpoiled
    dsimp only
    repeat' split
    · exact h
    · refine Link.afterSpoil_fits _ ?_; exact ⟨h.urgent, h.control⟩
    · exact ⟨h.urgent, h.control⟩
    · refine Link.afterSpoil_fits _ ?_; exact ⟨h.urgent, h.control⟩

theorem Link.Fits.discardFrame {l : Link} (h : l.Fits) : l.discardFrame.Fits := by
  unfold Link.discardFrame
  split
  · exact h.ownSpoiled _
  · exact ⟨h.urgent, h.control⟩
  · exact h

/-! ## The buffer pool -/

theorem cancelWrites_filled (p : Write → Bool) (l : List Write) :
    ((cancelWrites p l).filter Write.fillsBuffer).length ≤ (l.filter Write.fillsBuffer).length := by
  cases l with
  | nil => exact Nat.le_refl _
  | cons w rest =>
    have hrest : ((rest.filter fun w => !p w).filter Write.fillsBuffer).length ≤ (rest.filter Write.fillsBuffer).length :=
      ((List.filter_sublist (p := fun w => !p w) (l := rest)).filter _).length_le
    have hc : Write.fillsBuffer { w with cancelled := true } = false := by simp [Write.fillsBuffer]
    have hhead : (if p w then { w with cancelled := true } else w).fillsBuffer = true → w.fillsBuffer = true := by
      split
      · rw [hc]; exact fun h => absurd h Bool.false_ne_true
      · exact id
    rw [cancelWrites]
    generalize (if p w then { w with cancelled := true } else w) = v at hhead ⊢
    by_cases hv : v.fillsBuffer = true
    · simp only [List.filter_cons, hv, hhead hv, if_true, List.length_cons]
      exact Nat.succ_le_succ hrest
    · by_cases hw : w.fillsBuffer = true <;> simp only [List.filter_cons, hv, hw, if_true, Bool.false_eq_true, if_false, List.length_cons]
      · exact Nat.le_succ_of_le hrest
      · exact hrest

theorem filter_unfilled_le (p : GrantRecord → Bool) (l : List GrantRecord) :
    ((l.filter p).map (·.unfilled)).sum ≤ (l.map (·.unfilled)).sum := by
  induction l with
  | nil => exact Nat.le_refl _
  | cons g gs ih => by_cases hg : p g = true <;> simp [hg] <;> omega

theorem Card.Fits.dropGrants {c : Card} (h : c.Fits) (n : Shot) : (c.dropGrants n).Fits :=
  ⟨h.canonical, Nat.le_trans (Nat.add_le_add_right (filter_unfilled_le _ _) _) h.pool⟩

theorem Card.Fits.setGrant {c : Card} (h : c.Fits) (g : GrantRecord) (hg : g.unfilled ≤ c.free) : (c.setGrant g).Fits := by
  refine ⟨h.canonical, ?_⟩
  have hle := filter_unfilled_le (fun r => r.member != g.member) c.grants
  have hp := h.pool
  simp only [Card.free, Config.bufferCount, Card.unfilled, Card.filled, Card.setGrant, List.map_append, List.sum_append] at *
  simp only [List.map_cons, List.map_nil, List.sum_cons, List.sum_nil]
  omega

/-- A grant record whose member already holds as many unfilled grants. -/
theorem Card.Fits.writes {c : Card} (h : c.Fits) (ws : List Write)
    (hw : (ws.filter Write.fillsBuffer).length ≤ (c.writes.filter Write.fillsBuffer).length) : Card.Fits { c with writes := ws } :=
  ⟨h.canonical, Nat.le_trans (Nat.add_le_add_left hw _) h.pool⟩

theorem Card.Fits.clear {c : Card} (h : c.Fits) : Card.Fits { c with placements := [], writes := [], grants := [], waiting := [] } :=
  ⟨h.canonical, Nat.zero_le _⟩

theorem Card.Fits.dropPlaced {c : Card} (h : c.Fits) (p : Placed) : (c.dropPlaced p).Fits :=
  Card.Fits.dropGrants (Card.Fits.writes (c := { c with placements := c.placements.eraseP (·.shot == p.shot) })
    ⟨h.canonical, h.pool⟩ _ (cancelWrites_filled _ _)) p.shot

/-- Writes that fill no buffer are queued without loss. -/
theorem filled_append (l ws : List Write) (hw : ∀ w ∈ ws, w.fillsBuffer = false) :
    ((l ++ ws).filter Write.fillsBuffer).length = (l.filter Write.fillsBuffer).length := by
  have hnil : ws.filter Write.fillsBuffer = [] := List.filter_eq_nil_iff.mpr (by simpa using hw)
  rw [List.filter_append, hnil, List.append_nil]

/-! ## The ring -/

theorem Ring.Fits.of_lengths {r q : Ring} (h : r.Fits) (hs : q.slots.length = r.slots.length) (ha : q.areas.length = r.areas.length)
    (ht : q.top = r.top) : q.Fits :=
  ⟨hs.trans h.slots, ha.trans h.areas, ht ▸ h.top⟩

theorem Ring.Fits.admitShot {r : Ring} (h : r.Fits) (n : Shot) (start : Time) (e : Entry) : (r.admitShot n start e).Fits :=
  ⟨by simp [Ring.admitShot, h.slots], h.areas, Nat.mod_lt _ (by omega)⟩

theorem resolveEdges_store (n : Shot) : ∀ (es : List Edge) (store : List Band), (resolveEdges n es store).2.1.length ≤ store.length := by
  intro es
  induction es with
  | nil => intro store; exact Nat.le_refl _
  | cons e es ih =>
    intro store
    unfold resolveEdges
    split
    · split
      · exact Nat.le_trans (ih _) List.length_eraseP_le
      · exact Nat.le_refl _
    · exact Nat.le_refl _
    · exact ih store

end Sys2Proof.Machine
end

section
/-! PROOF. `State.Fits` is kept by the operations that the blocks share (chapters 2 to 9): one lemma for each. -/

namespace Sys2Proof.Machine

namespace State.Fits

variable {s : State}

/-! ## Timers, frames and notices -/

theorem onTimer (h : s.Fits) {id : TimerId} {f : Timer → Timer} (hf : ∀ u, u.fits id → (f u).fits id) : (s.onTimer id f).Fits :=
  h.onClock fun _ ht => ht.upd hf

theorem loadTimer (h : s.Fits) {id : TimerId} {n : Nat} (hn : n ≤ id.longest) : (s.loadTimer id n).Fits :=
  h.onTimer fun _ => Timer.fits_load hn

theorem stopTimer (h : s.Fits) {id : TimerId} : (s.stopTimer id).Fits := h.onTimer fun _ => Timer.fits_halt

theorem onExpiry (h : s.Fits) {id : TimerId} {handle : State → State} (hf : ∀ t, t.Fits → (handle t).Fits) :
    (s.onExpiry id handle).Fits := by
  unfold State.onExpiry
  split
  · exact hf _ (h.onTimer fun _ => Timer.fits_delivered)
  · exact h

theorem queue (h : s.Fits) {dst : BitVec 4} {msg : Msg} : (s.queue dst msg).Fits := h.onLink fun _ hl => hl.place _ _

theorem broadcast (h : s.Fits) {msg : Msg} : (s.broadcast msg).Fits := h.queue

theorem cancelBulk (h : s.Fits) {p : Msg → Bool} : (s.cancelBulk p).Fits := h.onLink fun _ hl => hl.cancelBulk p

theorem raise (h : s.Fits) {d : NoticeData} : (s.raise d).Fits := h.onNotices fun n hn => (Notices.raise_length d n).trans hn

/-! ## Slots and entries -/

theorem updSlot (h : s.Fits) {n : Shot} {f : Slot → Slot} : (s.updSlot n f).Fits :=
  h.onRing fun _ hr => hr.of_lengths (by simp [Ring.updSlot]) rfl rfl

theorem updEntry (h : s.Fits) {n : Shot} {f : Entry → Entry} : (s.updEntry n f).Fits := h.onRing fun _ hr => hr.of_lengths rfl rfl rfl

/-! ## The card -/

theorem raiseCardState (h : s.Fits) : s.raiseCardState.Fits := h.raise

theorem changeCard (h : s.Fits) {st : CardState} {roll : Option Roll} : (s.changeCard st roll).Fits := h.onCardPool.raiseCardState

theorem ejectTest (h : s.Fits) : s.ejectTest.Fits := h.doIf h.changeCard

theorem sendGrant (h : s.Fits) {q : Claim} {count : Nat} : (s.sendGrant q count).Fits := h.queue

theorem grantClaim (h : s.Fits) {q : Claim} : (s.grantClaim q).Fits := by
  unfold State.grantClaim
  split
  · exact h.sendGrant
  · have hgrant : (s.onCard (Card.setGrant { member := q.member, shot := q.shot, unfilled := min q.count s.card.free })).Fits :=
      { h with card := h.card.setGrant _ (Nat.min_le_right ..) }
    exact hgrant.sendGrant

theorem serveFrom {qs : List Claim} (h : s.Fits) : (State.serveFrom qs s).Fits := by
  induction qs generalizing s with
  | nil => exact h
  | cons q rest ih =>
    unfold State.serveFrom
    split
    · exact ih h.onCardPool.grantClaim
    · exact h

theorem serve (h : s.Fits) : s.serve.Fits := h.serveFrom

theorem beginMount (h : s.Fits) : s.beginMount.Fits := h.changeCard

theorem mountIfPresent (h : s.Fits) : s.mountIfPresent.Fits := h.doIf h.beginMount

theorem announce (h : s.Fits) {n : Shot} {k : Socket} {a b : Nat} : (s.announce n k a b).Fits := h.broadcast

theorem tryReserve (h : s.Fits) {e : Entry} : (s.tryReserve e).Fits := by
  unfold State.tryReserve
  repeat' split
  · exact h
  · exact h.announce
  · exact h.onCardPool.announce
  · exact (h.doIf h.raise).broadcast

theorem placeAtAdmission (h : s.Fits) {e : Entry} : (s.placeAtAdmission e).Fits := by
  unfold State.placeAtAdmission
  split
  · exact h.tryReserve
  · exact h.tryReserve
  · exact h

theorem rePlace (h : s.Fits) : s.rePlace.Fits := by
  unfold State.rePlace
  repeat' split
  · exact h
  · exact h.foldl (fun _ _ ht => ht.tryReserve) _
  · exact h

theorem overflowDecide (h : s.Fits) {source : Node} {n : Shot} {k : Socket} : (s.overflowDecide source n k).Fits := by
  unfold State.overflowDecide
  repeat' split
  · exact h
  · exact h.tryReserve
  · exact h

theorem voidPlacement (h : s.Fits) {e : Entry} : (s.voidPlacement e).Fits := by
  unfold State.voidPlacement
  split
  · exact h
  · refine State.Fits.ejectTest (State.Fits.serve (h.onCard fun c hc => (hc.dropPlaced _).writes _ (Nat.le_of_eq ?_)))
    exact filled_append _ _ (by simp [voidWrite, Write.fillsBuffer])

theorem unplaceSumFailure (h : s.Fits) {p : Placed} : (s.unplaceSumFailure p).Fits := by
  unfold State.unplaceSumFailure
  split
  · exact h
  · exact (State.Fits.broadcast (h.onCard fun _ hc => hc.dropPlaced p)).serve.ejectTest

theorem dropAll (h : s.Fits) {reason : UnplaceReason} : (s.dropAll reason).Fits := by
  unfold State.dropAll
  split
  · exact h.onCard fun _ hc => hc.clear
  · exact State.Fits.onCard (h.foldl (fun _ _ ht => ht.broadcast) _) fun _ hc => hc.clear

theorem commitTest (h : s.Fits) {n : Shot} : (s.commitTest n).Fits := by
  unfold State.commitTest
  repeat' split
  · refine h.onCard fun c hc => Card.Fits.writes (c := Card.updPlaced n _ c) ⟨hc.canonical, hc.pool⟩ _ (Nat.le_of_eq ?_)
    exact filled_append _ _ (by simp [commitWrites, Write.fillsBuffer])
  · exact h
  · exact h

/-! ## The Transfer Unit -/

theorem claimSocket (h : s.Fits) {n : Shot} {k : Socket} : (s.claimSocket n k).Fits := by
  unfold State.claimSocket
  repeat' split
  · exact h
  · exact h
  · exact h.updEntry.queue
  · exact h

theorem claimTargets (h : s.Fits) {n : Shot} : (s.claimTargets n).Fits := by
  unfold State.claimTargets
  split
  · exact h.claimSocket.claimSocket
  · exact h

theorem beginPass (h : s.Fits) {n : Shot} : (s.beginPass n).Fits := h.updEntry.claimTargets

theorem chooseTile (h : s.Fits) : s.chooseTile.Fits := by
  unfold State.chooseTile
  repeat' split
  · exact h
  · exact h
  · exact h.onTransfer.beginPass

theorem leaveTile (h : s.Fits) {n : Shot} : (s.leaveTile n).Fits := by
  unfold State.leaveTile
  split
  · exact h.onTransfer.chooseTile
  · exact h

theorem endPassIfDone (h : s.Fits) {n : Shot} : (s.endPassIfDone n).Fits := by
  unfold State.endPassIfDone
  repeat' split
  · exact h
  · exact h
  · exact h.beginPass
  · exact h.updEntry.leaveTile
  · exact h.updEntry

/-! ## The Develop Engine -/

theorem updJob (h : s.Fits) {f : Job → Job} : (s.updJob f).Fits := h.onDevelop

theorem rework (h : s.Fits) {i : Nat} {f : List Sample → List Sample} : (s.rework i f).Fits :=
  h.onRing fun _ hr => hr.of_lengths rfl (by simp [Ring.updArea]) rfl

theorem resolve (h : s.Fits) : s.resolve.Fits := by
  unfold State.resolve
  split
  · exact h
  next j hj =>
    have hstore := Nat.le_trans (resolveEdges_store j.shot j.edges s.develop.store) h.store
    have hresolved : (s.onDevelop fun d => { d with
        job := some { j with edges := (resolveEdges j.shot j.edges s.develop.store).1 }
        store := (resolveEdges j.shot j.edges s.develop.store).2.1 }).Fits := { h with store := hstore }
    refine hresolved.doIf (hresolved.loadTimer ?_)
    have hseam : s.settings.seamTimeout ≤ 2000 := h.settings.2.2.2.2.2.2.2.2.2.2.1.2
    show s.settings.seamTimeout ≤ 65535
    omega

theorem tryStartJob (h : s.Fits) : s.tryStartJob.Fits := by
  unfold State.tryStartJob
  repeat' split
  · exact h
  · exact h.updSlot.onDevelop
  · exact h
  · exact h

theorem stopJob (h : s.Fits) : s.stopJob.Fits := by
  unfold State.stopJob
  split
  · exact h
  · exact h.onDevelop.doIf h.onDevelop.stopTimer

theorem developFreed (h : s.Fits) {n : Shot} : (s.developFreed n).Fits :=
  State.Fits.cancelBulk (State.Fits.onDevelop (h.doIf h.stopJob) fun _ => List.length_filter_le ..)

theorem inPhase (h : s.Fits) {p : Phase} {f : Job → State → State} (hf : ∀ j t, t.Fits → (f j t).Fits) : (s.inPhase p f).Fits := by
  unfold State.inPhase
  repeat' split
  · exact h
  · exact hf _ _ h
  · exact h

/-! ## The Ring Manager -/

theorem remove (h : s.Fits) {n : Shot} : (s.onRing (Ring.remove n)).Fits :=
  h.onRing fun r hr => hr.of_lengths (Ring.remove_shape n r).1 rfl rfl

theorem freeSlot (h : s.Fits) {n : Shot} : (s.freeSlot n).Fits := by
  unfold State.freeSlot
  split
  · exact h
  · exact h.remove.developFreed.cancelBulk.leaveTile.voidPlacement.tryStartJob

theorem completionTest (h : s.Fits) {n : Shot} : (s.completionTest n).Fits := by
  unfold State.completionTest
  split
  · exact h.freeSlot
  · exact h

theorem emptyRing (h : s.Fits) : s.emptyRing.Fits := h.foldl (fun _ _ ht => ht.freeSlot) _

theorem admitShot (h : s.Fits) {n : Shot} {start : Time} : (s.admitShot n start).Fits :=
  State.Fits.placeAtAdmission (h.onRing fun _ hr => hr.admitShot ..)

/-! ## The Dark Unit -/

theorem invalidateDark (h : s.Fits) : s.invalidateDark.Fits := by
  refine State.Fits.updJob (State.Fits.onRing h.onDark fun r hr => ?_)
  exact hr.of_lengths (by simp) rfl rfl

theorem startDark (h : s.Fits) {n : Shot} {duration : Nat} (hd : duration ≤ 3600000000) : (s.startDark n duration).Fits := by
  refine h.invalidateDark.onDark.onCapture.loadTimer ?_
  show (duration + 9) / 10 ≤ 4294967295
  omega

theorem settleAwaiting (h : s.Fits) {n : Shot} {d : DarkStatus} : (s.settleAwaiting n d).Fits := h.updSlot

theorem abandonDark (h : s.Fits) : s.abandonDark.Fits := by
  unfold State.abandonDark
  split
  · exact h
  · have hstop : ∀ b, (s.doIf b (State.stopTimer .dark)).Fits := fun _ => h.doIf h.stopTimer
    exact (State.Fits.doIf (hstop _) (hstop _).settleAwaiting).onDark.onCapture.tryStartJob

theorem updDarkCapture (h : s.Fits) {f : DarkCapture → DarkCapture} : (s.updDarkCapture f).Fits := h.onDark

theorem insertHot (h : s.Fits) {i : Nat} : (s.insertHot i).Fits := h.onDark fun d hd => Dark.insert_bound _ _ _ d hd

/-! ## The Capture Controller -/

theorem cancelRelease (h : s.Fits) : s.cancelRelease.Fits := h.onCapture.onClock

theorem recordOutcome (h : s.Fits) {n : Shot} : (s.recordOutcome n).Fits := by
  unfold State.recordOutcome
  repeat' split
  · exact h.updSlot.tryStartJob
  · exact h
  · exact h

theorem raiseShotOpened (h : s.Fits) {n : Shot} : (s.raiseShotOpened n).Fits := by
  unfold State.raiseShotOpened
  repeat' split
  · exact h
  · exact h.raise
  · exact h

theorem settleOpener (h : s.Fits) {source : Node} {n : Shot} : (s.settleOpener source n).Fits := by
  unfold State.settleOpener
  repeat' split
  · exact h
  · exact h
  · exact h.updEntry.doIf h.updEntry.raiseShotOpened

theorem agreeOpen (h : s.Fits) {n : Shot} {t : Time} : (s.agreeOpen n t).Fits := by
  unfold State.agreeOpen
  split
  · exact h.updEntry.recordOutcome
  · exact h

theorem takeAgreedOpen (h : s.Fits) {source : Node} {n : Shot} {t : Time} : (s.takeAgreedOpen source n t).Fits :=
  h.agreeOpen.settleOpener

theorem stopRunning (h : s.Fits) {id : TimerId} : (s.stopRunning id).Fits := h.doIf h.stopTimer

theorem endIntegration (h : s.Fits) {t : Time} : (s.endIntegration t).Fits := by
  unfold State.endIntegration
  split
  · exact h
  · have h1 := h.stopRunning (id := .exposureLimit) |>.stopRunning (id := .pulse)
    refine State.Fits.doIf (State.Fits.agreeOpen ?_) (State.Fits.agreeOpen ?_).raiseShotOpened
    all_goals exact State.Fits.doIf h1.onCapture.updSlot.onSync h1.onCapture.updSlot.onSync.updEntry

theorem markLimit (h : s.Fits) {n : Shot} : (s.markLimit n).Fits := by
  unfold State.markLimit
  split
  · exact h.onCapture
  · exact h.updSlot

theorem observe (h : s.Fits) {n : Shot} {t : Time} : (s.observe n t).Fits := by
  unfold State.observe
  repeat' split
  · exact h
  · exact h.onCapture
  · exact h

/-- The exposure limit timer's length fits a single channel, and the quiet timer's a wide one (R45, R58, R59). -/
theorem exposureLimit_le (h : s.Fits) : s.settings.exposureLimit ≤ 3600 := h.settings.2.2.2.2.1.2

theorem admitTrigger (h : s.Fits) {n : Shot} {edge : Option Time} {start : Time} : (s.admitTrigger n edge start).Fits := by
  unfold State.admitTrigger
  dsimp only
  have h1 := State.Fits.onCapture (f := fun c => { c with state := .exposing, exposure := some (newExposure n edge start c.shutter) })
    (h.admitShot (n := n) (start := start))
  generalize State.onCapture _ (s.admitShot n start) = s1 at h1 ⊢
  have hl : s1.settings.exposureLimit * 10 ≤ 65535 := by have := h1.exposureLimit_le; omega
  have hp : (s1.capture.shutter + 9) / 10 ≤ 4294967295 := by have := h1.shutter.2; omega
  have h2 := h1.loadTimer (id := .exposureLimit) hl
  have h3 := h2.doIf (b := s1.settings.syncMode == .pulse) (h2.loadTimer (id := .pulse) hp)
  split
  · exact h3
  · exact h3.broadcast

theorem decideAdmission (h : s.Fits) {n : Shot} {edge : Option Time} {start : Time} : (s.decideAdmission n edge start).Fits := by
  unfold State.decideAdmission
  split
  · exact h.broadcast
  · exact h.admitTrigger

theorem giveWay (h : s.Fits) : s.giveWay.Fits := by
  unfold State.giveWay
  repeat' split
  · exact h.onCapture
  · exact h.abandonDark.broadcast.onCapture
  · exact h

theorem fillQuiet (h : s.Fits) : s.fillQuiet.Fits := by
  have hl : (2 * s.settings.exposureLimit + 4) * 10 ≤ 4294967295 := by have := h.exposureLimit_le; omega
  have h1 := State.Fits.loadTimer (id := .quiet) (h.onCapture (f := fun c => { c with quiet := s.memberNumbers })) hl
  exact h1.doIf (h1.onLink fun _ hl => hl.withdraw)

theorem onRingNext (h : s.Fits) {f : Ring → Shot} : (s.onRing fun r => { r with next := f r }).Fits :=
  h.onRing fun _ hr => hr.of_lengths rfl rfl rfl

theorem beginTrigger (h : s.Fits) {n : Shot} : (s.beginTrigger n).Fits := by
  have h1 := State.Fits.loadTimer (id := .attribution) (n := Config.attributionWindow)
    (State.Fits.onCapture (f := fun c => { c with current := n, windowEnded := false }) (h.giveWay.onRingNext (f := fun _ => nextShot n)))
    (by simp [Config.attributionWindow, TimerId.longest, TimerId.wide])
  exact h1.recordOutcome.fillQuiet

theorem trigger (h : s.Fits) {n : Shot} {edge : Option Time} {start : Time} : (s.trigger n edge start).Fits :=
  h.beginTrigger.decideAdmission

theorem raiseNext (h : s.Fits) {n : Shot} : (s.raiseNext n).Fits := h.onRingNext

theorem clearQuiet (h : s.Fits) : s.clearQuiet.Fits := h.onCapture.stopTimer

theorem abandonShot (h : s.Fits) {n : Shot} : (s.abandonShot n).Fits := by
  unfold State.abandonShot
  split
  · exact h.stopRunning.stopRunning.onCapture
  · exact h

theorem freeUnread (h : s.Fits) {n : Shot} : (s.freeUnread n).Fits := h.doIf h.freeSlot

theorem halt (h : s.Fits) {source : Node} {n : Shot} {reason : RefuseReason} : (s.halt source n reason).Fits := by
  unfold State.halt
  have h1 := State.Fits.onCapture h.cancelRelease (f := fun c => match c.state with
    | .armed => { c with state := .halted, disarmPending := false }
    | .disarmed => { c with state := .halted, disarmPending := false }
    | .halted => c
    | _ => { c with haltPending := true }) (by intro c; split <;> rfl)
  exact h1.doIf h1.raise

theorem dropShot (h : s.Fits) {source : Node} {n : Shot} {reason : RefuseReason} {policy : Policy} :
    (s.dropShot source n reason policy).Fits := by
  have h1 := h.abandonShot (n := n) |>.freeUnread (n := n)
  have h2 := h1.doIf (b := n == s.capture.current) h1.clearQuiet
  have h3 := h2.doIf (b := source == s.self) (h2.raise (d := .shotDropped n reason policy))
  exact h3.doIf h3.halt

/-! ## The Membership Unit -/

theorem sendRoll (h : s.Fits) : s.sendRoll.Fits := h.broadcast

theorem startWait (h : s.Fits) : s.startWait.Fits := by
  have hn : s.self.toNat ≤ 65535 := by have := s.self.isLt; omega
  have h1 := h.loadTimer (id := .roll) hn
  exact h1.doIf (h1.onExpiry fun _ ht => ht.sendRoll)

theorem setupRollCall (h : s.Fits) {rejoin : Bool} : (s.setupRollCall rejoin).Fits := h.onMember.startWait

theorem discardHeld (h : s.Fits) : s.discardHeld.Fits := h.onLinkQueues.onDevelop

theorem exclude (h : s.Fits) : s.exclude.Fits := h.stopTimer.onMember.discardHeld

theorem settleLetter (h : s.Fits) : s.settleLetter.Fits := h.doIf h.onCardPool

theorem enterReady (h : s.Fits) : s.enterReady.Fits := h.rePlace.tryStartJob.chooseTile

theorem leaveRolling (h : s.Fits) {st : StationState} : (s.leaveRolling st).Fits :=
  h.settleLetter.onMember.onLink fun _ hl => hl.flushRollHeld

theorem endRollCall (h : s.Fits) : s.endRollCall.Fits := by
  have h1 := h.onRingNext (f := fun _ => s.member.highest)
  unfold State.endRollCall
  dsimp only
  repeat' split
  · exact h1.onMember.discardHeld
  · exact h1.leaveRolling.onCapture.enterReady
  · exact h1.onMember.emptyRing.leaveRolling
  · exact h1.leaveRolling

theorem takeSettled (h : s.Fits) {k : Taken} {handle : State → State} (hf : ∀ t, t.Fits → (handle t).Fits) :
    (s.takeSettled k handle).Fits := by
  unfold State.takeSettled
  repeat' split
  all_goals first | exact h | exact hf _ h

theorem metByFrame (h : s.Fits) : s.metByFrame.Fits := by
  unfold State.metByFrame
  split
  · exact h.endRollCall
  · exact h.exclude

theorem take (h : s.Fits) {k : Taken} {handle : State → State} (hf : ∀ t, t.Fits → (handle t).Fits) : (s.take k handle).Fits := by
  unfold State.take
  repeat' split
  · exact h
  · exact h.metByFrame.takeSettled hf
  · exact h.takeSettled hf

end State.Fits

end Sys2Proof.Machine
end

section
/-! PROOF. `State.Fits` is kept by every command, and so by every step. -/

namespace Sys2Proof.Machine

/-! ## Settings (R33) -/

/-- A value lies in a range and on its step (R33). -/
structure OnStep (low high step v : Nat) : Prop where
  low : low ≤ v
  high : v ≤ high
  step : v % step = 0

/-- A guarded setting is put only where its guard holds. -/
theorem guardValue_some {ok : Bool} {st st' : Settings} (h : guardValue ok st = some st') : ok = true ∧ st = st' := by
  cases ok
  · cases h
  · exact ⟨rfl, Option.some.inj h⟩

/-- The range test of a value. -/
theorem onStep_iff (low high step v : Nat) : inRange low high step v = true ↔ OnStep low high step v := by
  simp only [inRange, Bool.and_eq_true, decide_eq_true_eq, beq_iff_eq]
  exact ⟨fun ⟨⟨hl, hh⟩, hs⟩ => ⟨hl, hh, hs⟩, fun ⟨hl, hh, hs⟩ => ⟨⟨hl, hh⟩, hs⟩⟩

/-- A setting that takes one of two values lies in its range where each value does. -/
theorem Settings.inRange_of_map {α : Type} {o : Option α} {f : α → Settings} {st : Settings} (h : o.map f = some st)
    (hf : ∀ a, (f a).inRange) : st.inRange := by
  obtain ⟨a, -, rfl⟩ := Option.map_eq_some_iff.mp h
  exact hf a

/-- A guarded setting lies in its range where the guard puts it there. -/
theorem Settings.inRange_of_guard {low high step v : Nat} {new st : Settings} (h : guardValue (Machine.inRange low high step v) new = some st)
    (hf : OnStep low high step v → new.inRange) : st.inRange := by
  obtain ⟨hok, rfl⟩ := guardValue_some h
  exact hf ((onStep_iff ..).mp hok)

/-- What Set puts lies in its range: one case for each item, in the order of R33. -/
theorem Settings.put_inRange {st st' : Settings} {item : Byte} {v : Nat} (h : st.inRange) (hp : st.put item v = some st') :
    st'.inRange := by
  have hst := h
  obtain ⟨hcol, hrow, hdeb, hskew, hlim, hdark, hage, hhot, hblack, hgain, hseam, hseg, hlev⟩ := h
  unfold Settings.put at hp
  extract_lets i at hp
  obtain ⟨-, hp⟩ | ⟨-, hp⟩ := ite_eq_iff.mp hp
  · repeat' split at hp
    all_goals cases hp; try exact hst
  obtain ⟨-, hp⟩ | ⟨-, hp⟩ := ite_eq_iff.mp hp
  · exact Settings.inRange_of_guard hp fun ⟨hlow, hhigh, hstep⟩ =>
      ⟨⟨hlow, hhigh, hstep⟩, hrow, hdeb, hskew, hlim, hdark, hage, hhot, hblack, hgain, hseam, hseg, hlev⟩
  obtain ⟨-, hp⟩ | ⟨-, hp⟩ := ite_eq_iff.mp hp
  · exact Settings.inRange_of_guard hp fun ⟨hlow, hhigh, hstep⟩ =>
      ⟨hcol, ⟨hlow, hhigh, hstep⟩, hdeb, hskew, hlim, hdark, hage, hhot, hblack, hgain, hseam, hseg, hlev⟩
  obtain ⟨-, hp⟩ | ⟨-, hp⟩ := ite_eq_iff.mp hp
  · exact Settings.inRange_of_map hp fun _ => hst
  obtain ⟨-, hp⟩ | ⟨-, hp⟩ := ite_eq_iff.mp hp
  · exact Settings.inRange_of_map hp fun _ => hst
  obtain ⟨-, hp⟩ | ⟨-, hp⟩ := ite_eq_iff.mp hp
  · exact Settings.inRange_of_guard hp fun ⟨hlow, hhigh, hstep⟩ =>
      ⟨hcol, hrow, ⟨hlow, hhigh, hstep⟩, hskew, hlim, hdark, hage, hhot, hblack, hgain, hseam, hseg, hlev⟩
  obtain ⟨-, hp⟩ | ⟨-, hp⟩ := ite_eq_iff.mp hp
  · exact Settings.inRange_of_guard hp fun ⟨hlow, hhigh, hstep⟩ =>
      ⟨hcol, hrow, hdeb, ⟨hlow, hhigh⟩, hlim, hdark, hage, hhot, hblack, hgain, hseam, hseg, hlev⟩
  obtain ⟨-, hp⟩ | ⟨-, hp⟩ := ite_eq_iff.mp hp
  · exact Settings.inRange_of_guard hp fun ⟨hlow, hhigh, hstep⟩ =>
      ⟨hcol, hrow, hdeb, hskew, ⟨hlow, hhigh⟩, hdark, hage, hhot, hblack, hgain, hseam, hseg, hlev⟩
  obtain ⟨-, hp⟩ | ⟨-, hp⟩ := ite_eq_iff.mp hp
  · obtain ⟨-, hp⟩ | ⟨-, hp⟩ := ite_eq_iff.mp hp
    · cases hp
      exact ⟨hcol, hrow, hdeb, hskew, hlim, fun _ e => (by cases e), hage, hhot, hblack, hgain, hseam, hseg, hlev⟩
    · exact Settings.inRange_of_guard hp fun ⟨hlow, hhigh, _⟩ =>
        ⟨hcol, hrow, hdeb, hskew, hlim, fun t e => (by cases e; exact ⟨hlow, hhigh⟩), hage, hhot, hblack, hgain, hseam, hseg, hlev⟩
  obtain ⟨-, hp⟩ | ⟨-, hp⟩ := ite_eq_iff.mp hp
  · exact Settings.inRange_of_guard hp fun ⟨hlow, hhigh, hstep⟩ =>
      ⟨hcol, hrow, hdeb, hskew, hlim, hdark, ⟨hlow, hhigh⟩, hhot, hblack, hgain, hseam, hseg, hlev⟩
  obtain ⟨-, hp⟩ | ⟨-, hp⟩ := ite_eq_iff.mp hp
  · exact Settings.inRange_of_guard hp fun ⟨hlow, hhigh, hstep⟩ =>
      ⟨hcol, hrow, hdeb, hskew, hlim, hdark, hage, ⟨hlow, hhigh⟩, hblack, hgain, hseam, hseg, hlev⟩
  obtain ⟨-, hp⟩ | ⟨-, hp⟩ := ite_eq_iff.mp hp
  · exact Settings.inRange_of_guard hp fun ⟨hlow, hhigh, hstep⟩ =>
      ⟨hcol, hrow, hdeb, hskew, hlim, hdark, hage, hhot, hhigh, hgain, hseam, hseg, hlev⟩
  obtain ⟨-, hp⟩ | ⟨-, hp⟩ := ite_eq_iff.mp hp
  · exact Settings.inRange_of_guard hp fun ⟨hlow, hhigh, hstep⟩ =>
      ⟨hcol, hrow, hdeb, hskew, hlim, hdark, hage, hhot, hblack, ⟨hlow, hhigh⟩, hseam, hseg, hlev⟩
  obtain ⟨-, hp⟩ | ⟨-, hp⟩ := ite_eq_iff.mp hp
  · exact Settings.inRange_of_map hp fun _ => hst
  obtain ⟨-, hp⟩ | ⟨-, hp⟩ := ite_eq_iff.mp hp
  · exact Settings.inRange_of_map hp fun _ => hst
  obtain ⟨-, hp⟩ | ⟨-, hp⟩ := ite_eq_iff.mp hp
  · exact Settings.inRange_of_map hp fun _ => hst
  obtain ⟨-, hp⟩ | ⟨-, hp⟩ := ite_eq_iff.mp hp
  · exact Settings.inRange_of_guard hp fun ⟨hlow, hhigh, hstep⟩ =>
      ⟨hcol, hrow, hdeb, hskew, hlim, hdark, hage, hhot, hblack, hgain, ⟨hlow, hhigh⟩, hseg, hlev⟩
  obtain ⟨-, hp⟩ | ⟨-, hp⟩ := ite_eq_iff.mp hp
  · exact Settings.inRange_of_guard hp fun ⟨hlow, hhigh, hstep⟩ =>
      ⟨hcol, hrow, hdeb, hskew, hlim, hdark, hage, hhot, hblack, hgain, hseam, ⟨hlow, hhigh, hstep⟩, hlev⟩
  obtain ⟨-, hp⟩ | ⟨-, hp⟩ := ite_eq_iff.mp hp
  · repeat' split at hp
    all_goals cases hp; try exact hst
  obtain ⟨-, hp⟩ | ⟨-, hp⟩ := ite_eq_iff.mp hp
  · exact Settings.inRange_of_map hp fun _ => hst
  obtain ⟨-, hp⟩ | ⟨-, hp⟩ := ite_eq_iff.mp hp
  · exact Settings.inRange_of_map hp fun _ => hst
  obtain ⟨-, hp⟩ | ⟨-, hp⟩ := ite_eq_iff.mp hp
  · exact Settings.inRange_of_map hp fun _ => hst
  obtain ⟨-, hp⟩ | ⟨-, hp⟩ := ite_eq_iff.mp hp
  · exact Settings.inRange_of_map hp fun _ => hst
  obtain ⟨-, hp⟩ | ⟨-, hp⟩ := ite_eq_iff.mp hp
  · exact Settings.inRange_of_map hp fun _ => hst
  obtain ⟨-, hp⟩ | ⟨-, hp⟩ := ite_eq_iff.mp hp
  · exact Settings.inRange_of_map hp fun _ => hst
  obtain ⟨-, hp⟩ | ⟨-, hp⟩ := ite_eq_iff.mp hp
  · exact Settings.inRange_of_map hp fun _ => hst
  obtain ⟨-, hp⟩ | ⟨-, hp⟩ := ite_eq_iff.mp hp
  · exact Settings.inRange_of_map hp fun _ => hst
  obtain ⟨-, hp⟩ | ⟨-, hp⟩ := ite_eq_iff.mp hp
  · exact Settings.inRange_of_guard hp fun ⟨_, hhigh, _⟩ =>
      ⟨hcol, hrow, hdeb, hskew, hlim, hdark, hage, hhot, hblack, hgain, hseam, hseg, (by simpa using hlev.1),
        fun l hl => (List.mem_or_eq_of_mem_set hl).elim (hlev.2 l) fun e => e ▸ hhigh⟩
  · cases hp

/-- The defaults of R33 lie in their ranges. -/
theorem Settings.default_inRange : ({} : Settings).inRange := by
  simp [Settings.inRange]

/-! ## The buffer pool, where a Segment is taken -/

/-- A spent grant leaves a buffer for the Segment that spends it (R162, R163). -/
theorem Card.spendGrant_pool {c : Card} {m : Node} {g : GrantRecord} (hg : c.grant? m = some g) (hu : 0 < g.unfilled) :
    (c.spendGrant m).unfilled + 1 = c.unfilled := by
  unfold Card.grant? at hg
  unfold Card.unfilled Card.spendGrant
  dsimp only
  generalize c.grants = l at hg ⊢
  induction l with
  | nil => cases hg
  | cons a as ih =>
    by_cases ha : (a.member == m) = true
    · rw [List.find?_cons, ha] at hg
      cases hg
      simp only [updFirst, ha, if_true, List.map_cons, List.sum_cons]
      omega
    · rw [List.find?_cons, Bool.eq_false_iff.mpr ha] at hg
      simp only [updFirst, ha, Bool.false_eq_true, if_false, List.map_cons, List.sum_cons]
      have := ih hg
      omega

/-- A grant record that is emptied keeps the pool within its buffers. -/
theorem Card.Fits.emptyGrant {c : Card} (h : c.Fits) (g : GrantRecord) : (c.setGrant { g with unfilled := 0 }).Fits :=
  h.setGrant _ (Nat.zero_le _)

theorem Card.Fits.perform {c : Card} (h : c.Fits) (w : Write) : (Card.perform w c).Fits :=
  ⟨Card.perform_canonical w h.canonical, h.pool⟩

namespace State.Fits

variable {s : State}

/-! ## Expiries and the clock -/

theorem rollExpiry (h : s.Fits) : s.rollExpiry.Fits := by
  unfold State.rollExpiry
  repeat' split
  · exact h.endRollCall
  · exact h.sendRoll
  · exact h

theorem markExpiry (h : s.Fits) : s.markExpiry.Fits := h.doIf h.broadcast

theorem attributionExpiry (h : s.Fits) : s.attributionExpiry.Fits := h.onCapture.recordOutcome

theorem pulseExpiry (h : s.Fits) : s.pulseExpiry.Fits := h.doIf h.endIntegration

theorem limitExpiry (h : s.Fits) : s.limitExpiry.Fits := by
  unfold State.limitExpiry
  repeat' split
  · exact h
  · exact h.markLimit.endIntegration.doIf h.markLimit.endIntegration.broadcast
  · exact h

theorem darkExpiry (h : s.Fits) : s.darkExpiry.Fits := by
  unfold State.darkExpiry
  split
  · exact h.onCapture.updDarkCapture
  · exact h

theorem quietExpiry (h : s.Fits) : s.quietExpiry.Fits := h.onCapture.raise

theorem timeOutEdge (h : s.Fits) {j : Job} : (s.timeOutEdge j).Fits := by
  unfold State.timeOutEdge
  split
  · exact h.updJob.resolve
  · exact h

theorem seamExpiry (h : s.Fits) : s.seamExpiry.Fits := h.inPhase fun _ _ ht => ht.timeOutEdge

theorem expire (h : s.Fits) {id : TimerId} : (s.expire id).Fits := by
  refine h.onExpiry fun t ht => ?_
  cases id
  · exact ht.rollExpiry
  · exact ht.markExpiry
  · exact ht.attributionExpiry
  · exact ht.pulseExpiry
  · exact ht.limitExpiry
  · exact ht.darkExpiry
  · exact ht.quietExpiry
  · exact ht.seamExpiry

theorem expiriesFirst (h : s.Fits) : s.expiriesFirst.Fits := by
  unfold State.expiriesFirst
  split
  · exact h
  · exact h.foldl (fun _ _ ht => ht.expire) _

theorem fireAlarm (h : s.Fits) : s.fireAlarm.Fits := h.onClock.onCapture

theorem testAlarm (h : s.Fits) : s.testAlarm.Fits := h.doIf h.fireAlarm

theorem advance (h : s.Fits) {k : Nat} : (s.advance k).Fits := h.onClock.testAlarm

theorem edge (h : s.Fits) : s.edge.Fits := State.Fits.advance (h.advance.onClock fun _ => Clock.edge_fits)

theorem microsecond (h : s.Fits) : s.microsecond.Fits := h.onClock.advance

theorem clockMark (h : s.Fits) {time frameStart : Time} : (s.clockMark time frameStart).Fits := by
  refine State.Fits.loadTimer ?_ (by simp [Config.markInterval, TimerId.longest, TimerId.wide])
  unfold State.stepTo
  split
  · exact h.advance
  · exact h

theorem takeMark (h : s.Fits) {time frameStart : Time} : (s.takeMark time frameStart).Fits := h.take fun _ ht => ht.clockMark

theorem countToAlarm (h : s.Fits) : s.countToAlarm.Fits := by
  unfold State.countToAlarm
  repeat' split
  · exact h
  · exact h.fireAlarm
  · exact h.onClock.advance
  · exact h

theorem endPulse (h : s.Fits) : s.endPulse.Fits := h.doIf h.edge

/-! ## Power -/

theorem captureDoze (h : s.Fits) : s.captureDoze.Fits := by
  have h1 := h.cancelRelease.doIf (b := s.capture.state.forced) (f := State.onClock fun c => { c with timers := c.timers.haltCapture })
    (h.cancelRelease.onClock fun _ ht => Timers.Fits.haltCapture ht)
  exact h1.onCapture fun c => by split <;> rfl

theorem enterDoze (h : s.Fits) : s.enterDoze.Fits := h.onPower.captureDoze

theorem leaveDoze (h : s.Fits) : s.leaveDoze.Fits := h.doIf h.onPower

theorem cardSleep (h : s.Fits) : s.cardSleep.Fits := by
  have h1 := h.doIf (b := s.card.state != .empty) (h.changeCard (st := .empty) (roll := none))
  exact h1.onCard fun c hc => ⟨hc.canonical, Nat.zero_le _⟩

theorem captureSleep (h : s.Fits) : s.captureSleep.Fits := h.invalidateDark.abandonDark.cancelRelease.onCapture

theorem dropTileMemory (h : s.Fits) : s.dropTileMemory.Fits := by
  refine State.Fits.onDark (State.Fits.onRing h fun r hr => ?_)
  exact ⟨hr.slots, rfl, hr.top⟩

theorem clearNotices (h : s.Fits) : (s.onNotices fun n => { n with records := List.replicate 11 none }).Fits :=
  h.onNotices fun _ _ => rfl

theorem enterSleep (h : s.Fits) : s.enterSleep.Fits :=
  (h.onPower.captureSleep.cardSleep.dropTileMemory.onTransfer.onSync.onClock fun c _ => Clock.sleep_fits c).clearNotices

theorem sleepTest (h : s.Fits) : s.sleepTest.Fits := h.doIf h.enterSleep

theorem announceWake (h : s.Fits) {cause : WakeCause} : (s.announceWake cause).Fits := by
  cases cause
  · exact h
  · exact h.broadcast
  · exact h.broadcast

theorem wakeUp (h : s.Fits) {cause : WakeCause} {source : Byte} {body : List Byte} : (s.wakeUp cause source body).Fits := by
  have h1 : ∀ p d, (((s.onPower p).onDevelop fun v => { v with stats := d }).onLink Link.wake).Fits := fun _ _ =>
    State.Fits.onLink h.onPower.onDevelop fun _ _ => ⟨Nat.zero_le _, Nat.zero_le _⟩
  exact State.Fits.raise (State.Fits.setupRollCall (State.Fits.mountIfPresent (State.Fits.onSync
    ((h1 _ _).clearNotices.announceWake.loadTimer (by simp [Config.markInterval, TimerId.longest, TimerId.wide])))))

theorem wakeLocal (h : s.Fits) {cause : WakeCause} : (s.wakeLocal cause).Fits := h.wakeUp

theorem takeWake (h : s.Fits) {source : Node} {mask : Byte} {cause : WakeFrameCause} : (s.takeWake source mask cause).Fits := by
  unfold State.takeWake
  repeat' split
  · exact h
  · exact h.leaveDoze
  · exact h.wakeUp
  · exact h

/-! ## Edges and samples -/

theorem closingEdge (h : s.Fits) {b : Bool} {t : Time} : (s.closingEdge b t).Fits := by
  unfold State.closingEdge
  repeat' split
  · exact h.observe
  · exact h.observe
  · exact h
  · exact h
  · exact h.doIf h.trigger

theorem openingEdge (h : s.Fits) {t : Time} : (s.openingEdge t).Fits := by
  unfold State.openingEdge
  repeat' split
  · exact h
  · exact h.endIntegration.doIf h.endIntegration.broadcast
  · exact h

theorem deliverEdge (h : s.Fits) {level : Level} {t : Time} : (s.deliverEdge level t).Fits := by
  unfold State.deliverEdge
  split
  · exact (h.doIf h.leaveDoze).closingEdge
  · exact (h.doIf h.leaveDoze).openingEdge

theorem sampleAwake (h : s.Fits) {level : Level} : (s.sampleAwake level).Fits := by
  unfold State.sampleAwake
  repeat' split
  · exact h.onSync
  · exact h
  · exact h.onSync
  · exact h.onSync
  · exact h.onSync.deliverEdge
  · exact h.onSync

theorem sampleAsleep (h : s.Fits) {level : Level} : (s.sampleAsleep level).Fits := by
  unfold State.sampleAsleep
  repeat' split
  · exact h
  · exact h.onPower
  · exact h.onPower
  · exact h.wakeLocal
  · exact h.onPower
  · exact h

theorem sample (h : s.Fits) {level : Level} : (s.sample level).Fits := by
  unfold State.sample
  repeat' split
  · exact h.sampleAsleep
  · exact h.sampleAwake
  · exact h

theorem acceptLevel (h : s.Fits) {level : Level} : (s.acceptLevel level).Fits := h.doIf h.sample

theorem wakeSample (h : s.Fits) : s.wakeSample.Fits := by
  unfold State.wakeSample
  split
  · exact h
  · exact h.doIf h.sample

/-! ## Capture frames and readouts -/

theorem captureOpen (h : s.Fits) {source : Node} {n : Shot} {t : Time} : (s.captureOpen source n t).Fits := by
  unfold State.captureOpen
  split
  · exact h.raiseNext.trigger.takeAgreedOpen
  · exact h.takeAgreedOpen

theorem captureClose (h : s.Fits) {n : Shot} {t : Time} {limit : Bool} : (s.captureClose n t limit).Fits := by
  unfold State.captureClose
  split
  · refine State.Fits.doIf ?_ (State.Fits.endIntegration ?_)
    all_goals exact State.Fits.doIf h.updEntry h.updEntry.markLimit
  · exact h

theorem captureRefuse (h : s.Fits) {source : Node} {n : Shot} {reason : RefuseReason} {policy : Policy} :
    (s.captureRefuse source n reason policy).Fits := by
  unfold State.captureRefuse
  split
  · exact h.raiseNext.beginTrigger.dropShot.sleepTest
  · exact h.dropShot.sleepTest

theorem captureReadDone (h : s.Fits) {source : Node} {n : Shot} {kind : ReadKind} {b : Bool} :
    (s.captureReadDone source n kind b).Fits := by
  unfold State.captureReadDone
  split
  · exact h.onCapture.doIf (State.Fits.stopTimer h.onCapture)
  · exact h

theorem supplyClose (h : s.Fits) {n : Shot} : (s.supplyClose n).Fits := by
  unfold State.supplyClose
  split
  · exact h.updEntry
  · exact h

theorem applyDark (h : s.Fits) {n : Shot} : (s.applyDark n).Fits :=
  State.Fits.doIf h.updSlot (h.updSlot.startDark (Nat.min_le_right _ _))

theorem endReadout (h : s.Fits) : s.endReadout.Fits := h.onCapture

theorem updArea (h : s.Fits) {i : Nat} {f : Area → Area} : (s.onRing (Ring.updArea i f)).Fits :=
  h.onRing fun _ hr => hr.of_lengths rfl (by simp [Ring.updArea]) rfl

theorem readoutDone (h : s.Fits) {samples : List Sample} : (s.readoutDone samples).Fits := by
  unfold State.readoutDone
  repeat' split
  · exact h
  · refine State.Fits.sleepTest (State.Fits.tryStartJob (State.Fits.doIf ?_ (State.Fits.endReadout ?_)))
    all_goals
      refine State.Fits.broadcast (State.Fits.doIf ?_ (State.Fits.applyDark ?_))
      all_goals exact h.updArea.supplyClose.updSlot.completionTest
  · exact h

theorem darkReadoutDone (h : s.Fits) {samples : List Sample} : (s.darkReadoutDone samples).Fits := by
  unfold State.darkReadoutDone
  split
  · exact h.onDark.updDarkCapture
  · exact h

theorem scanStep (h : s.Fits) : s.scanStep.Fits := by
  unfold State.scanStep
  repeat' split
  · exact h
  · exact h
  · exact h.insertHot
  · exact h

theorem completeDark (h : s.Fits) {c : DarkCapture} : (s.completeDark c).Fits := by
  have h1 := h.onDark (f := fun d => { d with valid := true, duration := some c.duration, captureEnd := c.captureEnd })
  exact (h1.doIf h1.settleAwaiting).broadcast.onCapture.onDark.tryStartJob

theorem scanDone (h : s.Fits) : s.scanDone.Fits := by
  unfold State.scanDone
  repeat' split
  · exact h
  · exact (h.foldl (fun _ _ ht => ht.insertHot) _).completeDark
  · exact h

/-! ## The phases of a job, and Seams -/

theorem endBase (h : s.Fits) {j : Job} : (s.endBase j).Fits := h.rework.onDevelop.updJob

theorem endInterior (h : s.Fits) {j : Job} : (s.endInterior j).Fits := h.rework.updJob.resolve

theorem endEdge (h : s.Fits) {j : Job} : (s.endEdge j).Fits := by
  unfold State.endEdge
  split
  · exact h.rework.updJob
  · exact h

theorem endGain (h : s.Fits) {j : Job} : (s.endGain j).Fits := h.rework.updJob

theorem endFinish (h : s.Fits) {j : Job} : (s.endFinish j).Fits := by
  unfold State.endFinish
  split
  · exact h
  · exact h.onDevelop.onDark.updSlot.raise.tryStartJob.chooseTile.sleepTest

theorem endWaitByBand (h : s.Fits) : s.endWaitByBand.Fits := h.updJob.stopTimer.resolve

theorem keepBand (h : s.Fits) {source : Node} {n : Shot} {band : List Word16} : (s.keepBand source n band).Fits := by
  unfold State.keepBand
  split
  · exact h.onDevelop
  next store hstore =>
    have hlen : store.length ≤ 8 := by
      unfold storeBand at hstore
      repeat' split at hstore
      · cases hstore
        rw [updFirst_length]
        exact h.store
      next hroom =>
        cases hstore
        have hroom : s.develop.store.length < 8 := hroom
        rw [List.length_append, List.length_singleton]
        omega
      · cases hstore
    have hkept : (s.onDevelop fun d => { d with store := store }).Fits := { h with store := hlen }
    exact hkept.doIf hkept.endWaitByBand

theorem engineSeam (h : s.Fits) {source : Node} {n : Shot} {d : Direction} {band : List Word16} :
    (s.engineSeam source n d band).Fits := by
  unfold State.engineSeam
  repeat' split
  · exact h.onDevelop
  · exact h
  · exact h.onDevelop
  · exact h.keepBand
  · exact h

/-! ## Placement frames, Grants, Redos and Claims -/

theorem blocksPlace (h : s.Fits) {source : Node} {n : Shot} {k : Socket} {o : PlaceOutcome} : (s.blocksPlace source n k o).Fits := by
  unfold State.blocksPlace
  dsimp only
  split
  · exact h.updEntry.chooseTile
  · exact h.updEntry.chooseTile.overflowDecide

theorem leaveSocket (h : s.Fits) {n : Shot} {k : Socket} {tr : Transfer} {b : Bool} : (s.leaveSocket n k tr b).Fits := by
  unfold State.leaveSocket
  dsimp only
  split
  · exact (State.Fits.doIf h.updEntry h.updEntry.cancelBulk).endPassIfDone
  · exact h.updEntry

theorem blocksUnplace (h : s.Fits) {source : Node} {n : Shot} {k : Socket} : (s.blocksUnplace source n k).Fits :=
  (State.Fits.doIf h.updEntry h.updEntry.completionTest).leaveSocket.overflowDecide.sleepTest

theorem blocksCommit (h : s.Fits) {n : Shot} {k : Socket} : (s.blocksCommit n k).Fits :=
  (State.Fits.doIf h.updEntry h.updEntry.completionTest).leaveSocket.sleepTest

theorem transferGrant (h : s.Fits) {socket : Byte} {n : Shot} {count : Byte} : (s.transferGrant socket n count).Fits := by
  unfold State.transferGrant
  repeat' split
  · exact State.Fits.doIf h.updEntry h.updEntry.endPassIfDone
  · exact h
  · exact h

theorem cardRedo (h : s.Fits) {n : Shot} {member : Byte} : (s.cardRedo n member).Fits := h.doIf h.onCardPool

theorem transferRedo (h : s.Fits) {n : Shot} {member : Byte} : (s.transferRedo n member).Fits := by
  unfold State.transferRedo
  dsimp only
  repeat' split
  · exact h.updEntry.cancelBulk.claimTargets
  · exact h.updEntry.chooseTile
  · exact h

theorem returnGrants (h : s.Fits) {m : Node} : (s.returnGrants m).Fits := by
  unfold State.returnGrants
  repeat' split
  · exact h
  · exact State.Fits.serve (h.onCard fun _ hc => hc.emptyGrant _)
  · exact h

theorem cardClaim (h : s.Fits) {q : Claim} : (s.cardClaim q).Fits := by
  unfold State.cardClaim
  dsimp only
  split
  · exact h.returnGrants.grantClaim
  · exact h.returnGrants.onCardPool (fun c => by unfold Card.wait; split <;> rfl)
      (fun c => by unfold Card.wait; split <;> exact Nat.le_refl _)

theorem takeClaim (h : s.Fits) {source : Node} {socket : Byte} {n : Shot} {count : Byte} : (s.takeClaim source socket n count).Fits :=
  h.doIf (h.take fun _ ht => ht.cardClaim)

/-! ## Bulk frames -/

theorem buildBulk (h : s.Fits) : s.buildBulk.Fits := by
  unfold State.buildBulk
  repeat' split
  · exact h
  · exact h.onLinkQueues
  · exact h.onLinkQueues
  · exact h

theorem segmentSent (h : s.Fits) {b : SegmentBody} {c : Bool} : (s.segmentSent b c).Fits := by
  unfold State.segmentSent
  dsimp only
  repeat' split
  · exact h.updEntry.claimTargets
  · exact h.updEntry.updEntry.updEntry.endPassIfDone
  · exact h.updEntry.updEntry.claimTargets

theorem bulkSent (h : s.Fits) {b : Bulk} : (s.bulkSent b).Fits := by
  unfold State.bulkSent
  split
  · exact h.onDevelop
  · exact h.segmentSent
  · exact h

end State.Fits

/-- A buffer of the pool is free for a Segment (R162). -/
structure Card.Room (c : Card) : Prop where
  free : c.unfilled + c.filled + 1 ≤ 32

namespace State.Fits

variable {s : State}

/-! ## Segments -/

theorem updProgress (h : s.Fits) {n : Shot} {m : Node} {f : Progress → Progress} : (s.updProgress n m f).Fits := h.onCardPool

theorem failTile (h : s.Fits) {p : Placed} {m : Progress} {reason : RedoReason} : (s.failTile p m reason).Fits := by
  unfold State.failTile
  repeat' split
  · exact h
  · exact h.updProgress.broadcast
  · exact h.unplaceSumFailure.sleepTest

theorem closeTile (h : s.Fits) {p : Placed} {m : Progress} {running : Word16} {c : CloseFields} : (s.closeTile p m running c).Fits := by
  unfold State.closeTile
  dsimp only
  split
  · exact h.updProgress.updProgress.commitTest
  · exact h.updProgress.failTile

/-- A Segment is accepted where a buffer is free for it. -/
theorem acceptSegment (h : s.Fits) (hroom : s.card.Room) {p : Placed} {m : Progress} {b : SegmentBody} :
    (s.acceptSegment p m b).Fits := by
  have h1 : (s.onCard fun c => { Card.updPlaced p.shot (fun q => { q with unwritten := q.unwritten + 1 }) c with
      writes := c.writes ++ [blockWrite s.settings m.member p b] }).Fits := by
    refine { h with card := ⟨h.card.canonical, ?_⟩ }
    have hone : ([blockWrite s.settings m.member p b].filter Write.fillsBuffer).length ≤ 1 := List.length_filter_le ..
    show s.card.unfilled + ((s.card.writes ++ [blockWrite s.settings m.member p b]).filter Write.fillsBuffer).length ≤ 32
    have hfree : s.card.unfilled + (s.card.writes.filter Write.fillsBuffer).length + 1 ≤ 32 := hroom.free
    rw [List.filter_append, List.length_append]
    omega
  unfold State.acceptSegment
  dsimp only
  split
  · exact h1.updProgress
  · exact h1.updProgress.closeTile

theorem judgeSegment (h : s.Fits) (hroom : s.card.Room) {p : Placed} {m : Progress} {b : SegmentBody} :
    (s.judgeSegment p m b).Fits := by
  unfold State.judgeSegment
  extract_lets restarts m1 s1
  have h1 : s1.Fits := h.doIf h.updProgress
  have hroom1 : s1.card.Room := by
    show (State.doIf restarts _ s).card.Room
    cases restarts
    · exact hroom
    · exact ⟨hroom.free⟩
  repeat' split
  · exact h.serve
  · exact h1.serve
  · exact h1.acceptSegment hroom1
  · exact h1.failTile.serve

theorem cardSegment (h : s.Fits) {source : Node} {b : SegmentBody} : (s.cardSegment source b).Fits := by
  unfold State.cardSegment
  repeat' split
  · exact h
  next p g _ hg _ m _ hcond =>
    have hspent : (s.card.spendGrant source).unfilled + s.card.filled + 1 ≤ 32 := by
      have := Card.spendGrant_pool hg hcond.2.2
      have := h.card.pool
      omega
    have h1 : (s.onCard (Card.spendGrant source)).Fits :=
      { h with card := ⟨h.card.canonical, Nat.le_of_succ_le hspent⟩ }
    exact h1.judgeSegment ⟨hspent⟩
  · exact h
  · exact h

end State.Fits

end Sys2Proof.Machine
end

section
/-! PROOF. `State.Fits` is kept by the commands of the card, the requests, the roll call and the link, and so by every step: O58. -/

namespace Sys2Proof.Machine

namespace State.Fits

variable {s : State}

theorem takeSegment (h : s.Fits) {source : Node} {body : SegmentBody} : (s.takeSegment source body).Fits :=
  h.doIf (h.take fun _ ht => ht.cardSegment)

/-! ## Card writes and the card socket -/

theorem completeWrite (h : s.Fits) {p : Write → Bool} {f : Write → State → State} (hf : ∀ w t, t.Fits → (f w t).Fits) :
    (s.completeWrite p f).Fits := by
  unfold State.completeWrite
  split
  · exact h
  next w rest hw =>
    split
    · refine State.Fits.ejectTest (hf _ _ { h with card := ?_ })
      refine ⟨Card.perform_canonical w h.card.canonical, Nat.le_trans (Nat.add_le_add_left ?_ _) h.card.pool⟩
      show (rest.filter Write.fillsBuffer).length ≤ (s.card.writes.filter Write.fillsBuffer).length
      rw [hw]
      exact ((List.sublist_cons_self w rest).filter _).length_le
    · exact h

theorem blockWritten (h : s.Fits) {w : Write} : (s.blockWritten w).Fits := by
  unfold State.blockWritten
  split
  · exact h
  · exact (State.Fits.serve h.onCardPool).commitTest

theorem indexWritten (h : s.Fits) {w : Write} : (s.indexWritten w).Fits := by
  unfold State.indexWritten
  repeat' split
  · exact h
  · refine (State.Fits.serve (State.Fits.onCard h.broadcast fun c hc => ?_)).raise.sleepTest
    exact Card.Fits.dropGrants (c := { c with placements := c.placements.eraseP _ }) ⟨hc.canonical, hc.pool⟩ _
  · exact h

theorem voidWritten (h : s.Fits) {w : Write} : (s.voidWritten w).Fits := by
  unfold State.voidWritten
  split
  · exact h
  · exact h.broadcast

theorem writeError (h : s.Fits) : s.writeError.Fits := h.doIf h.changeCard.dropAll.sleepTest

theorem insertCard (h : s.Fits) {m : Medium} (hm : m.bytes.wf = true) : (s.insertCard m).Fits := by
  unfold State.insertCard
  dsimp only
  have h1 : (s.onCard fun c => { c with medium := some m }).Fits :=
    h.onCard fun c hc => ⟨fun n hn => by cases hn; exact hm, hc.pool⟩
  repeat' split
  · exact h1.wakeLocal
  · exact h1.doIf h1.beginMount
  · exact h

theorem mountDone (h : s.Fits) : s.mountDone.Fits := by
  unfold State.mountDone
  repeat' split
  · exact h
  · exact h.changeCard.rePlace
  · exact h

theorem mountError (h : s.Fits) : s.mountError.Fits := h.doIf h.changeCard

theorem removeCard (h : s.Fits) : s.removeCard.Fits := by
  unfold State.removeCard
  split
  · have h1 : (s.onCard fun c => { c with medium := none }).Fits := h.onCard fun c hc => ⟨fun n hn => (by cases hn), hc.pool⟩
    exact h1.doIf h1.changeCard.dropAll.sleepTest
  · exact h

theorem formatDone (h : s.Fits) : s.formatDone.Fits := by
  unfold State.formatDone
  repeat' split
  next m r hm _ _ =>
    refine State.Fits.rePlace (State.Fits.changeCard ?_)
    have hwf := formatBytes_wf r.identity r.blocks (h.card.canonical m hm)
    generalize formatBytes r.identity r.blocks m.bytes = bytes at hwf ⊢
    exact { h with card := ⟨fun n hn => (by cases hn; exact hwf), h.card.pool⟩ }
  · exact h
  · exact h

/-! ## Requests -/

end State.Fits

/-- What a request does keeps what fits. -/
structure Action.Fits (act : Action) : Prop where
  keeps : ∀ t : State, t.Fits → (act t).1.Fits

namespace State.Fits

variable {s : State}

theorem answer {h : ReqHeader} {code : Byte} {r : State × Reply} (hr : r.1.Fits) : (State.answer h code r).Fits := hr.queue

theorem settle (h : s.Fits) {hd : ReqHeader} {code : Byte} {readable : Bool} {act : Action} (hf : Action.Fits act) :
    (s.settle hd code readable act).Fits := by
  unfold State.settle
  split
  · exact answer h
  · exact (answer (hf.keeps _ h)).doIf (answer (hf.keeps _ h)).sleepTest

theorem request (h : s.Fits) {hd : ReqHeader} {code : Byte} {act : Action} (hf : Action.Fits act) :
    (s.request hd code act).Fits :=
  h.take fun _ ht => ht.settle hf

theorem refuse (h : s.Fits) {r : Reason} : (Machine.refuse r s).1.Fits := h

theorem setDefect (h : s.Fits) {v : Word32} : (setDefect v s).1.Fits := by
  unfold Machine.setDefect
  dsimp only
  repeat' split
  · exact h
  · exact h
  · dsimp only
    exact State.Fits.onMember (State.Fits.onDark h fun d hd => Dark.insert_bound _ _ _ d hd)

theorem resized (h : s.Fits) : s.resized.Fits := h.invalidateDark.emptyRing

theorem actSet (h : s.Fits) {b : Bool} {item : Byte} {v : Word32} : (actSet b item v s).1.Fits := by
  unfold Machine.actSet
  split
  · exact h.setDefect
  · split
    · exact h
    next st hst =>
      repeat' split
      · exact h
      · exact h
      · have h1 : (s.onMember fun m => { m with settings := st }).reconfigured.Fits :=
          { h with settings := Settings.put_inRange h.settings hst }
        exact h1.doIf h1.resized

theorem actBegin (h : s.Fits) : (actBegin s).1.Fits := by
  unfold Machine.actBegin
  split
  · exact h
  · exact (State.Fits.onMember h).onCapture.enterReady

theorem becomeArmed (h : s.Fits) : s.becomeArmed.Fits := h.onCapture.onSync

theorem actArm (h : s.Fits) : (actArm s).1.Fits := by
  unfold Machine.actArm
  repeat' split
  · exact h
  · exact h.leaveDoze.becomeArmed
  · exact h.leaveDoze
  · dsimp only
    exact h.leaveDoze.onCapture

theorem actDisarm (h : s.Fits) : (actDisarm s).1.Fits := by
  unfold Machine.actDisarm
  dsimp only
  refine State.Fits.onCapture h.cancelRelease fun c => ?_
  split <;> rfl

theorem actResume (h : s.Fits) : (actResume s).1.Fits := by
  unfold Machine.actResume
  repeat' split
  · exact h.becomeArmed
  · dsimp only
    exact h.onCapture
  · exact h

theorem actRelease (h : s.Fits) {t : Time} : (actRelease t s).1.Fits := by
  unfold Machine.actRelease
  repeat' split
  · exact h
  · exact h
  · exact h
  · exact h.onCapture.onClock.testAlarm

theorem actExposure (h : s.Fits) {v : Word32} : (actExposure v s).1.Fits := by
  unfold Machine.actExposure
  split
  next hv => exact { h with shutter := hv }
  next => exact h

theorem actTakeDark (h : s.Fits) {v : Word32} : (actTakeDark v s).1.Fits := by
  unfold Machine.actTakeDark
  repeat' split
  · exact h
  · exact h
  · exact h.startDark (by omega)

theorem actKeep (h : s.Fits) {n : Shot} : (actKeep n s).1.Fits := by
  unfold Machine.actKeep
  repeat' split
  · exact h.updSlot.chooseTile
  · exact h
  · exact h

theorem actDiscard (h : s.Fits) {b : Bool} {n : Shot} : (actDiscard b n s).1.Fits := by
  unfold Machine.actDiscard
  repeat' split
  · exact h
  · exact h.freeSlot
  · exact h
  · exact h

theorem actForgetHot (h : s.Fits) : (actForgetHot s).1.Fits := by
  unfold Machine.actForgetHot
  split
  · exact h
  · dsimp only
    exact h.onDark fun d hd => Nat.le_trans (List.length_filter_le ..) hd

theorem actHistogram (h : s.Fits) {n : Shot} : (actHistogram n s).1.Fits := by
  unfold Machine.actHistogram
  repeat' split
  all_goals exact h

theorem beginFormat (h : s.Fits) : s.beginFormat.Fits := by
  have hm := State.beginFormat_canonical h.card.canonical
  unfold State.beginFormat at hm ⊢
  split
  · exact h
  next m hmed =>
    rw [hmed] at hm
    exact State.Fits.raiseCardState { h with card := ⟨hm, h.card.pool⟩ }

theorem actFormat (h : s.Fits) {k : Byte} : (actFormat k s).1.Fits := by
  unfold Machine.actFormat
  repeat' split
  all_goals first | exact h | exact h.beginFormat

theorem actEject (h : s.Fits) {k : Byte} : (actEject k s).1.Fits := by
  unfold Machine.actEject
  repeat' split
  all_goals first | exact h | exact h.changeCard | exact h.changeCard.ejectTest

theorem actStatus (h : s.Fits) : (actStatus s).1.Fits := by
  refine { h with notices := ?_ }
  have hl : s.settings.noticeLevels.length = 11 := h.settings.2.2.2.2.2.2.2.2.2.2.2.2.1
  show (List.zipWith _ s.notices.records s.settings.noticeLevels).length = 11
  rw [List.length_zipWith, h.notices, hl, Nat.min_self]

theorem actDumpWake (h : s.Fits) : (actDumpWake s).1.Fits := by
  unfold Machine.actDumpWake
  split
  · dsimp only
    exact h.onDevelop
  · exact h

theorem actSleep (h : s.Fits) : (actSleep s).1.Fits := h.doIf h.enterDoze

theorem unreadable (h : s.Fits) {hd : ReqHeader} {code : Byte} : (s.unreadable hd code).Fits :=
  h.take fun _ ht => ht.settle ⟨fun _ h' => h'⟩

theorem reqAction {b : Bool} (r : Req) (h : s.Fits) : (r.action b s).1.Fits := by
  cases r
  · exact h.actSet
  · exact h.actBegin
  · exact h.actArm
  · exact h.actDisarm
  · exact h.actResume
  · exact h.actRelease
  · exact h.actExposure
  · exact h.actTakeDark
  · exact h.actKeep
  · exact h.actDiscard
  · exact h.actForgetHot
  · exact h.actHistogram
  · exact h.actFormat
  · exact h.actEject
  · exact h.actStatus
  · exact h.actDumpWake
  · exact h.actSleep
  · exact h

theorem takeRequest (h : s.Fits) {source : Node} {b : Bool} {tag code : Byte} {args : List Byte} :
    (s.takeRequest source b tag code args).Fits := by
  unfold State.takeRequest
  split
  · split
    · exact h.unreadable
    · exact h.request ⟨fun _ ht => reqAction _ ht⟩
  · exact h

/-! ## Rolls, Restart and Start -/

theorem rollIn (h : s.Fits) {r : RollFields} : (s.rollIn r).Fits := by
  have h1 := h.onMember (f := fun m => { m with
    table := enterRoll r m.table, highest := if m.highest < r.next then r.next else m.highest
    ownRollOut := m.ownRollOut || s.isOwnRoll r })
  exact h1.doIf (h1.loadTimer (by simp [Config.rollWindow, TimerId.longest, TimerId.wide]))

theorem rollHeard (h : s.Fits) {r : RollFields} : (s.rollHeard r).Fits := by
  unfold State.rollHeard
  split
  · exact h.doIf h.broadcast
  · exact h.raise

theorem takeRoll (h : s.Fits) {r : RollFields} : (s.takeRoll r).Fits := by
  unfold State.takeRoll State.meetRoll
  repeat' split
  · exact h
  · exact h.rollIn
  · exact h.rollHeard
  · exact h.rollHeard
  · exact h
  · exact h

theorem memberRestart (h : s.Fits) {b : Bool} : (s.onMember (Membership.restart b)).Fits := by
  cases b
  · exact h.onMember
  · exact { h with settings := Settings.default_inRange }

theorem clearBuffers (h : s.Fits) : (s.onCard Card.clearBuffers).Fits :=
  h.onCard fun c hc => ⟨hc.canonical, by
    have := cancelWrites_filled (·.kind == .block) c.writes
    have := hc.pool
    simp only [Card.clearBuffers, Card.unfilled, Card.filled, List.map_nil, List.sum_nil] at *
    omega⟩

theorem developRestart (h : s.Fits) : s.developRestart.Fits := by
  unfold State.developRestart
  split
  · exact h.onDevelop fun _ => Nat.zero_le _
  · exact h.stopJob.updSlot.onDevelop fun _ => Nat.zero_le _

theorem captureRestart (h : s.Fits) {b : Bool} : (s.captureRestart b).Fits := by
  have h1 := h.abandonDark.cancelRelease.onClock (f := fun c => { c with timers := c.timers.restart })
    fun _ ht => Timers.Fits.restart ht
  refine { h1 with shutter := ?_ }
  cases b
  · exact h1.shutter
  · show 100 ≤ 8000 ∧ 8000 ≤ 1000000
    omega

theorem redoFilling (h : s.Fits) : s.redoFilling.Fits := by
  unfold State.redoFilling
  split
  · exact h
  · exact h.foldl (fun _ _ ht => ht.foldl (fun _ _ hu => hu.broadcast) _) _

theorem ringRestart (h : s.Fits) : s.ringRestart.Fits := by
  unfold State.ringRestart
  dsimp only
  refine State.Fits.foldl (fun _ _ ht => ht.freeSlot) _ (State.Fits.onRing h.onTransfer fun r hr => ?_)
  exact hr.of_lengths rfl rfl rfl

theorem refillOwed (h : s.Fits) : s.refillOwed.Fits := h.onDevelop

theorem restart (h : s.Fits) {a b : Bool} : (s.restart a b).Fits := by
  have h1 := (State.Fits.clearNotices (h.leaveDoze.onLink (f := Link.restart) fun _ _ => ⟨Nat.zero_le _, Nat.zero_le _⟩)).memberRestart (b := b)
  have h2 := (h1.clearBuffers.developRestart.captureRestart (b := b)).ringRestart
  have h3 := State.Fits.refillOwed (h2.onCardPool (f := Card.restart))
  exact (State.Fits.doIf (h3.doIf h3.resized) (State.Fits.redoFilling (h3.doIf h3.resized))).setupRollCall

theorem takeRestart (h : s.Fits) {a b : Bool} : (s.takeRestart a b).Fits := by
  unfold State.takeRestart
  split
  · exact h
  · exact h.restart

/-- What Start leaves fits, whatever came before, where the card's bytes are canonical. -/
theorem fresh (h : s.Fits) {straps : Straps} {serial : Word32} {busy : Bool} : (s.fresh straps serial busy).Fits where
  link := ⟨Nat.zero_le _, Nat.zero_le _⟩
  card := ⟨h.card.canonical, Nat.zero_le _⟩
  ring := ⟨rfl, rfl, (by omega : 7 < 8)⟩
  store := Nat.zero_le _
  defects := Nat.zero_le _
  notices := rfl
  settings := Settings.default_inRange
  shutter := (by omega : 100 ≤ 8000 ∧ 8000 ≤ 1000000)
  timers := fun id => by
    cases id
    case mark => exact ⟨fun n hn => (by cases hn; simp [TimerId.longest, TimerId.wide]), fun _ _ hn => (by cases hn)⟩
    all_goals exact Timer.fits_idle _

theorem start (h : s.Fits) {straps : Straps} {serial : Word32} {busy : Bool} : (s.start straps serial busy).Fits := by
  unfold State.start
  dsimp only
  split
  · exact h.fresh.mountIfPresent.onMember
  · exact h.fresh.mountIfPresent.setupRollCall

/-! ## The link -/

theorem deliverMsg (h : s.Fits) {source : Node} {b : Bool} {t : Time} (msg : Msg) : (s.deliverMsg source b t msg).Fits := by
  cases msg
  · exact h.takeRoll
  · exact h.takeMark
  · exact h.take fun _ ht => ht.captureOpen
  · exact h.take fun _ ht => ht.captureClose
  · exact h.take fun _ ht => ht.captureRefuse
  · exact h.take fun _ ht => ht.captureReadDone
  · exact h.take fun _ ht => ht.blocksPlace
  · exact h.take fun _ ht => ht.blocksUnplace
  · exact h.takeClaim
  · exact h.take fun _ ht => ht.transferGrant
  · exact h.take fun _ ht => ht.cardRedo.transferRedo
  · exact h.take fun _ ht => ht.blocksCommit
  · exact h.takeRequest
  · exact h
  · exact h
  · exact h.takeRestart
  · exact h.takeWake
  · exact h.take fun _ ht => ht.engineSeam
  · exact h.takeSegment

theorem deliver (h : s.Fits) {f : WireFrame} {t : Time} : (s.deliver f t).Fits := by
  unfold State.deliver
  repeat' split
  · exact h.deliverMsg _
  · unfold State.deliverUnlisted
    split
    · exact h
    · exact h.take fun _ ht => ht
  · exact h

theorem prepareOffer (h : s.Fits) : s.prepareOffer.Fits := by
  have h1 : (s.onLink fun l =>
      { l with control := if l.urgent.isEmpty then stampHead s.clock.linkTime l.control else l.control }).Fits := by
    refine h.onLink fun l hl => ⟨hl.urgent, ?_⟩
    dsimp only
    split
    · rw [stampHead_length]; exact hl.control
    · exact hl.control
  exact h1.doIf h1.buildBulk

theorem hear (h : s.Fits) : s.hear.Fits := h.onLinkQueues

theorem send (h : s.Fits) {src : SendSource} : (s.send src).Fits := h.onLinkQueues

theorem rivalBegins (h : s.Fits) : s.rivalBegins.Fits := by
  unfold State.rivalBegins
  split
  · exact h.hear
  · exact h.hear
  · exact h

theorem meetFreeLink (h : s.Fits) {rival : Option WireFrame} : (s.meetFreeLink rival).Fits := by
  unfold State.meetFreeLink State.offerAgainst
  repeat' split
  · exact h.prepareOffer.doIf h.prepareOffer.hear
  · exact h.prepareOffer.send
  · exact h.prepareOffer.hear
  · exact h.doIf h.rivalBegins

theorem frameSent (h : s.Fits) : s.frameSent.Fits := by
  unfold State.frameSent
  repeat' split
  · exact h.onLink fun l hl => ⟨Nat.le_trans (by simp) hl.urgent, hl.control⟩
  · exact h.onLink fun l hl => ⟨hl.urgent, Nat.le_trans (by simp) hl.control⟩
  · exact h
  · exact State.Fits.bulkSent h.onLinkQueues
  · exact h

theorem linkFree (h : s.Fits) : (s.onLink Link.free).Fits := h.onLinkQueues

theorem judgeFrame (h : s.Fits) {f : WireFrame} {b : Bool} : (s.judgeFrame f b).Fits := by
  unfold State.judgeFrame
  dsimp only
  repeat' split
  · exact ((h.doIf (State.Fits.onLinkQueues h)).onLink fun _ hl => hl.discardFrame).linkFree
  · exact State.Fits.onLinkQueues h.frameSent.linkFree
  · exact h.frameSent.linkFree.deliver

theorem frameEnds (h : s.Fits) {f : WireFrame} {b : Bool} : (s.frameEnds f b).Fits := by
  unfold State.frameEnds State.endFrameAsleep State.endFrame
  repeat' split
  · exact h.linkFree.deliver
  · exact h.linkFree
  · exact h.judgeFrame.doIf h.judgeFrame.sleepTest
  · exact h.linkFree

theorem giveNotice (h : s.Fits) : s.giveNotice.Fits := by
  unfold State.giveNotice
  repeat' split
  · exact h
  · exact h
  · exact h.queue.onNotices fun n hn => by simpa using hn
  · exact h

/-! ## Every command and every step -/

/-- What an event's handling keeps, the event keeps. -/
theorem event {t : State} {handle : State → State} (h : s.Fits) (ht : s.event handle = .next t)
    (hf : ∀ u, u.Fits → (handle u).Fits) :
    t.Fits := by
  cases ht
  exact hf _ h.expiriesFirst

/-- Every command keeps what fits. -/
theorem exec {t : State} {c : Instr} (h : s.Fits) (hc : c.wf = true) (ht : exec c s = .next t) : t.Fits := by
  cases c
  case start => cases ht; exact h.start
  case rollWaitExpiry => cases ht; exact h.doIf h.expire
  case rollWindowExpiry => cases ht; exact h.doIf h.expire
  case markTimerExpiry | attributionExpiry | pulseTimerExpiry | exposureLimitExpiry | darkTimerExpiry | quietTimerExpiry |
    seamTimerExpiry => cases ht; exact h.expire
  case linkFreeOffer => exact h.event ht fun _ h => h.meetFreeLink
  case frameEnd => exact h.event ht fun _ h => h.frameEnds
  case heldFrameAdmit q => exact h.event ht fun _ h => h.onLink fun _ hl => hl.admitHeld q
  case noticeAdmit => exact h.event ht fun _ h => h.giveNotice
  case rollTaken => exact h.event ht fun _ h => h.takeRoll
  case restartTaken => exact h.event ht fun _ h => h.takeRestart
  case markTaken => exact h.event ht fun _ h => h.takeMark
  case releaseAlarmFire => exact h.event ht fun _ h => h.countToAlarm
  case releasePulseEnd => exact h.event ht fun _ h => h.endPulse
  case syncClosingEdge => exact h.event ht fun _ h => h.acceptLevel
  case syncOpeningEdge => exact h.event ht fun _ h => h.acceptLevel
  case syncWake => exact h.event ht fun _ h => h.wakeSample
  case openTaken => exact h.event ht fun _ h => h.take fun _ h => h.captureOpen
  case closeTaken => exact h.event ht fun _ h => h.take fun _ h => h.captureClose
  case refuseTaken => exact h.event ht fun _ h => h.take fun _ h => h.captureRefuse
  case readDoneTaken => exact h.event ht fun _ h => h.take fun _ h => h.captureReadDone
  case readoutComplete => exact h.event ht fun _ h => h.readoutDone
  case darkReadoutComplete => exact h.event ht fun _ h => h.darkReadoutDone
  case hotInsertion => exact h.event ht fun _ h => h.scanStep
  case darkScanComplete => exact h.event ht fun _ h => h.scanDone
  case placeTaken => exact h.event ht fun _ h => h.take fun _ h => h.blocksPlace
  case unplaceTaken => exact h.event ht fun _ h => h.take fun _ h => h.blocksUnplace
  case commitTaken => exact h.event ht fun _ h => h.take fun _ h => h.blocksCommit
  case phaseBaseComplete => exact h.event ht fun _ h => h.inPhase fun _ _ h => h.endBase
  case phaseInteriorComplete => exact h.event ht fun _ h => h.inPhase fun _ _ h => h.endInterior
  case edgeRepairsComplete => exact h.event ht fun _ h => h.inPhase fun _ _ h => h.endEdge
  case phaseGainComplete => exact h.event ht fun _ h => h.inPhase fun _ _ h => h.endGain
  case phaseFinishComplete => exact h.event ht fun _ h => h.inPhase fun _ _ h => h.endFinish
  case seamTaken => exact h.event ht fun _ h => h.take fun _ h => h.engineSeam
  case claimTaken => exact h.event ht fun _ h => h.takeClaim
  case grantTaken => exact h.event ht fun _ h => h.take fun _ h => h.transferGrant
  case segmentTaken => exact h.event ht fun _ h => h.takeSegment
  case redoTaken => exact h.event ht fun _ h => h.take fun _ h => h.cardRedo.transferRedo
  case cardBlockWriteComplete => exact h.event ht fun _ h => h.completeWrite fun _ _ h => h.blockWritten
  case headerWriteComplete => exact h.event ht fun _ h => h.completeWrite fun _ _ h => h
  case indexWriteComplete => exact h.event ht fun _ h => h.completeWrite fun _ _ h => h.indexWritten
  case voidWriteComplete => exact h.event ht fun _ h => h.completeWrite fun _ _ h => h.voidWritten
  case cardWriteError => exact h.event ht fun _ h => h.writeError
  case cardInserted m => exact h.event ht fun _ h => h.insertCard (Bool.and_eq_true_iff.mp hc).1
  case mountReadComplete => exact h.event ht fun _ h => h.mountDone
  case mountReadError => exact h.event ht fun _ h => h.mountError
  case cardRemoved => exact h.event ht fun _ h => h.removeCard
  case formatComplete => exact h.event ht fun _ h => h.formatDone
  case wakeTaken => exact h.event ht fun _ h => h.takeWake
  case sleepEntry => exact h.event ht fun _ h => h.sleepTest
  case setItem => exact h.event ht fun _ h => h.request ⟨fun _ h => h.actSet⟩
  case beginConf => exact h.event ht fun _ h => h.request ⟨fun _ h => h.actBegin⟩
  case arm => exact h.event ht fun _ h => h.request ⟨fun _ h => h.actArm⟩
  case disarm => exact h.event ht fun _ h => h.request ⟨fun _ h => h.actDisarm⟩
  case resume => exact h.event ht fun _ h => h.request ⟨fun _ h => h.actResume⟩
  case release => exact h.event ht fun _ h => h.request ⟨fun _ h => h.actRelease⟩
  case exposure => exact h.event ht fun _ h => h.request ⟨fun _ h => h.actExposure⟩
  case takeDark => exact h.event ht fun _ h => h.request ⟨fun _ h => h.actTakeDark⟩
  case keep => exact h.event ht fun _ h => h.request ⟨fun _ h => h.actKeep⟩
  case discard => exact h.event ht fun _ h => h.request ⟨fun _ h => h.actDiscard⟩
  case forgetHot => exact h.event ht fun _ h => h.request ⟨fun _ h => h.actForgetHot⟩
  case histogram => exact h.event ht fun _ h => h.request ⟨fun _ h => h.actHistogram⟩
  case format => exact h.event ht fun _ h => h.request ⟨fun _ h => h.actFormat⟩
  case eject => exact h.event ht fun _ h => h.request ⟨fun _ h => h.actEject⟩
  case status => exact h.event ht fun _ h => h.request ⟨fun _ h => h.actStatus⟩
  case dumpWake => exact h.event ht fun _ h => h.request ⟨fun _ h => h.actDumpWake⟩
  case sleep => exact h.event ht fun _ h => h.request ⟨fun _ h => h.actSleep⟩
  case requestUnknownCode => exact h.event ht fun _ h => h.unreadable
  case tapEdge => exact h.event ht fun _ h => h.edge
  case syncSample => exact h.event ht fun _ h => h.sample
  case frameStart => exact h.event ht fun _ h => h.rivalBegins

end State.Fits

/-- What the station does of itself is a well-formed command. -/
theorem State.dueStep_wf {s : State} {c : Instr} (h : s.dueStep = some c) : c.wf = true := by
  unfold State.dueStep State.dueExpiry State.dueAdmission at h
  dsimp only at h
  repeat' split at h
  all_goals first | (cases h; rfl) | skip
  all_goals grind [Instr.wf]

/-- A step runs a well-formed command with fewer waiting, or counts a microsecond with none. -/
theorem step_cases {s t : State} (hp : ∀ c ∈ s.pending, c.wf = true) (h : step s = .next t) :
    (∃ c rest, c.wf = true ∧ (∀ d ∈ rest, d ∈ s.pending) ∧ exec c { s with pending := rest } = .next t) ∨ t = s.tick := by
  unfold step at h
  split at h
  next c rest hs => exact .inl ⟨c, rest, hp c (by simp [hs]), fun d hd => by simp [hs, hd], h⟩
  next hs =>
    split at h
    next c hc => exact .inl ⟨c, [], State.dueStep_wf hc, fun d hd => by simp at hd, by rw [← hs]; exact h⟩
    next => exact .inr (Host.Outcome.next.inj h).symm

/-- Settles O58, by `State.Fits`, which every operation keeps. -/
theorem stepsKeepTheCapacities : Obligations.StepsKeepTheCapacities := by
  intro s t hs hp h
  have hfits : s.Fits := s.fits_iff.mpr hs
  obtain ⟨c, rest, hc, hrest, hexec⟩ | rfl := step_cases hp h
  · have hrestfits : State.Fits { s with pending := rest } := { hfits with }
    obtain ⟨u, hu, hpending⟩ := everyCommandGoesOn c { s with pending := rest }
    cases hexec.symm.trans hu
    exact ⟨t.fits_iff.mp (hrestfits.exec hc hu), fun d hd => hp d (hrest d (by rw [hpending] at hd; exact hd))⟩
  · refine ⟨(State.fits_iff _).mp ?_, fun d hd => hp d (by simpa using hd)⟩
    unfold State.tick
    split
    · exact hfits.microsecond
    · exact hfits.edge

end Sys2Proof.Machine
end

section
/-! PROOF. Frames taken in the station's state, the expiries that come before an event, Marks, and the taps (R22, R26, R38-R46). -/

namespace Sys2Proof.Machine

/-- What a fine edge makes of a station clock, but for its link time (R42-R44, R49). -/
structure Clock.EdgeTable (c d : Clock) : Prop where
  sinceFine : d.sinceFine = 0
  alarm : d.alarm = c.alarm
  pulse : d.pulse = countPulse c.pulse
  fine : ∀ id ∈ [TimerId.attribution, .pulse, .dark], d.timers.get id = (c.timers.get id).edge false
  between : c.sinceMilli + 1 < 100 → d.sinceMilli = c.sinceMilli + 1 ∧ d.sinceCoarse = c.sinceCoarse ∧
    ∀ id ∈ [TimerId.roll, .mark, .seam, .exposureLimit, .quiet], d.timers.get id = c.timers.get id
  milli : 100 ≤ c.sinceMilli + 1 → d.sinceMilli = 0 ∧ d.timers.roll = c.timers.roll.edge false ∧
    d.timers.mark = c.timers.mark.edge true ∧ d.timers.seam = c.timers.seam.edge false
  notCoarse : 100 ≤ c.sinceMilli + 1 → c.sinceCoarse + 1 < 100 → d.sinceCoarse = c.sinceCoarse + 1 ∧
    d.timers.exposureLimit = c.timers.exposureLimit ∧ d.timers.quiet = c.timers.quiet
  coarse : 100 ≤ c.sinceMilli + 1 → 100 ≤ c.sinceCoarse + 1 → d.sinceCoarse = 0 ∧
    d.timers.exposureLimit = c.timers.exposureLimit.edge false ∧ d.timers.quiet = c.timers.quiet.edge false

/-! ## A frame taken as the station stands -/

/-- A frame other than a capture frame goes to its block in Configuring, in Ready, and in Rolling with the rejoin flag (R22). -/
theorem State.take_takesFrames {k : Taken} (handle : State → State) {s : State} (h : s.takesFrames) (hk : k ≠ .capture) :
    s.take k handle = handle s := by
  obtain ⟨hp, hm | hm | ⟨hm, hr⟩⟩ := h
  · exact State.take_configuring k handle s hp hm
  · exact State.take_ready k handle s hp hm
  · rw [State.take_rejoining k handle s hp hm hr, if_neg hk]

/-- In Configuring and Ready every frame goes to its block (R22). -/
theorem State.take_inForce (k : Taken) (handle : State → State) {s : State} (h : s.inForce) : s.take k handle = handle s := by
  obtain ⟨hp, hm | hm⟩ := h
  · exact State.take_configuring k handle s hp hm
  · exact State.take_ready k handle s hp hm

/-- A Mark is taken in every station state but a roll call without the rejoin flag (R22, R26). -/
theorem State.take_takesMarks (handle : State → State) {s : State} (h : s.takesMarks) : s.take .mark handle = handle s := by
  obtain ⟨hp, hr⟩ := h
  cases hm : s.member.state with
  | rolling => rw [State.take_rejoining _ _ s hp hm (hr.resolve_left (· hm)), if_neg (by decide)]
  | configuring => exact State.take_configuring _ _ s hp hm
  | ready => exact State.take_ready _ _ s hp hm
  | excluded => rw [State.take_excluded _ _ s hp hm, if_pos (.inl rfl)]
  | duplicate => rw [State.take_duplicate _ _ s hp hm, if_pos (.inl rfl)]

/-! ## Expiries -/

/-- An expiry on its way is handled with its due mark cleared. -/
theorem State.expire_expires {id : TimerId} {s : State} (h : s.expires id) :
    s.expire id = id.handle { s with clock := s.clockAfter id } := State.expire_due id s h

/-- A roll timer's expiry is delivered by the row that R23 and R25 name: before the own Roll is out, or after. -/
theorem State.rollRows_expire (s : State) :
    State.doIf (!(s.doIf (s.rollingWith false) (State.expire .roll)).rollingWith false) (State.expire .roll)
      (s.doIf (s.rollingWith false) (State.expire .roll)) = s.expire .roll := by
  cases hr : s.rollingWith false with
  | false => simp [hr]
  | true =>
    have hstays : (s.expire .roll).rollingWith false = true := by
      obtain ⟨hm, ho⟩ : s.member.state = .rolling ∧ s.member.ownRollOut = false := by simpa [State.rollingWith] using hr
      cases hd : (s.timer .roll).due with
      | false => rw [State.expire_not_due _ s hd]; exact hr
      | true =>
        rw [State.expire_due _ s hd]
        simp [TimerId.handle, State.rollExpiry, State.sendRoll, State.broadcast, State.queue, State.rollingWith, hm, ho,
          State.onTimer]
    simp [hstays]

/-- The expiry rows in the order of R46 deliver each timer's expiry. -/
theorem State.afterExpiries_eq (s : State) (h : s.power.state ≠ .sleep) : s.afterExpiries = s.expiriesFirst := by
  rw [State.expiriesFirst, if_neg h]
  have hroll := s.rollRows_expire
  simp only [State.afterExpiries, List.foldl_cons, List.foldl_nil, TimerId.all, exec, execRollWaitExpiry, execRollWindowExpiry,
    execMarkTimerExpiry, execAttributionExpiry, execPulseTimerExpiry, execExposureLimitExpiry, execDarkTimerExpiry,
    execQuietTimerExpiry, execSeamTimerExpiry, hroll]

/-- An event that finds expiries due finds the station once they have been delivered (R44). -/
theorem State.event_afterExpiries (handle : State → State) (s : State) (h : s.power.state ≠ .sleep) (hc : s.afterExpiries.calm) :
    s.event handle = s.afterExpiries.event handle := by
  rw [State.event_of_calm handle _ hc, State.afterExpiries_eq s h]
  rfl

/-- Every command but START and the expiry rows is an event that what is due comes before (R44). -/
theorem exec_afterExpiries {c : Instr} {s : State} (hc : startOrExpiry c = false) (h : s.power.state ≠ .sleep)
    (hcalm : s.afterExpiries.calm) : exec c s = exec c s.afterExpiries := by
  cases c
  case start | rollWaitExpiry | rollWindowExpiry | markTimerExpiry | attributionExpiry | pulseTimerExpiry
      | exposureLimitExpiry | darkTimerExpiry | quietTimerExpiry | seamTimerExpiry => cases hc
  case syncClosingEdge =>
    exact State.event_afterExpiries (fun t => t.acceptLevel t.settings.syncPolarity.closedLevel) s h hcalm
  case syncOpeningEdge =>
    exact State.event_afterExpiries (fun t => t.acceptLevel t.settings.syncPolarity.openLevel) s h hcalm
  all_goals exact State.event_afterExpiries _ s h hcalm

/-! ## Marks -/

/-- Settles O17: the step of link time by `State.advance`, and the mark timer's expiry by its row. -/
theorem marksKeepTheBackOnOneTime : Obligations.MarksKeepTheBackOnOneTime := by
  refine ⟨fun source time start s ht hcalm => ?_, fun s hdue => ⟨fun hm hno => ?_, fun h => ?_⟩⟩
  · have hexec : exec (.markTaken source time start) s = .next (State.clockMark time start s) :=
      (State.event_of_calm _ s hcalm).trans (congrArg _ (State.take_takesMarks _ ht))
    rw [hexec]
    refine ⟨fun hle => ?_, fun hlt => ⟨_, Time.plus_toNat s.clock.linkTime (time.toNat - start.toNat), fun ha => ?_, fun T ha hT => ?_⟩⟩
    · simp [State.clockMark, State.stepTo, BitVec.not_lt.mpr hle, State.loadTimer, State.onTimer_eq, Timers.upd, Timer.load,
        Config.markInterval]
    · rw [State.clockMark, State.stepTo, if_pos hlt, State.advance_quiet _ s ha]
      rfl
    · rw [State.clockMark, State.stepTo, if_pos hlt, State.advance_fires _ s T ha hT]
      rfl
  · have hexec : exec .markTimerExpiry s = .next (State.markExpiry { s with clock := s.clockAfter .mark }) :=
      congrArg _ (State.expire_expires hdue)
    have hrun : (s.running && !s.link.controlMsgs.any isMark) = true := by
      rw [Bool.and_eq_true, Bool.not_eq_true', List.any_eq_false]
      exact ⟨by simpa [State.running] using hm, fun m h => by simp [hno m h]⟩
    rw [hexec]
    change Host.Outcome.next (State.doIf (s.running && !s.link.controlMsgs.any isMark) _ _) = _
    rw [hrun]
    rfl
  · have hexec : exec .markTimerExpiry s = .next (State.markExpiry { s with clock := s.clockAfter .mark }) :=
      congrArg _ (State.expire_expires hdue)
    have hrun : (s.running && !s.link.controlMsgs.any isMark) = false := by
      rw [Bool.and_eq_false_iff, Bool.not_eq_false', List.any_eq_true]
      exact h.imp (fun ⟨hc, hr⟩ => by simp [State.running, hc, hr]) id
    rw [hexec]
    change Host.Outcome.next (State.doIf (s.running && !s.link.controlMsgs.any isMark) _ _) = _
    rw [hrun]
    rfl

/-! ## Tap edges -/

/-- What the edge does with the tap counters, the channels and the pulse. -/
theorem Clock.edge_table (c : Clock) : Clock.EdgeTable c c.edge := by
  unfold Clock.edge
  dsimp only
  split
  · constructor <;> simp [Timers.get, Timers.fineEdge] <;> omega
  · split
    · constructor <;> simp [Timers.get, Timers.fineEdge, Timers.milliEdge] <;> omega
    · constructor <;> simp [Timers.get, Timers.fineEdge, Timers.milliEdge, Timers.coarseEdge] <;> omega

/-- A channel at an edge of its tap acts by the table of R44. -/
theorem Timer.edge_atEdge (continuous : Bool) (t : Timer) : t.atEdge continuous (t.edge continuous) :=
  ⟨fun n h => Timer.edge_load _ t n h, fun h => Timer.edge_stop _ t h, fun p n hr hc => Timer.edge_count _ t p n hr hc,
    fun n hr hc => Timer.edge_expires _ t n hr hc, fun hr hc => Timer.edge_idle _ t hr hc⟩

/-- With no start pending a channel that counts reports Running (R43). -/
theorem Timer.reported_counting {t : Timer} {p n : Nat} (hr : t.request = .none ∨ t.request = .stop) (hc : t.count = .counting p n) :
    t.reported = .running := by
  obtain hr | hr := hr <;> simp only [Timer.reported, hr, hc]

/-- With no start pending a channel that does not count reports Idle (R43). -/
theorem Timer.reported_idle {t : Timer} (hr : t.request = .none ∨ t.request = .stop) (hc : t.count = .idle) : t.reported = .idle := by
  obtain hr | hr := hr <;> simp only [Timer.reported, hr, hc]

/-- The microseconds before an edge and the edge's own are counted together. -/
theorem Time.plus_plus_one (t : Time) {k : Nat} (h : 0 < k) : Time.plus (Time.plus t (k - 1)) 1 = Time.plus t k := by
  apply BitVec.eq_of_toNat_eq
  simp only [Time.plus_toNat]
  omega

/-- The channels' edge does not look at link time. -/
theorem Clock.edge_atTime (c : Clock) (t : Time) : ({ c with linkTime := t } : Clock).edge = { c.edge with linkTime := t } := by
  unfold Clock.edge
  dsimp only
  repeat' split
  all_goals rfl

/-- A fine edge with no target at or before it: the edge's table, and link time at the edge. -/
theorem State.edge_clock (s : State) (hf : s.clock.sinceFine < 10)
    (ha : ∀ T, s.clock.alarm = some T → s.clock.linkTime.toNat + (10 - s.clock.sinceFine) < T.toNat) :
    s.edge = { s with clock := { s.clock.edge with linkTime := Time.plus s.clock.linkTime (10 - s.clock.sinceFine) } } := by
  have hlate : ∀ (k : Nat) (T : Time), k ≤ 10 - s.clock.sinceFine → s.clock.alarm = some T → Time.plus s.clock.linkTime k < T := by
    intro k T hk hT
    have := ha T hT
    rw [BitVec.lt_def, Time.plus_toNat]
    omega
  have hsum : Time.plus (Time.plus s.clock.linkTime (10 - s.clock.sinceFine - 1)) 1 = Time.plus s.clock.linkTime (10 - s.clock.sinceFine) :=
    Time.plus_plus_one _ (by omega)
  have hedge : ∀ t : Time, State.onClock Clock.edge { s with clock := { s.clock with linkTime := t } } =
      { s with clock := { s.clock.edge with linkTime := t } } :=
    fun t => congrArg (fun c => { s with clock := c }) (Clock.edge_atTime s.clock t)
  unfold State.edge Clock.untilEdge
  rw [State.advance_quiet _ s fun T hT => hlate _ T (by omega) hT, hedge, State.advance_quiet]
  · dsimp only
    rw [hsum]
  · dsimp only
    rw [(Clock.edge_table s.clock).alarm, hsum]
    exact fun T => hlate _ T le_rfl

/-- Settles O18: the channels and the tap counters by the edge's table, and link time by `State.edge_clock`. -/
theorem tapEdgeDrivesTheChannels : Obligations.TapEdgeDrivesTheChannels := by
  refine ⟨fun t n => ⟨Timer.load_positive t n, Timer.load_zero t, fun l h => by simp [Timer.reported, h],
      fun p l => Timer.reported_counting, Timer.reported_idle, by simp [Timer.running]⟩,
    fun c s hc hp hcalm => exec_afterExpiries hc hp hcalm, fun s hcalm hf ha => ?_⟩
  have htable := Clock.edge_table s.clock
  have hexec : exec .tapEdge s = .next s.edge := State.event_of_calm _ s hcalm
  refine ⟨_, hexec.trans (congrArg _ (State.edge_clock s hf ha)), Time.plus_toNat _ _, htable.sinceFine, htable.alarm, htable.pulse,
    fun id hid => ?_, fun hm => ?_, fun hm => ⟨(htable.milli hm).1, ?_, ?_, ?_, fun hc => ?_, fun hc => ?_⟩⟩
  · rw [htable.fine id hid]
    exact Timer.edge_atEdge _ _
  · exact htable.between hm
  · rw [(htable.milli hm).2.1]
    exact Timer.edge_atEdge _ _
  · rw [(htable.milli hm).2.2.1]
    exact Timer.edge_atEdge _ _
  · rw [(htable.milli hm).2.2.2]
    exact Timer.edge_atEdge _ _
  · exact htable.notCoarse hm hc
  · obtain ⟨hz, hl, hq⟩ := htable.coarse hm hc
    refine ⟨hz, ?_, ?_⟩
    · rw [hl]
      exact Timer.edge_atEdge _ _
    · rw [hq]
      exact Timer.edge_atEdge _ _

end Sys2Proof.Machine
end

section
/-! PROOF. Slot records and roster entries by shot number: what each operation of the ring and the test of R112 leaves of them. -/

namespace Sys2Proof.Machine

/-- A slot record that the test of R112 has left, or made Developing from Raw. -/
structure Slot.MayHaveStarted (x y : Slot) : Prop where
  same : y = { x with tag := y.tag }
  notRaw : x.tag ≠ .raw → y.tag = x.tag
  raw : x.tag = .raw → y.tag = .raw ∨ y.tag = .developing

theorem Slot.MayHaveStarted.refl (x : Slot) : x.MayHaveStarted x := ⟨rfl, fun _ => rfl, fun h => .inl h⟩

/-! ## Searches by shot number -/

/-- A slot record found by a shot number has that number. -/
theorem State.slot?_shot {s : State} {n : Shot} {x : Slot} (h : s.slot? n = some x) : x.shot = n := by
  obtain ⟨o, -, ho⟩ := List.exists_of_findSome?_eq_some h
  exact eq_of_beq (Option.filter_eq_some_iff.mp ho).2

/-- A slot record found by a shot number stands in a slot. -/
theorem State.slot?_mem {s : State} {n : Shot} {x : Slot} (h : s.slot? n = some x) : some x ∈ s.ring.slots := by
  obtain ⟨o, hm, ho⟩ := List.exists_of_findSome?_eq_some h
  rwa [(Option.filter_eq_some_iff.mp ho).1] at hm

/-- No slot record is found by a shot number that stands in no slot. -/
theorem State.slot?_eq_none {s : State} {n : Shot} : s.slot? n = none ↔ ∀ x, some x ∈ s.ring.slots → x.shot ≠ n := by
  unfold State.slot?
  rw [List.findSome?_eq_none_iff]
  constructor
  · intro h x hx hn
    simpa [hn] using h _ hx
  · intro h o ho
    cases o with
    | none => rfl
    | some x => simpa using h x ho

/-- A roster entry found by a shot number has that number. -/
theorem State.entry?_shot {s : State} {n : Shot} {e : Entry} (h : s.entry? n = some e) : e.shot = n := by
  simpa using List.find?_some h

/-- A roster entry found by a shot number stands in the roster. -/
theorem State.entry?_mem {s : State} {n : Shot} {e : Entry} (h : s.entry? n = some e) : e ∈ s.ring.roster :=
  List.mem_of_find?_eq_some h

/-- No entry is found by a shot number that stands in no entry. -/
theorem State.entry?_eq_none {s : State} {n : Shot} : s.entry? n = none ↔ ∀ e ∈ s.ring.roster, e.shot ≠ n := by
  simp [State.entry?]

/-- Slot records are looked up in the ring alone. -/
theorem State.slot?_congr {s t : State} (h : t.ring.slots = s.ring.slots) (n : Shot) : t.slot? n = s.slot? n := by
  rw [State.slot?, State.slot?, h]

/-- Roster entries are looked up in the roster alone. -/
theorem State.entry?_congr {s t : State} (h : t.ring.roster = s.ring.roster) (n : Shot) : t.entry? n = s.entry? n := by
  rw [State.entry?, State.entry?, h]

/-! ## Updates -/

/-- A change of the slot record of a shot that keeps its shot number, as a search by shot number finds it. -/
theorem findSome?_map_shot (n m : Shot) (f : Slot → Slot) (hf : ∀ x, (f x).shot = x.shot) (l : List (Option Slot)) :
    (l.map fun o => o.map fun x => if x.shot = n then f x else x).findSome? (fun o => o.filter (·.shot == m)) =
      (l.findSome? fun o => o.filter (·.shot == m)).map fun x => if m = n then f x else x := by
  induction l with
  | nil => rfl
  | cons o os ih =>
    rw [List.map_cons, List.findSome?_cons, List.findSome?_cons, ih]
    cases o with
    | none => rfl
    | some x =>
      have hshot : (if x.shot = n then f x else x).shot = x.shot := by
        split
        · exact hf x
        · rfl
      by_cases hm : x.shot = m
      · subst hm
        simp [Option.filter, hshot]
      · simp [Option.filter, hshot, hm]

/-- The slot records after one of them has changed. -/
theorem State.updSlot_slot? (n m : Shot) (f : Slot → Slot) (s : State) (hf : ∀ x, (f x).shot = x.shot) :
    (s.updSlot n f).slot? m = (s.slot? m).map fun x => if m = n then f x else x :=
  findSome?_map_shot n m f hf s.ring.slots

@[simp] theorem State.updSlot_entry? (n m : Shot) (f : Slot → Slot) (s : State) : (s.updSlot n f).entry? m = s.entry? m := rfl

@[simp] theorem State.updEntry_slot? (n m : Shot) (f : Entry → Entry) (s : State) : (s.updEntry n f).slot? m = s.slot? m := rfl

/-- Where no slot holds a shot, no record of it changes. -/
theorem State.updSlot_absent (n : Shot) (f : Slot → Slot) (s : State) (h : s.slot? n = none) : s.updSlot n f = s := by
  have hslots : (s.ring.slots.map fun o => o.map fun x => if x.shot = n then f x else x) = s.ring.slots := by
    refine (List.map_congr_left fun o ho => ?_).trans (List.map_id _)
    cases o with
    | none => rfl
    | some x => simp [State.slot?_eq_none.mp h x ho]
  unfold State.updSlot State.onRing Ring.updSlot
  rw [hslots]

/-- A change of a slot record that leaves every record as it is leaves the station as it is. -/
theorem State.updSlot_id (n : Shot) (f : Slot → Slot) (s : State) (h : ∀ x, f x = x) : s.updSlot n f = s := by
  have hslots : (s.ring.slots.map fun o => o.map fun x => if x.shot = n then f x else x) = s.ring.slots := by
    refine (List.map_congr_left fun o _ => ?_).trans (List.map_id _)
    cases o <;> simp [h]
  unfold State.updSlot State.onRing Ring.updSlot
  rw [hslots]

/-- Where the roster has no entry of a shot, none changes. -/
theorem State.updEntry_absent (n : Shot) (f : Entry → Entry) (s : State) (h : s.entry? n = none) : s.updEntry n f = s := by
  have hroster : (s.ring.roster.map fun e => if e.shot = n then f e else e) = s.ring.roster := by
    refine (List.map_congr_left fun e he => ?_).trans (List.map_id _)
    rw [if_neg (State.entry?_eq_none.mp h e he), id]
  unfold State.updEntry State.onRing Ring.updEntry
  rw [hroster]

/-- Two changes of the slot record of a shot. -/
theorem State.updSlot_updSlot (n : Shot) (f g : Slot → Slot) (s : State) (hf : ∀ x, (f x).shot = x.shot) :
    (s.updSlot n f).updSlot n g = s.updSlot n (g ∘ f) := by
  unfold State.updSlot State.onRing Ring.updSlot
  simp only [List.map_map]
  congr 2
  refine List.map_congr_left fun o _ => ?_
  cases o with
  | none => rfl
  | some x => by_cases h : x.shot = n <;> simp [h, hf]

/-- Two changes of the roster entry of a shot. -/
theorem State.updEntry_updEntry (n : Shot) (f g : Entry → Entry) (s : State) (hf : ∀ e, (f e).shot = e.shot) :
    (s.updEntry n f).updEntry n g = s.updEntry n (g ∘ f) := by
  unfold State.updEntry State.onRing Ring.updEntry
  simp only [List.map_map]
  congr 2
  refine List.map_congr_left fun e _ => ?_
  by_cases h : e.shot = n <;> simp [h, hf]

/-- The shot numbers of slots and roster are what the ring's invariant speaks of, with the entries' slot indices. -/
theorem State.updSlot_sameOther (n : Shot) (f : Slot → Slot) (s : State) (hf : ∀ x, (f x).shot = x.shot) :
    sameOtherSlots n s (s.updSlot n f) := by
  intro m hm
  rw [State.updSlot_slot? n m f s hf]
  simp [hm]

/-- In a ring that is in order two slots never hold the same shot. -/
theorem State.ringOk.slot_unique {s : State} (h : s.ringOk) {x y : Slot} (hx : some x ∈ s.ring.slots) (hy : some y ∈ s.ring.slots)
    (hxy : x.shot = y.shot) : x = y := by
  obtain ⟨-, -, hslots, -, hnodup, -, -⟩ := h
  obtain ⟨i, hi⟩ := List.mem_iff_getElem?.mp hx
  obtain ⟨j, hj⟩ := List.mem_iff_getElem?.mp hy
  obtain ⟨e, he, hes, hei⟩ := hslots i x hi
  obtain ⟨f, hf, hfs, hfj⟩ := hslots j y hj
  have hef : e = f := List.inj_on_of_nodup_map hnodup he hf (hes.trans (hxy.trans hfs.symm))
  subst hef
  rw [← hei, hfj, hj] at hi
  exact (Option.some.inj (Option.some.inj hi)).symm

/-- In a ring that is in order a slot record that stands in a slot is the one its shot number finds. -/
theorem State.ringOk.slot? {s : State} (h : s.ringOk) {x : Slot} (hx : some x ∈ s.ring.slots) : s.slot? x.shot = some x := by
  cases hs : s.slot? x.shot with
  | none => exact absurd rfl (State.slot?_eq_none.mp hs x hx)
  | some y => rw [h.slot_unique (State.slot?_mem hs) hx (State.slot?_shot hs)]

/-- In a ring that is in order an entry of the roster is the one its shot number finds. -/
theorem State.ringOk.entry? {s : State} (h : s.ringOk) {e : Entry} (he : e ∈ s.ring.roster) : s.entry? e.shot = some e := by
  obtain ⟨-, -, -, -, hnodup, -, -⟩ := h
  cases hs : s.entry? e.shot with
  | none => exact absurd rfl (State.entry?_eq_none.mp hs e he)
  | some f => rw [List.inj_on_of_nodup_map hnodup (State.entry?_mem hs) he (State.entry?_shot hs)]

/-- In a ring that is in order a shot has a slot exactly where it has an entry. -/
theorem State.ringOk.slot?_isSome {s : State} (h : s.ringOk) (n : Shot) : (s.slot? n).isSome = (s.entry? n).isSome := by
  obtain ⟨-, -, hslots, hroster, -, -, -⟩ := h
  rw [Bool.eq_iff_iff, Option.isSome_iff_ne_none, Option.isSome_iff_ne_none, not_iff_not, State.slot?_eq_none, State.entry?_eq_none]
  constructor
  · intro hn e he
    obtain ⟨x, hx, hxe⟩ := hroster e he
    exact hxe ▸ hn x (List.mem_of_getElem? hx)
  · intro hn x hx
    obtain ⟨i, hi⟩ := List.mem_iff_getElem?.mp hx
    obtain ⟨e, he, hes, -⟩ := hslots i x hi
    exact hes ▸ hn e he

/-! ## The test of R112 -/

/-- The station once the job of a tile has started (R113). -/
def State.startJob (x : Slot) (s : State) : State :=
  (s.updSlot x.shot fun y => { y with tag := .developing }).onDevelop fun d =>
    { d with job := some (newJob x (s.slotIndex x.shot) s.facing) }

/-- The slot records once the job of a tile has started. -/
theorem State.startJob_slot? (x : Slot) (n : Shot) (s : State) :
    (s.startJob x).slot? n = (s.slot? n).map fun y => if n = x.shot then { y with tag := .developing } else y :=
  State.updSlot_slot? x.shot n (fun y => { y with tag := .developing }) s fun _ => rfl

/-- The test of R112 starts the job of a tile, or leaves the station as it is. -/
theorem State.tryStartJob_cases (s : State) :
    s.tryStartJob = s ∨ ∃ x, s.slot? x.shot = some x ∧ x.mayDevelop = true ∧ s.develop.job = none ∧
      s.member.state = .ready ∧ lowestShot s.rawShots = some x.shot ∧
      s.tryStartJob = s.startJob x := by
  unfold State.tryStartJob
  split
  next h =>
    split
    · exact .inl rfl
    next x hx =>
      split
      next hmay =>
        obtain ⟨n, hn, hslot⟩ := Option.bind_eq_some_iff.mp hx
        obtain ⟨hjob, hready⟩ := Bool.and_eq_true_iff.mp h
        have hshot := State.slot?_shot hslot
        subst hshot
        exact .inr ⟨x, hslot, hmay, by simpa using hjob, by simpa using hready, hn, rfl⟩
      · exact .inl rfl
  · exact .inl rfl

/-- A tile that the test of R112 finds lowest is Raw. -/
theorem State.ringOk.lowest_raw {s : State} (h : s.ringOk) {x : Slot} (hx : s.slot? x.shot = some x)
    (hl : lowestShot s.rawShots = some x.shot) : x.tag = .raw := by
  obtain ⟨hmem, -⟩ := lowestShot_least _ _ hl
  obtain ⟨y, hy, hyx⟩ := List.mem_map.mp hmem
  obtain ⟨hym, hyraw⟩ := List.mem_filter.mp hy
  obtain ⟨o, ho, hoy⟩ := List.mem_filterMap.mp hym
  rw [id] at hoy
  subst hoy
  have hxy : y = x := h.slot_unique ho (State.slot?_mem hx) hyx
  rw [← hxy]
  exact eq_of_beq hyraw

/-- The test of R112 touches the tag of a Raw tile alone, and the current job. -/
theorem State.tryStartJob_eq (s : State) :
    s.tryStartJob = { s with ring := { s.ring with slots := s.tryStartJob.ring.slots }, develop := s.tryStartJob.develop } := by
  obtain h | ⟨x, -, -, -, -, -, h⟩ := s.tryStartJob_cases
  · rw [h]
  · rw [h]
    rfl

@[simp] theorem State.tryStartJob_roster (s : State) : s.tryStartJob.ring.roster = s.ring.roster := by
  rw [State.tryStartJob_eq]

@[simp] theorem State.tryStartJob_entry? (n : Shot) (s : State) : s.tryStartJob.entry? n = s.entry? n :=
  State.entry?_congr s.tryStartJob_roster n

/-- A slot record after the test of R112. -/
theorem State.ringOk.tryStartJob_slot? {s : State} (h : s.ringOk) {n : Shot} {x : Slot} (hx : s.slot? n = some x) :
    ∃ y, s.tryStartJob.slot? n = some y ∧ x.MayHaveStarted y := by
  obtain he | ⟨x', hx', -, -, -, hlow, he⟩ := s.tryStartJob_cases
  · exact ⟨x, by rw [he, hx], .refl x⟩
  · have hraw := h.lowest_raw hx' hlow
    rw [he, State.startJob_slot?, hx]
    by_cases hn : n = x'.shot
    · subst hn
      cases Option.some.inj (hx.symm.trans hx')
      exact ⟨_, rfl, by simp, fun h => absurd hraw h, fun _ => .inr (by simp)⟩
    · exact ⟨x, by simp [hn], .refl x⟩

/-- The test of R112 frees no slot and fills none. -/
theorem State.tryStartJob_slot?_none {s : State} {n : Shot} (hx : s.slot? n = none) : s.tryStartJob.slot? n = none := by
  obtain he | ⟨x', -, -, -, -, -, he⟩ := s.tryStartJob_cases
  · rwa [he]
  · rw [he, State.startJob_slot?, hx]
    rfl

end Sys2Proof.Machine
end

section
/-! PROOF. The Sync Input's samples, the edges that are observations, the quiet set, and a Close of a shot that is not exposed
(R50, R56, R62, R69, R70). -/

namespace Sys2Proof.Machine

/-- A sample of the level about to be accepted, at a station that nothing is due at. -/
structure State.Accepting (level : Level) (c : Candidate) (s : State) : Prop where
  maturing : s.maturingAwake level c
  calm : s.calm

/-! ## Samples -/

/-- The station once it has accepted a level, before the edge is delivered (R50, R185). -/
def State.atEdge (level : Level) (s : State) : State :=
  { s with sync := s.sync.accept level, power := s.powerAtEdge }

theorem Level.ne_other (l : Level) : l ≠ Level.other l := by cases l <;> decide

theorem Level.eq_other {a b : Level} (h : a ≠ b) : a = Level.other b := by
  revert h
  cases a <;> cases b <;> simp [Level.other]

theorem SyncPolarity.openLevel_ne (p : SyncPolarity) : p.openLevel ≠ p.closedLevel := by cases p <;> decide

/-- An awake station that is wired for sync gives the sample to its Sync Input. -/
theorem State.sample_awake (level : Level) (s : State) (hf : s.member.straps.fitted.sync = true) (hp : s.power.state ≠ .sleep) :
    s.sample level = s.sampleAwake level := by
  simp [State.sample, hf, hp]

/-- The return from Doze that an edge makes (R185). -/
theorem State.edgeWakes_leaveDoze (level : Level) (s : State) :
    State.doIf s.edgeWakes State.leaveDoze { s with sync := s.sync.accept level } = s.atEdge level := by
  unfold State.atEdge State.powerAtEdge
  cases h : s.edgeWakes with
  | true =>
    obtain ⟨hd, hw⟩ : s.power.state = .doze ∧ s.settings.wakeOnSync = true := by simpa [State.edgeWakes] using h
    rw [if_pos ⟨hd, hw⟩]
    simp [State.leaveDoze, hd, State.onPower]
  | false =>
    have hn : ¬(s.power.state = .doze ∧ s.settings.wakeOnSync = true) := by simpa [State.edgeWakes] using h
    rw [if_neg hn]
    rfl

/-- The sample that accepts a level delivers its edge. -/
theorem State.Accepting.sample {level : Level} {c : Candidate} {s : State} (h : s.Accepting level c) :
    s.sample level = State.deliverEdge level c.since { s with sync := s.sync.accept level } := by
  obtain ⟨hp, hf, ha, hc, hm⟩ := h.maturing
  rw [State.sample_awake level s hf hp]
  simp [State.sampleAwake, ha, hc, Level.ne_other, Candidate.mature, hm, State.onSync, SyncInput.accept]

/-- The station's own edge command makes the sample that accepts its level. -/
theorem State.Accepting.acceptLevel {level : Level} {c : Candidate} {s : State} (h : s.Accepting level c) :
    s.acceptLevel level = s.sample level := by
  obtain ⟨hp, hf, ha, hc, hm⟩ := h.maturing
  have hacc : s.accepts level = true := by
    simp [State.accepts, ha, hc, hp, Candidate.mature, hm, (Level.ne_other level).symm]
  rw [State.acceptLevel, hacc, State.doIf_true]

/-- A closing edge, as an accepted change to the closed level. -/
theorem exec_syncClosingEdge {c : Candidate} {s : State} (h : s.Accepting s.settings.syncPolarity.closedLevel c) :
    exec .syncClosingEdge s =
      .next ((s.atEdge s.settings.syncPolarity.closedLevel).closingEdge (!s.edgeWakes) c.since) := by
  have hexec : exec .syncClosingEdge s = .next (s.acceptLevel s.settings.syncPolarity.closedLevel) :=
    State.event_of_calm (fun t => t.acceptLevel t.settings.syncPolarity.closedLevel) s h.calm
  rw [hexec, h.acceptLevel, h.sample]
  refine congrArg _ ((if_pos rfl).trans ?_)
  exact congrArg (State.closingEdge (!s.edgeWakes) c.since) (s.edgeWakes_leaveDoze _)

/-- An opening edge, as an accepted change to the open level. -/
theorem exec_syncOpeningEdge {c : Candidate} {s : State} (h : s.Accepting s.settings.syncPolarity.openLevel c) :
    exec .syncOpeningEdge s = .next ((s.atEdge s.settings.syncPolarity.openLevel).openingEdge c.since) := by
  have hexec : exec .syncOpeningEdge s = .next (s.acceptLevel s.settings.syncPolarity.openLevel) :=
    State.event_of_calm (fun t => t.acceptLevel t.settings.syncPolarity.openLevel) s h.calm
  rw [hexec, h.acceptLevel, h.sample]
  refine congrArg _ ((if_neg (SyncPolarity.openLevel_ne _)).trans ?_)
  exact congrArg (State.openingEdge c.since) (s.edgeWakes_leaveDoze _)

/-- Settles O20: the cases of the Sync Input's sample, and the edge commands as the samples that accept. -/
theorem syncSamplesAreDebounced : Obligations.SyncSamplesAreDebounced := by
  intro level s hcalm
  have hexec : exec (.syncSample level) s = .next (s.sample level) := State.event_of_calm _ s hcalm
  rw [hexec]
  refine ⟨fun hf => by simp [State.sample, hf], fun hf hp => ?_⟩
  refine ⟨fun ha => ?_, fun ha hc => ?_, fun c ha hc => ?_, fun ha hc => ?_, fun c ha hc hm => ?_, fun c ha hc hm => ?_⟩
  case refine_6 =>
    have hacc : s.Accepting level c := ⟨⟨hp, hf, ha, hc, hm⟩, hcalm⟩
    split
    next hl =>
      subst hl
      have hedge : exec .syncClosingEdge s = .next (s.acceptLevel s.settings.syncPolarity.closedLevel) :=
        State.event_of_calm (fun t => t.acceptLevel t.settings.syncPolarity.closedLevel) s hcalm
      rw [hedge, hacc.acceptLevel]
    next hl =>
      have hopen : level = s.settings.syncPolarity.openLevel :=
        (Level.eq_other hl).trans (Level.eq_other (SyncPolarity.openLevel_ne _)).symm
      subst hopen
      have hedge : exec .syncOpeningEdge s = .next (s.acceptLevel s.settings.syncPolarity.openLevel) :=
        State.event_of_calm (fun t => t.acceptLevel t.settings.syncPolarity.openLevel) s hcalm
      rw [hedge, hacc.acceptLevel]
  all_goals rw [State.sample_awake level s hf hp]
  · simp [State.sampleAwake, ha, State.onSync, SyncInput.accept]
  · simp [State.sampleAwake, ha, hc]
  · simp [State.sampleAwake, ha, hc, State.onSync, Config.bounceLimit]
  · simp [State.sampleAwake, ha, hc, Level.ne_other, State.onSync, State.newCandidate]
  · simp [State.sampleAwake, ha, hc, Level.ne_other, Candidate.mature, Nat.not_le.mpr hm, State.onSync]

/-! ## Edges that are observations -/

/-- An observation gives the exposure in hand of the shot its own edge time (R56). -/
theorem State.observe_takes {n : Shot} {t : Time} {s : State} {x : Exposure} {y : Slot} (hx : s.capture.exposure = some x)
    (hn : x.shot = n) (he : x.ownEdge = none) (hy : s.slot? n = some y) (ho : y.outcome = none) :
    s.observe n t = { s with capture := { s.capture with exposure := some { x with ownEdge := some t } } } := by
  simp [State.observe, hx, hn, he, hy, ho, State.onCapture]

/-- An observation of another shot, or one that already has its own edge time, changes nothing. -/
theorem State.observe_disregards {n : Shot} {t : Time} {s : State}
    (h : s.capture.exposure = none ∨ ∃ x, s.capture.exposure = some x ∧ (x.shot ≠ n ∨ x.ownEdge ≠ none)) : s.observe n t = s := by
  obtain h | ⟨x, hx, h | h⟩ := h <;> simp_all [State.observe]

/-- Settles O21: the rows of the closing edge that trigger nothing, and the opening edge with no integration in hand. -/
theorem closingEdgeIsAnObservation : Obligations.ClosingEdgeIsAnObservation := by
  refine ⟨fun c s hm hcalm h => ?_, fun c s hm hcalm => ?_⟩
  · rw [exec_syncOpeningEdge ⟨hm, hcalm⟩]
    refine congrArg _ ?_
    unfold State.openingEdge
    split
    · rfl
    next x hx =>
      refine if_neg fun hb => ?_
      obtain ⟨he, hf⟩ := Bool.and_eq_true_iff.mp hb
      obtain h | h | h := h
      · exact Option.some_ne_none x (hx.symm.trans h)
      · exact h (eq_of_beq he)
      · exact h (eq_of_beq hf)
  · rw [exec_syncClosingEdge ⟨hm, hcalm⟩]
    set u := s.atEdge s.settings.syncPolarity.closedLevel with hu
    have htimer : u.timer .attribution = s.timer .attribution := rfl
    have hcapture : u.capture = s.capture := rfl
    refine ⟨fun hd hw hr he => ?_, fun x y hx hedge hy ho hcase => ?_, fun hr hx => ?_, fun hr hstate => ?_⟩
    · have hwakes : s.edgeWakes = true := by simp [State.edgeWakes, hd, hw]
      have hquiet : u.closingEdge (!s.edgeWakes) c.since = u := by
        simp only [State.closingEdge, htimer, hr, hcapture, hwakes]
        cases hcs : s.capture.state <;> simp_all
      rw [hquiet, hu, State.atEdge, State.powerAtEdge, if_pos ⟨hd, hw⟩]
    · have hobs := State.observe_takes (s := u) (t := c.since) hx rfl hedge hy ho
      obtain ⟨hr, hn⟩ | ⟨hr, he⟩ := hcase
      · rw [State.closingEdge, htimer, if_pos hr, hcapture, ← hn, hobs]
        rfl
      · simp only [State.closingEdge, htimer, hr, hcapture, he, hx, Option.map_some, Option.getD_some, hobs]
        rfl
    · rw [State.closingEdge, htimer, if_pos hr, hcapture, State.observe_disregards (s := u) hx]
      rfl
    · have hquiet : u.closingEdge (!s.edgeWakes) c.since = u := by
        simp only [State.closingEdge, htimer, hr, hcapture]
        obtain h | h := hstate <;> simp [h]
      rw [hquiet]
      rfl

/-! ## The quiet set -/

/-- The removal of a source from the quiet set (R69). -/
theorem State.removeQuiet_eq (source : Node) (s : State) :
    s.removeQuiet source = { s with
      capture := { s.capture with quiet := s.capture.quiet.filter (· ≠ source) }
      clock := if s.capture.quiet.filter (· ≠ source) = [] then { s.clock with timers := { s.clock.timers with
        quiet := { s.clock.timers.quiet with request := .stop } } } else s.clock } := by
  have hfilter : s.capture.quiet.filter (· != source) = s.capture.quiet.filter (· ≠ source) := by
    congr 1
    ext x
    by_cases h : x = source <;> simp [h]
  have hempty : s.capture.quiet.all (· == source) = decide (s.capture.quiet.filter (· ≠ source) = []) := by
    rw [Bool.eq_iff_iff, decide_eq_true_iff, List.filter_eq_nil_iff, List.all_eq_true]
    simp
  unfold State.removeQuiet State.onCapture
  rw [hempty]
  dsimp only
  rw [hfilter]
  by_cases h : s.capture.quiet.filter (· ≠ source) = []
  · rw [decide_eq_true h, if_pos h]
    rfl
  · rw [decide_eq_false h, if_neg h]
    rfl

/-- The quiet timer's expiry, where it is due, empties the quiet set. -/
theorem State.expire_quiet {s : State} (h : s.expires .quiet) :
    s.expire .quiet = { s with
      clock := s.clockAfter .quiet
      capture := { s.capture with quiet := [] }
      notices := s.notices.raise (.quietTimeout s.capture.current s.capture.quiet) } :=
  State.expire_expires h

/-- Where the quiet timer's expiry alone is due, nothing is due once it has been delivered. -/
theorem State.expire_quiet_calm {s : State} (h : s.expiresAlone .quiet) (id : TimerId) : ((s.expire .quiet).timer id).due = false := by
  rw [State.expire_quiet h.1]
  by_cases hid : id = .quiet
  · subst hid
    rfl
  · have hother : (s.timer id).due = false := h.2 id (TimerId.mem_all id) hid
    change ((s.clock.timers.upd Timer.delivered .quiet).get id).due = false
    rwa [Timers.get_upd_ne _ _ _ _ (Ne.symm hid)]

/-- Where the quiet timer's expiry alone is due, it is what comes before an event (R44). -/
theorem State.afterExpiries_quiet {s : State} (hp : s.power.state ≠ .sleep) (h : s.expiresAlone .quiet) :
    s.afterExpiries = s.expire .quiet := by
  have hnot : ∀ id, id ≠ .quiet → s.expire id = s := fun id hid => State.expire_not_due id s (h.2 id (TimerId.mem_all id) hid)
  rw [State.afterExpiries_eq s hp, State.expiriesFirst, if_neg hp]
  simp only [TimerId.all, List.foldl_cons, List.foldl_nil, hnot .roll (by decide), hnot .mark (by decide),
    hnot .attribution (by decide), hnot .pulse (by decide), hnot .exposureLimit (by decide), hnot .dark (by decide)]
  exact State.expire_not_due _ _ (State.expire_quiet_calm h .seam)

/-- An event that finds the quiet timer's expiry due finds the quiet set emptied (R44). -/
theorem exec_quietExpiry {c : Instr} {s u : State} (hc : startOrExpiry c = false) (hp : s.power.state ≠ .sleep)
    (h : s.expiresAlone .quiet) (hu : exec .quietTimerExpiry s = .next u) : exec c s = exec c u := by
  have hu' : s.expire .quiet = u := Host.Outcome.next.inj hu
  have hafter := State.afterExpiries_quiet hp h
  rw [exec_afterExpiries hc hp (.inr fun id _ => hafter ▸ State.expire_quiet_calm h id), hafter, hu']

/-- Settles O29: the removal of a source, the timeout, and the timeout ahead of what follows it. -/
theorem quietSetIsEmptied : Obligations.QuietSetIsEmptied := by
  refine ⟨fun source n kind follows s hf hcalm => ?_, fun s => ⟨fun hd => ?_, fun hd => ?_⟩, fun s u h hu => ?_⟩
  · have hexec : exec (.readDoneTaken source n kind follows) s = .next (State.captureReadDone source n kind follows s) :=
      (State.event_of_calm _ s hcalm).trans (congrArg _ (State.take_inForce _ _ hf))
    rw [hexec]
    refine ⟨fun h => congrArg _ (if_neg ?_), fun hn hk hs hm => ?_⟩
    · rintro ⟨hn, hk, hs, -⟩
      obtain h | ⟨hr, ht⟩ | h := h
      · exact h hn
      · subst hr ht
        simp at hk
      · exact h hs
    · rw [State.captureReadDone, if_pos ⟨hn, hk, hs, hm⟩, State.removeQuiet_eq]
  · exact congrArg _ (State.expire_not_due _ s hd)
  · exact congrArg _ (State.expire_quiet hd)
  · exact ⟨fun _ _ _ _ hf => exec_quietExpiry rfl hf.1 h hu, fun _ _ _ _ hf => exec_quietExpiry rfl hf.1 h hu,
      fun _ _ _ hf _ _ => exec_quietExpiry rfl hf.1 h hu,
      fun _ hm _ _ _ _ => exec_quietExpiry rfl (by simp [hm.1]) h hu⟩

/-! ## A Close of a shot that is not exposed -/

/-- The agreed close of an entry, where it is the first, with the agreed duration (R62). -/
theorem Entry.closeAt_eq (t : Time) (e : Entry) : e.closeAt t = match e.agreedClose, e.agreedOpen with
    | some _, _ => e
    | none, none => { e with agreedClose := some t }
    | none, some o => { e with agreedClose := some t, agreedDuration := some ((t.toNat : Int) - o.toNat) } := by
  unfold Entry.closeAt
  cases hc : e.agreedClose with
  | some c => rfl
  | none => cases ho : e.agreedOpen <;> simp [Entry.settleDuration, ho]

@[simp] theorem Entry.closeAt_shot (t : Time) (e : Entry) : (e.closeAt t).shot = e.shot := by
  rw [Entry.closeAt_eq]
  split <;> rfl

/-- Settles O27: the entry takes the Close, and the slot record the limit flag of the first. -/
theorem closeGivesTheAgreedClose : Obligations.CloseGivesTheAgreedClose := by
  intro source n time limit s hf hcalm hnot
  have hexposes : s.exposes n = false := by
    rw [State.exposes, Bool.and_eq_false_iff]
    refine hnot.imp (fun h => by simpa using h) fun h => ?_
    cases hx : s.capture.exposure with
    | none => rfl
    | some x => simpa using h x hx
  have hexec : exec (.closeTaken source n time limit) s = .next (State.captureClose n time limit s) :=
    (State.event_of_calm _ s hcalm).trans (congrArg _ (State.take_inForce _ _ hf))
  rw [hexec]
  refine ⟨fun h => ?_, fun e he hmode => ?_⟩
  · obtain hp | hn := h
    · simp [State.captureClose, hp]
    · have hkeep : s.updEntry n (Entry.closeAt time) = s := State.updEntry_absent _ _ _ hn
      simp [State.captureClose, hkeep, hn, hexposes]
  · have hclose : State.captureClose n time limit s =
        (s.updEntry n (Entry.closeAt time)).updSlot n fun x => { x with limit := x.limit || (limit && e.agreedClose.isNone) } := by
      have hfirst : (s.entry? n).any (·.agreedClose.isNone) = e.agreedClose.isNone := by rw [he, Option.any_some]
      have hkeeps : (s.updEntry n (Entry.closeAt time)).exposes n = false := hexposes
      rw [State.captureClose, if_pos (by simp [hmode])]
      dsimp only
      rw [hexposes, State.doIf_false, hfirst, Bool.and_comm]
      cases h : limit && e.agreedClose.isNone with
      | false => exact (State.updSlot_id _ _ _ fun x => by simp).symm
      | true => simp [State.markLimit, hkeeps]
    refine ⟨_, congrArg _ hclose, rfl, rfl, ?_, ?_, ?_, ?_⟩
    · exact State.updSlot_sameOther _ _ _ fun _ => rfl
    · exact State.updEntry_sameOther n _ s (Entry.closeAt_shot time)
    · refine (State.updSlot_slot? n n _ (s.updEntry n (Entry.closeAt time)) fun _ => by rfl).trans ?_
      simp
    · refine (State.updEntry_entry? n n _ s (Entry.closeAt_shot time)).trans ?_
      rw [he, Option.map_some, if_pos rfl]
      exact congrArg some (Entry.closeAt_eq time e)

end Sys2Proof.Machine
end

section
/-! PROOF. Triggers: the steps that every trigger makes, the refusals, and the admission of a shot (R56-R60, R78-R81, R145). -/

namespace Sys2Proof.Machine

/-- A station at which the shot of a trigger is admitted once the trigger has begun (R59, R78). -/
structure State.Admits (n : Shot) (s : State) : Prop where
  armed : s.capture.state = .armed
  notLast : n ≠ lastShot
  free : s.ring.slots.getD ((s.ring.top + 1) % 8) none = none
  limit : 0 < s.settings.exposureLimit
  shutter : 0 < s.capture.shutter

/-! ## The reservation at an admission -/

/-- The reservation that a card station makes at the admission of a shot (R145). -/
def State.reservedFor (n : Shot) (s : State) : State :=
  if s.placesAtAdmission then s.tryReserve (s.entryAdmitted n) else s

/-- A reservation looks at membership, link, card and notices alone, and changes the last three. -/
theorem State.tryReserve_agree (e : Entry) {s u : State} (hm : s.member = u.member) (hl : s.link = u.link) (hc : s.card = u.card)
    (hn : s.notices = u.notices) :
    s.tryReserve e = { s with
      link := (u.tryReserve e).link, card := (u.tryReserve e).card, notices := (u.tryReserve e).notices } := by
  rcases s with ⟨m, l, clock, sync, capture, ring, dark, develop, transfer, card, notices, power, pending⟩
  rcases u with ⟨m', l', clock', sync', capture', ring', dark', develop', transfer', card', notices', power', pending'⟩
  dsimp only at hm hl hc hn
  subst hm hl hc hn
  unfold State.tryReserve
  dsimp only
  cases card.letter with
  | none => rfl
  | some k =>
    dsimp only
    cases card.placed? e.shot with
    | some p => rfl
    | none =>
      have hres : State.reservation ⟨m, l, clock', sync', capture', ring', dark', develop', transfer', card, notices, power', pending'⟩ e =
          State.reservation ⟨m, l, clock, sync, capture, ring, dark, develop, transfer, card, notices, power, pending⟩ e := rfl
      rw [hres]
      cases State.reservation ⟨m, l, clock, sync, capture, ring, dark, develop, transfer, card, notices, power, pending⟩ e with
      | ok r => rfl
      | error reason =>
        dsimp only
        cases reason == .full || reason == .indexFull <;> rfl

/-- The placement at an admission looks at membership, link, card, notices and TOP alone. -/
theorem State.reservedFor_agree (n : Shot) {s u : State} (hm : s.member = u.member) (hl : s.link = u.link) (hc : s.card = u.card)
    (hn : s.notices = u.notices) (ht : s.ring.top = u.ring.top) :
    s.reservedFor n = { s with
      link := (u.reservedFor n).link, card := (u.reservedFor n).card, notices := (u.reservedFor n).notices } := by
  have hplaces : s.placesAtAdmission ↔ u.placesAtAdmission := by simp only [State.placesAtAdmission, State.settings, hm, hc]
  have hentry : s.entryAdmitted n = u.entryAdmitted n := by
    simp only [State.entryAdmitted, State.socketStation, State.cardMembers, State.memberNumbers, hm, ht]
  unfold State.reservedFor
  by_cases h : u.placesAtAdmission
  · rw [if_pos h, if_pos (hplaces.mpr h), hentry]
    exact State.tryReserve_agree _ hm hl hc hn
  · rw [if_neg h, if_neg (hplaces.not.mpr h), ← hl, ← hc, ← hn]

/-- The placement of R145 is decided by the socket's letter and the storage mode. -/
theorem State.placeAtAdmission_eq (e : Entry) (s : State) :
    s.placeAtAdmission e = if s.placesAtAdmission then s.tryReserve e else s := by
  unfold State.placeAtAdmission State.placesAtAdmission
  rcases s.card.letter with _ | _ | _ <;> cases hmode : s.settings.storageMode <;> simp

/-! ## Admission -/

/-- The station after the admission of a shot, from the state that the trigger's first steps leave (R59, R79). -/
def State.admitted (n : Shot) (edge : Option Time) (start : Time) (s : State) : State :=
  { s with
    capture := { s.capture with
      state := .exposing
      exposure := some { shot := n, ownEdge := edge, ownStart := start, shutter := s.capture.shutter, limit := false } }
    ring := { s.ring with
      top := (s.ring.top + 1) % 8
      slots := s.ring.slots.set ((s.ring.top + 1) % 8) (some (slotAdmitted n start))
      roster := s.ring.roster ++ [s.entryAdmitted n] }
    clock := { s.clock with timers := { s.clock.timers with
      exposureLimit := { s.clock.timers.exposureLimit with request := .load (s.settings.exposureLimit * 10) }
      pulse := if s.settings.syncMode = .pulse then
        { s.clock.timers.pulse with request := .load ((s.capture.shutter + 9) / 10) } else s.clock.timers.pulse } }
    card := (s.reservedFor n).card, notices := (s.reservedFor n).notices
    link := match edge with
      | none => (s.reservedFor n).link
      | some c => s.member.place { dst := 15#4, msg := .openShot n c } (s.reservedFor n).link }

/-- The slot record and the roster entry of a shot, and its placement (R79, R145). -/
theorem State.admitShot_eq (n : Shot) (start : Time) (s : State) :
    s.admitShot n start = { s with
      ring := { s.ring with
        top := (s.ring.top + 1) % 8
        slots := s.ring.slots.set ((s.ring.top + 1) % 8) (some (slotAdmitted n start))
        roster := s.ring.roster ++ [s.entryAdmitted n] }
      card := (s.reservedFor n).card, notices := (s.reservedFor n).notices, link := (s.reservedFor n).link } := by
  set u := s.onRing (Ring.admitShot n start (s.newEntry n)) with hu
  have hplaces : u.placesAtAdmission ↔ s.placesAtAdmission := Iff.rfl
  have hreserve := State.tryReserve_agree (s := u) (u := s) (s.newEntry n) rfl rfl rfl rfl
  rw [State.admitShot, ← hu, State.placeAtAdmission_eq, State.reservedFor]
  by_cases h : s.placesAtAdmission
  · rw [if_pos (hplaces.mpr h), if_pos h, hreserve]
    rfl
  · rw [if_neg (hplaces.not.mpr h), if_neg h]
    rfl

/-- What an admission makes of the station. -/
theorem State.admitTrigger_eq (n : Shot) (edge : Option Time) (start : Time) (s : State) (hl : 0 < s.settings.exposureLimit)
    (hs : 0 < s.capture.shutter) : s.admitTrigger n edge start = s.admitted n edge start := by
  have hlimit : s.member.settings.exposureLimit * 10 ≠ 0 := Nat.mul_ne_zero (Nat.pos_iff_ne_zero.mp hl) (by decide)
  have hpulse : (s.capture.shutter + 9) / 10 ≠ 0 := by omega
  unfold State.admitTrigger State.admitted
  rw [State.admitShot_eq]
  by_cases hp : s.settings.syncMode = .pulse
  · have hbeq : (s.member.settings.syncMode == .pulse) = true := beq_iff_eq.mpr hp
    rw [if_pos hp]
    cases edge <;> simp only [State.onCapture, State.loadTimer, State.onTimer_eq, Timers.upd, Timer.load, State.settings, hlimit, hpulse,
      hbeq, State.doIf_true, if_false, State.broadcast, State.queue, State.onLink, newExposure]
  · have hbeq : (s.member.settings.syncMode == .pulse) = false := beq_eq_false_iff_ne.mpr hp
    rw [if_neg hp]
    cases edge <;> simp only [State.onCapture, State.loadTimer, State.onTimer_eq, Timers.upd, Timer.load, State.settings, hlimit,
      hbeq, State.doIf_false, if_false, State.broadcast, State.queue, State.onLink, newExposure]

/-- Where nothing refuses it, the shot is admitted. -/
theorem State.Admits.decideAdmission {n : Shot} {s : State} (h : s.Admits n) (edge : Option Time) (start : Time) :
    s.decideAdmission n edge start = s.admitted n edge start := by
  have hnone : s.admissionRefusal n = none := by
    simp only [State.admissionRefusal, if_neg h.notLast, h.armed, Ring.refusal, Ring.after, h.free]
  rw [State.decideAdmission, hnone]
  exact State.admitTrigger_eq n edge start s h.limit h.shutter

/-- A trigger that the table of R59 turns away goes out as a Refuse. -/
theorem State.decideAdmission_refuses {n : Shot} {reason : RefuseReason} {policy : Policy} {s : State} (edge : Option Time)
    (start : Time) (h : s.refuses s.capture.state n reason policy) :
    s.decideAdmission n edge start = s.broadcast (.refuse n reason policy) := by
  have hrefusal : s.admissionRefusal n = some reason ∧ s.settings.policy reason = policy := by
    obtain ⟨hn, hr, hp⟩ | ⟨hn, h⟩ := h
    · exact ⟨by rw [State.admissionRefusal, if_pos hn, hr], by rw [hr, hp]; rfl⟩
    · rw [State.admissionRefusal, if_neg hn]
      obtain ⟨hst, hr, hp⟩ | ⟨hst, hr, hp⟩ | ⟨hst, hslot, hfree, hr, hp⟩ | ⟨hst, hslot, hfull, hr, hp⟩ := h
      · obtain hst | hst := hst <;> simp [hst, hr, hp, Settings.policy]
      · obtain hst | hst := hst <;> simp [hst, hr, hp, Settings.policy]
      · obtain ⟨x, hx⟩ := Option.isSome_iff_exists.mp hslot
        have hany : s.ring.slots.any Option.isNone = true := by simpa using hfree
        have href : s.ring.refusal = some .blocked := by rw [Ring.refusal, Ring.after, hx]; exact if_pos hany
        simp [hst, href, hr, hp, Settings.policy]
      · obtain ⟨x, hx⟩ := Option.isSome_iff_exists.mp hslot
        have hany : ¬s.ring.slots.any Option.isNone = true := by
          rw [List.any_eq_true]
          exact fun ⟨o, ho, hn⟩ => hfull o ho (Option.isNone_iff_eq_none.mp hn)
        have href : s.ring.refusal = some .ringFull := by rw [Ring.refusal, Ring.after, hx]; exact if_neg hany
        simp [hst, href, hr, hp, Settings.policy]
  rw [State.decideAdmission, hrefusal.1]
  exact congrArg (fun p => s.broadcast (.refuse n reason p)) hrefusal.2

/-! ## The first steps of a trigger -/

/-- Where no outcome waits for the end of the window, none is recorded. -/
theorem State.recordOutcome_none {n : Shot} {s : State}
    (h : ∀ x, s.slot? n = some x → x.outcome ≠ none ∨ (s.entry? n).bind (·.agreedOpen) = none) : s.recordOutcome n = s := by
  unfold State.recordOutcome
  split
  next x a hx ha =>
    have hout : x.outcome.isNone = false := by
      obtain ho | ho := h x hx
      · exact Option.isNone_eq_false_iff.mpr (Option.isSome_iff_ne_none.mpr ho)
      · exact absurd (ha.symm.trans ho) (by simp)
    rw [hout, Bool.false_and, if_neg (by decide)]
  · rfl

/-- An outcome is not recorded inside the window of its shot. -/
theorem State.recordOutcome_inside {n : Shot} {s : State} (hn : n = s.capture.current) (hw : s.capture.windowEnded = false) :
    s.recordOutcome n = s := by
  unfold State.recordOutcome
  split
  · rw [State.windowOver, hw, hn]
    simp
  · rfl

/-- The station once a trigger has made its first steps at a station in no dark capture where no outcome is recorded (R58). -/
def State.begun (n : Shot) (s : State) : State :=
  { s with
    capture := { s.capture with current := n, quiet := s.memberNumbers, windowEnded := false }
    ring := { s.ring with next := if n = lastShot then lastShot else n + 1#32 }
    clock := { s.clock with timers := s.timersAtTrigger }
    link := s.linkAtTrigger }

/-- The quiet set is filled, and the bulk frame on the link withdrawn (R58). -/
theorem State.fillQuiet_eq (s : State) : s.fillQuiet = { s with
    capture := { s.capture with quiet := s.memberNumbers }
    clock := { s.clock with timers := { s.clock.timers with
      quiet := { s.clock.timers.quiet with request := .load ((2 * s.settings.exposureLimit + 4) * 10) } } }
    link := s.linkAtTrigger } := by
  have hload : (2 * s.settings.exposureLimit + 4) * 10 ≠ 0 := by omega
  unfold State.fillQuiet State.linkAtTrigger
  cases hm : s.memberNumbers with
  | nil => simp [State.onCapture, State.loadTimer, State.onTimer_eq, Timers.upd, Timer.load, hload]
  | cons m ms => simp [State.onCapture, State.loadTimer, State.onTimer_eq, Timers.upd, Timer.load, hload, State.onLink]

/-- A station in no dark capture has none to give way. -/
theorem State.giveWay_none {s : State} (h1 : s.capture.state ≠ .darkExposing) (h2 : s.capture.state ≠ .darkReading) : s.giveWay = s := by
  simp [State.giveWay, h1, h2]

/-- The first steps of a trigger in no dark capture. -/
theorem State.beginTrigger_begun {n : Shot} {s : State} (h1 : s.capture.state ≠ .darkExposing) (h2 : s.capture.state ≠ .darkReading)
    (hno : s.noOutcomeDue) : s.beginTrigger n = s.begun n := by
  unfold State.beginTrigger
  rw [State.giveWay_none h1 h2]
  dsimp only
  have hnext : nextShot n = if n = lastShot then lastShot else n + 1#32 := by
    unfold nextShot
    split
    · assumption
    · rfl
  rw [State.recordOutcome_none (by exact hno), State.fillQuiet_eq]
  simp [State.begun, State.onCapture, State.onRing, State.loadTimer, State.onTimer_eq, Timers.upd, Timer.load, Config.attributionWindow,
    State.timersAtTrigger, State.linkAtTrigger, State.memberNumbers, State.settings, hnext]

/-- The next shot number raised to one at or above it (R57). -/
theorem State.raiseNext_eq {n : Shot} {s : State} (h : s.ring.next ≤ n) :
    s.raiseNext n = { s with ring := { s.ring with next := n } } := by
  have hnext : (if s.ring.next < n then n else s.ring.next) = n := by
    split
    · rfl
    next hlt => exact BitVec.le_antisymm h (BitVec.not_lt.mp hlt)
  unfold State.raiseNext State.onRing
  dsimp only
  rw [hnext]

end Sys2Proof.Machine
end

section
/-! PROOF. The statements about triggers in no dark capture: admission by an own edge and by an Open, and the refusals (R56-R60). -/

namespace Sys2Proof.Machine

/-- An Open or a Refuse names a shot that is still to be triggered (R57). -/
structure State.Names (n : Shot) (s : State) : Prop where
  reaches : s.ring.next ≤ n
  notTaken : n = lastShot → s.capture.current ≠ lastShot

/-- A shot named by an Open or a Refuse is triggered. -/
theorem State.Names.triggers {n : Shot} {s : State} (h : s.Names n) : s.triggers n = true := by
  rw [State.triggers, decide_eq_true h.reaches, Bool.true_and, Bool.not_eq_true', Bool.and_eq_false_iff, beq_eq_false_iff_ne,
    beq_eq_false_iff_ne]
  by_cases hn : n = lastShot
  · exact .inr (h.notTaken hn)
  · exact .inl hn

/-! ## What a trigger comes to -/

/-- The first steps of a trigger set the next shot number, whatever it was raised to before. -/
theorem State.begun_raiseNext {n : Shot} {s : State} (h : s.ring.next ≤ n) : (s.raiseNext n).begun n = s.begun n := by
  rw [State.raiseNext_eq h]
  rfl

/-- A trigger that is admitted. -/
theorem State.trigger_admits {n : Shot} {s : State} (h : s.Admits n) (hno : s.noOutcomeDue) (edge : Option Time) (start : Time) :
    s.trigger n edge start = State.admitted n edge start (s.begun n) := by
  have hb : (s.begun n).Admits n := ⟨h.armed, h.notLast, h.free, h.limit, h.shutter⟩
  rw [State.trigger, State.beginTrigger_begun (by simp [h.armed]) (by simp [h.armed]) hno]
  exact hb.decideAdmission edge start

/-- The station after the admission of a shot that nothing held up (R58, R59). -/
theorem State.begun_admitted {n : Shot} (edge : Option Time) (start : Time) (s : State) (hn : n ≠ lastShot) :
    State.admitted n edge start (s.begun n) = { s with
      capture := s.captureAdmitting n edge start
      ring := { s.ring with
        next := n + 1#32
        top := (s.ring.top + 1) % 8
        slots := s.ring.slots.set ((s.ring.top + 1) % 8) (some (slotAdmitted n start))
        roster := s.ring.roster ++ [s.entryAdmitted n] }
      clock := { s.clock with timers := s.timersAtAdmission }
      link := (State.admitted n edge start (s.begun n)).link
      card := ((s.begun n).reservedFor n).card, notices := ((s.begun n).reservedFor n).notices } := by
  simp only [State.admitted, State.begun, if_neg hn]
  rfl

/-- The station after a trigger that is refused. -/
theorem State.trigger_refused {n : Shot} {reason : RefuseReason} {policy : Policy} {s : State}
    (h : s.refuses s.capture.state n reason policy) (h1 : s.capture.state ≠ .darkExposing) (h2 : s.capture.state ≠ .darkReading)
    (hno : s.noOutcomeDue) (edge : Option Time) (start : Time) :
    s.trigger n edge start = s.refusedAt n reason policy := by
  rw [State.trigger, State.beginTrigger_begun h1 h2 hno, State.decideAdmission_refuses edge start (by exact h)]
  rfl

/-- In Active an own closing edge outside the attribution window triggers the next shot, but in Exposing, Disarmed and Halted. -/
theorem exec_syncClosingEdge_triggers {c : Candidate} {s : State} (hm : s.maturing s.settings.syncPolarity.closedLevel c)
    (hcalm : s.calm) (hr : (s.timer .attribution).running = false) (he : s.capture.state ≠ .exposing)
    (hd : s.capture.state ≠ .disarmed) (hh : s.capture.state ≠ .halted) :
    exec .syncClosingEdge s =
      .next (State.trigger s.ring.next (some c.since) c.since { s with sync := s.sync.accept s.settings.syncPolarity.closedLevel }) := by
  have hwakes : s.edgeWakes = false := by simp [State.edgeWakes, hm.1]
  have hpower : s.powerAtEdge = s.power := if_neg (by simp [hm.1])
  have hedge : s.atEdge s.settings.syncPolarity.closedLevel = { s with sync := s.sync.accept s.settings.syncPolarity.closedLevel } := by
    rw [State.atEdge, hpower]
  rw [exec_syncClosingEdge ⟨hm.2, hcalm⟩, hedge, hwakes]
  have hrun : (State.timer { s with sync := s.sync.accept s.settings.syncPolarity.closedLevel } .attribution).running = false := hr
  rw [State.closingEdge, hrun, if_neg (by decide)]
  dsimp only
  cases hs : s.capture.state with
  | exposing => exact absurd hs he
  | disarmed => exact absurd hs hd
  | halted => exact absurd hs hh
  | _ => rfl

/-! ## The Open of a shot just triggered -/

/-- The last entry of the roster changes where no entry before it is of its shot. -/
theorem State.updEntry_last {n : Shot} {f : Entry → Entry} {s : State} {r : List Entry} {e : Entry} (hr : s.ring.roster = r ++ [e])
    (he : e.shot = n) (hn : ∀ x ∈ r, x.shot ≠ n) :
    s.updEntry n f = { s with ring := { s.ring with roster := r ++ [f e] } } := by
  have hmap : (r.map fun x => if x.shot = n then f x else x) = r :=
    (List.map_congr_left fun x hx => if_neg (hn x hx)).trans (List.map_id' r)
  simp [State.updEntry, State.onRing, Ring.updEntry, hr, he, hmap]

/-- The last entry of the roster is the one its shot number finds where no entry before it is of its shot. -/
theorem State.entry?_last {n : Shot} {s : State} {r : List Entry} {e : Entry} (hr : s.ring.roster = r ++ [e]) (he : e.shot = n)
    (hn : ∀ x ∈ r, x.shot ≠ n) : s.entry? n = some e := by
  rw [State.entry?, hr, List.find?_append, List.find?_eq_none.mpr (by simpa using hn)]
  simp [he]

/-- A shot whose integration has not ended has no ShotOpened to raise. -/
theorem State.raiseShotOpened_unended {n : Shot} {s : State} (h : ∀ x, s.slot? n = some x → x.ownEnd = none) :
    s.raiseShotOpened n = s := by
  unfold State.raiseShotOpened
  split
  next x e hx _ => rw [h x hx]
  · rfl

/-- The Open that has triggered its shot gives the agreed open and settles the opener (R60). -/
theorem State.takeAgreedOpen_admitted {source : Node} {n : Shot} {time : Time} {s : State} {r : List Entry} {e : Entry}
    (hr : s.ring.roster = r ++ [e]) (he : e.shot = n) (hn : ∀ x ∈ r, x.shot ≠ n) (ho : e.agreedOpen = none) (hc : e.agreedClose = none)
    (ht : e.openTaken = false) (hcur : n = s.capture.current) (hw : s.capture.windowEnded = false)
    (hend : ∀ x, s.slot? n = some x → x.ownEnd = none) :
    s.takeAgreedOpen source n time = { s with ring := { s.ring with
      roster := r ++ [{ e with agreedOpen := some time, openTaken := true, opener := source == s.self }] } } := by
  have hopen : e.openAt time = { e with agreedOpen := some time } := by simp [Entry.openAt, ho, Entry.settleDuration, hc]
  have hentry := State.entry?_last hr he hn
  have hagree : s.agreeOpen n time = { s with ring := { s.ring with roster := r ++ [{ e with agreedOpen := some time }] } } := by
    rw [State.agreeOpen, hentry, Option.any_some, ho, if_pos (show (none : Option Time).isNone = true from rfl), State.updEntry_last hr he hn, hopen]
    exact State.recordOutcome_inside hcur hw
  have hgiven := State.entry?_last (s := { s with ring := { s.ring with roster := r ++ [{ e with agreedOpen := some time }] } }) rfl he hn
  have hsettled := State.updEntry_last (f := fun x => { x with openTaken := true, opener := source == s.self })
    (s := { s with ring := { s.ring with roster := r ++ [{ e with agreedOpen := some time }] } }) rfl he hn
  rw [State.takeAgreedOpen, hagree, State.settleOpener, hgiven]
  dsimp only
  rw [if_neg (by simp [ht])]
  unfold State.doIf
  split
  · exact (State.raiseShotOpened_unended (by exact hend)).trans hsettled
  · exact hsettled

/-! ## The statements -/

/-- Settles O22: the first steps of the trigger, then the admission. -/
theorem closingEdgeTriggersAShot : Obligations.ClosingEdgeTriggersAShot := by
  intro c s hm hr hcalm ha hno hlast hlim hshut hfree
  set u : State := { s with sync := s.sync.accept s.settings.syncPolarity.closedLevel } with hu
  have hexec := exec_syncClosingEdge_triggers hm hcalm hr (by simp [ha]) (by simp [ha]) (by simp [ha])
  rw [← hu, State.trigger_admits (s := u) ⟨ha, hlast, hfree, hlim, hshut⟩ (by exact hno)] at hexec
  have hadmit := State.begun_admitted (n := s.ring.next) (some c.since) c.since u hlast
  refine ⟨_, hexec, ?_, fun hp => ?_⟩
  · rw [hadmit]
    rfl
  · have hreserve : (u.begun s.ring.next).reservedFor s.ring.next = u.begun s.ring.next := if_neg hp
    refine ⟨?_, ?_, ?_⟩
    · rw [hadmit, hreserve]
      rfl
    · rw [hadmit, hreserve]
      rfl
    · rw [State.admitted, hreserve]
      rfl

/-- In a ring that is in order no roster entry is of a shot at or above the next shot number but the last (R80). -/
theorem State.ringOk.not_in_roster {n : Shot} {s : State} (h : s.ringOk) (hn : s.ring.next ≤ n) (hl : n ≠ lastShot) :
    ∀ e ∈ s.ring.roster, e.shot ≠ n := by
  obtain ⟨-, -, -, -, -, hbelow, -⟩ := h
  rintro e he rfl
  obtain hlt | hlast := hbelow e he
  · exact absurd hlt (BitVec.not_lt.mpr hn)
  · have hmax : e.shot ≤ lastShot := by
      rw [BitVec.le_def, lastShot]
      have := e.shot.isLt
      simp only [BitVec.toNat_ofNat]
      omega
    exact hl (BitVec.le_antisymm hmax (hlast ▸ hn))

/-- An Open that triggers its shot. -/
theorem exec_openTaken_triggers {source : Node} {n : Shot} {time : Time} {s : State} (hf : s.inForce) (hcalm : s.calm) (h : s.Names n) :
    exec (.openTaken source n time) s =
      .next (((s.raiseNext n).trigger n none s.clock.linkTime).takeAgreedOpen source n time) := by
  have hexec : exec (.openTaken source n time) s = .next (State.captureOpen source n time s) :=
    (State.event_of_calm _ s hcalm).trans (congrArg _ (State.take_inForce _ _ hf))
  rw [hexec, State.captureOpen, h.triggers, if_pos rfl]

/-- An Open that triggers its shot, where nothing holds the admission up: the agreed open and the opener are the Open's. -/
theorem exec_openTaken_admitted {source : Node} {n : Shot} {time : Time} {s : State} (hf : s.inForce) (hcalm : s.calm)
    (hreach : s.ring.next ≤ n) (hadmits : s.Admits n) (hno : s.noOutcomeDue) (hring : s.ringOk) :
    exec (.openTaken source n time) s = .next { State.admitted n none s.clock.linkTime (s.begun n) with
      ring := { (State.admitted n none s.clock.linkTime (s.begun n)).ring with roster := s.ring.roster ++
        [{ s.entryAdmitted n with agreedOpen := some time, openTaken := true, opener := source == s.self }] } } := by
  have hlast := hadmits.notLast
  have hnew := hring.not_in_roster hreach hlast
  have hraised : (s.raiseNext n).Admits n := by
    rw [State.raiseNext_eq hreach]
    exact ⟨hadmits.armed, hlast, hadmits.free, hadmits.limit, hadmits.shutter⟩
  have hnoRaised : (s.raiseNext n).noOutcomeDue := by
    rw [State.raiseNext_eq hreach]
    exact hno
  set t := State.admitted n none s.clock.linkTime (s.begun n) with ht
  have hend : ∀ x, t.slot? n = some x → x.ownEnd = none := by
    intro x hx
    have hmem : some x ∈ s.ring.slots.set ((s.ring.top + 1) % 8) (some (slotAdmitted n s.clock.linkTime)) := State.slot?_mem hx
    obtain hold | hnew' := List.mem_or_eq_of_mem_set hmem
    · have hsome : (s.slot? n).isSome = true := by rw [← State.slot?_shot hx, hring.slot? hold]; rfl
      rw [hring.slot?_isSome, State.entry?_eq_none.mpr hnew] at hsome
      exact absurd hsome (by decide)
    · rw [Option.some.inj hnew']
      rfl
  have htaken : t.takeAgreedOpen source n time = { t with ring := { t.ring with roster := s.ring.roster ++
      [{ s.entryAdmitted n with agreedOpen := some time, openTaken := true, opener := source == s.self }] } } :=
    State.takeAgreedOpen_admitted (r := s.ring.roster) (e := s.entryAdmitted n) rfl rfl hnew rfl rfl rfl rfl rfl hend
  have hexec := exec_openTaken_triggers (source := source) (time := time) hf hcalm ⟨hreach, fun h => absurd h hlast⟩
  rwa [State.trigger_admits hraised hnoRaised, State.begun_raiseNext hreach, ← ht, htaken] at hexec

/-- Settles O23: the admission by the Open, and the agreed open and opener that the Open gives. -/
theorem openTriggersItsShot : Obligations.OpenTriggersItsShot := by
  intro source n time s hf hreach hlast hcalm ha hno hring hlim hshut hfree
  have hadmit := State.begun_admitted (n := n) none s.clock.linkTime s hlast
  refine ⟨_, exec_openTaken_admitted hf hcalm hreach ⟨ha, hlast, hfree, hlim, hshut⟩ hno hring, ?_, fun hp => ?_⟩
  · rw [hadmit]
  · have hreserve : (s.begun n).reservedFor n = s.begun n := if_neg hp
    rw [State.admitted, hreserve]
    exact ⟨rfl, rfl, rfl⟩

/-- Settles O24: the first steps of the trigger, then the Refuse; an Open of a shot without entry gives nothing further. -/
theorem refusedTriggersTakeNoSlot : Obligations.RefusedTriggersTakeNoSlot := by
  refine ⟨fun source n time reason policy s hf hcalm hreach hcur hno hentry _ h1 h2 href => ?_,
    fun c reason policy s hm hcalm hr hst hno href => ?_⟩
  · have hrefused : (s.raiseNext n).trigger n none s.clock.linkTime = s.refusedAt n reason policy := by
      rw [State.raiseNext_eq hreach]
      exact State.trigger_refused (s := { s with ring := { s.ring with next := n } }) href h1 h2 hno _ _
    have hnone : (s.refusedAt n reason policy).entry? n = none := hentry
    rw [exec_openTaken_triggers hf hcalm ⟨hreach, hcur⟩, hrefused, State.takeAgreedOpen, State.agreeOpen, hnone, State.settleOpener]
    simp [hnone]
  · have hstate : s.capture.state ≠ .exposing ∧ s.capture.state ≠ .disarmed ∧ s.capture.state ≠ .halted ∧
        s.capture.state ≠ .darkExposing ∧ s.capture.state ≠ .darkReading := by
      obtain h | h := hst <;> simp [h]
    obtain ⟨he, hd, hh, h1, h2⟩ := hstate
    have hrefused := State.trigger_refused (s := { s with sync := s.sync.accept s.settings.syncPolarity.closedLevel }) href h1 h2 hno
      (some c.since) c.since
    rw [exec_syncClosingEdge_triggers hm hcalm hr he hd hh]
    exact congrArg _ hrefused

end Sys2Proof.Machine
end

section
/-! PROOF. The shot numbers of slots, roster and placement list: which operations keep them all (R79-R83, R144, R148). -/

namespace Sys2Proof.Machine

/-- The shot numbers that slots, roster and placement list hold, with the slot index of each roster entry. -/
structure Shots where
  slots : List (Option Shot)
  top : Nat
  next : Shot
  roster : List (Shot × Nat)
  placements : List Shot

/-- The shot numbers of a station. -/
def State.shots (s : State) : Shots where
  slots := s.ring.slots.map (Option.map (·.shot))
  top := s.ring.top
  next := s.ring.next
  roster := s.ring.roster.map fun e => (e.shot, e.slot)
  placements := s.card.placements.map (·.shot)

namespace State

/-! ## What leaves every shot number where it is -/

/-- The shot numbers stand in the ring and in the placement list. -/
theorem shots_congr {s t : State} (hr : t.ring = s.ring) (hc : t.card.placements = s.card.placements) : t.shots = s.shots := by
  rw [shots, shots, hr, hc]

variable (s : State)

@[simp] theorem onLink_shots (f : Link → Link) : (s.onLink f).shots = s.shots := rfl
@[simp] theorem onClock_shots (f : Clock → Clock) : (s.onClock f).shots = s.shots := rfl
@[simp] theorem onSync_shots (f : SyncInput → SyncInput) : (s.onSync f).shots = s.shots := rfl
@[simp] theorem onCapture_shots (f : Capture → Capture) : (s.onCapture f).shots = s.shots := rfl
@[simp] theorem onDark_shots (f : Dark → Dark) : (s.onDark f).shots = s.shots := rfl
@[simp] theorem onDevelop_shots (f : Develop → Develop) : (s.onDevelop f).shots = s.shots := rfl
@[simp] theorem onTransfer_shots (f : TransferUnit → TransferUnit) : (s.onTransfer f).shots = s.shots := rfl
@[simp] theorem onNotices_shots (f : Notices → Notices) : (s.onNotices f).shots = s.shots := rfl
@[simp] theorem onPower_shots (f : Power → Power) : (s.onPower f).shots = s.shots := rfl
@[simp] theorem onMember_shots (f : Membership → Membership) : (s.onMember f).shots = s.shots := rfl

@[simp] theorem doIf_shots (b : Bool) (f : State → State) : (s.doIf b f).shots = if b then (f s).shots else s.shots := by
  cases b <;> rfl

/-- A change of the card that keeps the shots of the placement list. -/
theorem onCard_shots {f : Card → Card} (hf : (f s.card).placements.map (·.shot) = s.card.placements.map (·.shot)) :
    (s.onCard f).shots = s.shots := by
  unfold shots
  rw [onCard_card, hf, onCard_ring]

/-- A change of a slot record that keeps its shot number. -/
@[simp] theorem updSlot_shots (n : Shot) (f : Slot → Slot) (hf : ∀ x, (f x).shot = x.shot) : (s.updSlot n f).shots = s.shots := by
  have hslots : (s.updSlot n f).ring.slots.map (Option.map (·.shot)) = s.ring.slots.map (Option.map (·.shot)) := by
    simp only [updSlot, onRing, Ring.updSlot, List.map_map]
    refine List.map_congr_left fun o _ => ?_
    cases o with
    | none => rfl
    | some x => by_cases h : x.shot = n <;> simp [h, hf]
  unfold shots
  rw [hslots]
  rfl

/-- A change of a roster entry that keeps its shot number and its slot. -/
@[simp] theorem updEntry_shots' (n : Shot) (f : Entry → Entry) (hf : ∀ e, (f e).shot = e.shot ∧ (f e).slot = e.slot) :
    (s.updEntry n f).shots = s.shots := by
  have hroster : (s.updEntry n f).ring.roster.map (fun e => (e.shot, e.slot)) = s.ring.roster.map fun e => (e.shot, e.slot) := by
    simp only [updEntry, onRing, Ring.updEntry, List.map_map]
    refine List.map_congr_left fun e _ => ?_
    by_cases h : e.shot = n
    · simp [h, (hf e).1, (hf e).2]
    · simp [h]
  unfold shots
  rw [hroster]
  rfl

@[simp] theorem onTimer_shots (id : TimerId) (f : Timer → Timer) : (s.onTimer id f).shots = s.shots := rfl
@[simp] theorem loadTimer_shots (id : TimerId) (n : Nat) : (s.loadTimer id n).shots = s.shots := rfl
@[simp] theorem stopTimer_shots (id : TimerId) : (s.stopTimer id).shots = s.shots := rfl
@[simp] theorem queue_shots (dst : BitVec 4) (m : Msg) : (s.queue dst m).shots = s.shots := rfl
@[simp] theorem broadcast_shots (m : Msg) : (s.broadcast m).shots = s.shots := rfl
@[simp] theorem cancelBulk_shots (p : Msg → Bool) : (s.cancelBulk p).shots = s.shots := rfl
@[simp] theorem raise_shots (d : NoticeData) : (s.raise d).shots = s.shots := rfl

/-! ## The card's shared operations that reserve nothing -/

@[simp] theorem changeCard_shots (st : CardState) (r : Option Roll) : (s.changeCard st r).shots = s.shots := rfl

@[simp] theorem ejectTest_shots : s.ejectTest.shots = s.shots := by simp [ejectTest]

@[simp] theorem sendGrant_shots (q : Claim) (n : Nat) : (s.sendGrant q n).shots = s.shots := rfl

@[simp] theorem grantClaim_shots (q : Claim) : (s.grantClaim q).shots = s.shots := by
  unfold grantClaim
  split
  · rfl
  · rw [sendGrant_shots]
    exact onCard_shots s (by rfl)

@[simp] theorem serveFrom_shots (qs : List Claim) : (serveFrom qs s).shots = s.shots := by
  induction qs generalizing s with
  | nil => rfl
  | cons q qs ih =>
    rw [serveFrom]
    split
    · rw [ih, grantClaim_shots]
      exact onCard_shots s (by rfl)
    · rfl

@[simp] theorem serve_shots : s.serve.shots = s.shots := serveFrom_shots s _

@[simp] theorem beginMount_shots : s.beginMount.shots = s.shots := rfl

@[simp] theorem mountIfPresent_shots : s.mountIfPresent.shots = s.shots := by simp [mountIfPresent]

/-- Changing an entry of the placement list keeps its shots. -/
theorem placements_updFirst (n : Shot) (f : Placed → Placed) (hf : ∀ p, (f p).shot = p.shot) (l : List Placed) :
    (updFirst (·.shot == n) f l).map (·.shot) = l.map (·.shot) := by
  induction l with
  | nil => rfl
  | cons p ps ih =>
    rw [updFirst]
    split
    · simp [hf]
    · simp [ih]

@[simp] theorem updPlaced_shots (n : Shot) (f : Placed → Placed) (hf : ∀ p, (f p).shot = p.shot) :
    (s.onCard (Card.updPlaced n f)).shots = s.shots := onCard_shots s (placements_updFirst n f hf _)

@[simp] theorem updProgress_shots (n : Shot) (m : Node) (f : Progress → Progress) : (s.updProgress n m f).shots = s.shots :=
  updPlaced_shots s n _ fun _ => rfl

@[simp] theorem commitTest_shots (n : Shot) : (s.commitTest n).shots = s.shots := by
  unfold commitTest
  split
  next p e _ _ =>
    split
    · exact onCard_shots s (placements_updFirst n (fun q => { q with phase := .committing }) (fun _ => rfl) s.card.placements)
    · rfl
  · rfl

/-! ## Transfer -/

@[simp] theorem claimSocket_shots (n : Shot) (k : Socket) : (s.claimSocket n k).shots = s.shots := by
  unfold claimSocket
  repeat' split
  all_goals cases k <;> simp [Entry.updPart]

@[simp] theorem claimTargets_shots (n : Shot) : (s.claimTargets n).shots = s.shots := by
  unfold claimTargets
  split <;> simp

@[simp] theorem beginPass_shots (n : Shot) : (s.beginPass n).shots = s.shots := by
  simp [beginPass, Entry.startPass, Entry.mapParts]

@[simp] theorem chooseTile_shots : s.chooseTile.shots = s.shots := by
  unfold chooseTile
  repeat' split
  all_goals simp

@[simp] theorem leaveTile_shots (n : Shot) : (s.leaveTile n).shots = s.shots := by
  unfold leaveTile
  split <;> simp

@[simp] theorem endPassIfDone_shots (n : Shot) : (s.endPassIfDone n).shots = s.shots := by
  unfold endPassIfDone
  repeat' split
  all_goals simp

/-! ## The Develop Engine and the Dark Unit -/

@[simp] theorem resolve_shots : s.resolve.shots = s.shots := by
  unfold resolve
  split
  · rfl
  · simp

@[simp] theorem startJob_shots (x : Slot) : (s.startJob x).shots = s.shots := by simp [startJob]

@[simp] theorem tryStartJob_shots : s.tryStartJob.shots = s.shots := by
  obtain h | ⟨x, -, -, -, -, -, h⟩ := s.tryStartJob_cases
  · rw [h]
  · rw [h, startJob_shots]

@[simp] theorem stopJob_shots : s.stopJob.shots = s.shots := by
  unfold stopJob
  split <;> simp

@[simp] theorem developFreed_shots (n : Shot) : (s.developFreed n).shots = s.shots := by simp [developFreed]

@[simp] theorem updJob_shots (f : Job → Job) : (s.updJob f).shots = s.shots := rfl

@[simp] theorem rework_shots (i : Nat) (f : List Sample → List Sample) : (s.rework i f).shots = s.shots := rfl

theorem Slot.loseDark_shot (b : Bool) (x : Slot) : (Slot.loseDark b x).shot = x.shot := by
  unfold Slot.loseDark
  split <;> rfl

@[simp] theorem invalidateDark_shots : s.invalidateDark.shots = s.shots := by
  have hslots : s.invalidateDark.ring.slots.map (Option.map (·.shot)) = s.ring.slots.map (Option.map (·.shot)) := by
    simp only [invalidateDark, updJob, onDevelop, onRing, List.map_map]
    refine List.map_congr_left fun o _ => ?_
    cases o <;> simp [Slot.loseDark_shot]
  unfold shots
  rw [hslots]
  rfl

@[simp] theorem startDark_shots (n : Shot) (d : Nat) : (s.startDark n d).shots = s.shots := by simp [startDark]

@[simp] theorem settleAwaiting_shots (n : Shot) (d : DarkStatus) : (s.settleAwaiting n d).shots = s.shots :=
  updSlot_shots s n _ fun x => by split <;> rfl

@[simp] theorem abandonDark_shots : s.abandonDark.shots = s.shots := by
  unfold abandonDark
  split <;> simp

@[simp] theorem insertHot_shots (i : Nat) : (s.insertHot i).shots = s.shots := rfl

/-! ## Capture -/

@[simp] theorem cancelRelease_shots : s.cancelRelease.shots = s.shots := rfl

@[simp] theorem recordOutcome_shots (n : Shot) : (s.recordOutcome n).shots = s.shots := by
  unfold recordOutcome
  repeat' split
  · rw [tryStartJob_shots, updSlot_shots s n _ fun _ => by rfl]
  all_goals rfl

theorem Entry.settleDuration_same (e : Entry) : e.settleDuration.shot = e.shot ∧ e.settleDuration.slot = e.slot := by
  unfold Entry.settleDuration
  split <;> exact ⟨rfl, rfl⟩

theorem Entry.openAt_same (t : Time) (e : Entry) : (e.openAt t).shot = e.shot ∧ (e.openAt t).slot = e.slot := by
  unfold Entry.openAt
  split
  · exact Entry.settleDuration_same _
  · exact ⟨rfl, rfl⟩

theorem Entry.closeAt_same (t : Time) (e : Entry) : (e.closeAt t).shot = e.shot ∧ (e.closeAt t).slot = e.slot := by
  unfold Entry.closeAt
  split
  · exact Entry.settleDuration_same _
  · exact ⟨rfl, rfl⟩

@[simp] theorem agreeOpen_shots (n : Shot) (t : Time) : (s.agreeOpen n t).shots = s.shots := by
  unfold agreeOpen
  split <;> simp [Entry.openAt_same]

@[simp] theorem raiseShotOpened_shots (n : Shot) : (s.raiseShotOpened n).shots = s.shots := by
  unfold raiseShotOpened
  repeat' split
  all_goals simp

@[simp] theorem settleOpener_shots (source : Node) (n : Shot) : (s.settleOpener source n).shots = s.shots := by
  unfold settleOpener
  repeat' split
  all_goals simp

@[simp] theorem takeAgreedOpen_shots (source : Node) (n : Shot) (t : Time) : (s.takeAgreedOpen source n t).shots = s.shots := by
  simp [takeAgreedOpen]

@[simp] theorem stopRunning_shots (id : TimerId) : (s.stopRunning id).shots = s.shots := by simp [stopRunning]

@[simp] theorem endIntegration_shots (t : Time) : (s.endIntegration t).shots = s.shots := by
  unfold endIntegration
  split
  · rfl
  next x _ =>
    have hslot : ∀ u : State, (u.updSlot x.shot (Slot.endIntegration x t s.sync.bounces)).shots = u.shots :=
      fun u => updSlot_shots u _ _ fun _ => rfl
    simp [Entry.pulseDuration, hslot]

@[simp] theorem markLimit_shots (n : Shot) : (s.markLimit n).shots = s.shots := by
  unfold markLimit
  split <;> simp

@[simp] theorem observe_shots (n : Shot) (t : Time) : (s.observe n t).shots = s.shots := by
  unfold observe
  repeat' split
  all_goals simp

@[simp] theorem giveWay_shots : s.giveWay.shots = s.shots := by
  unfold giveWay
  repeat' split
  all_goals simp

@[simp] theorem fillQuiet_shots : s.fillQuiet.shots = s.shots := by simp [fillQuiet]

@[simp] theorem clearQuiet_shots : s.clearQuiet.shots = s.shots := by simp [clearQuiet]

@[simp] theorem abandonShot_shots (n : Shot) : (s.abandonShot n).shots = s.shots := by
  unfold abandonShot
  split <;> simp

@[simp] theorem halt_shots (source : Node) (n : Shot) (r : RefuseReason) : (s.halt source n r).shots = s.shots := by simp [halt]

end State

end Sys2Proof.Machine
end

section
/-! PROOF. Slots, roster and placement list in step with one another (R80, R82, R148, R149), and the operations that take in, free,
reserve and unplace. -/

namespace Sys2Proof.Machine

/-! ## What is kept -/

/-- The shots of the slots in ring order (R82). -/
def Shots.inOrder (k : Shots) : List Shot := (k.slots.drop ((k.top + 1) % 8) ++ k.slots.take ((k.top + 1) % 8)).filterMap id

/-- Slots and roster hold the same shots, each once, below the next shot number: `State.ringOk` in shot numbers. -/
structure Shots.RingOk (k : Shots) : Prop where
  eight : k.slots.length = 8
  top : k.top < 8
  entry : ∀ i n, k.slots[i]? = some (some n) → (n, i) ∈ k.roster
  slot : ∀ p ∈ k.roster, k.slots[p.2]? = some (some p.1)
  nodup : (k.roster.map Prod.fst).Nodup
  below : ∀ p ∈ k.roster, p.1 < k.next ∨ k.next = lastShot
  notLast : ∀ p ∈ k.roster, p.1 ≠ lastShot

/-- The shots also rise around the ring, and the placement list holds some of them, each once. -/
structure Shots.Together (k : Shots) : Prop extends k.RingOk where
  rising : k.inOrder.Pairwise (· < ·)
  placedOnce : k.placements.Nodup
  placed : ∀ n ∈ k.placements, n ∈ k.roster.map Prod.fst

/-- `Obligations.StepsKeepRosterAndRingTogether` speaks of this. -/
structure State.InStep (s : State) : Prop where
  together : s.shots.Together
  bound : s.member.state = .rolling → s.ring.next ≤ s.member.highest
  idle : s.member.state = .rolling ∨ s.power.state = .sleep → s.capture.state = .disarmed ∧ s.dark.capture = none

theorem State.shots_slot (s : State) (i : Nat) (n : Shot) :
    s.shots.slots[i]? = some (some n) ↔ ∃ x, s.ring.slots[i]? = some (some x) ∧ x.shot = n := by
  simp only [State.shots, List.getElem?_map, Option.map_eq_some_iff]
  constructor
  · rintro ⟨o, ho, hon⟩
    obtain ⟨x, rfl, hx⟩ := hon
    exact ⟨x, ho, hx⟩
  · rintro ⟨x, hx, rfl⟩
    exact ⟨some x, hx, x, rfl, rfl⟩

theorem State.shots_roster (s : State) (n : Shot) (i : Nat) :
    (n, i) ∈ s.shots.roster ↔ ∃ e ∈ s.ring.roster, e.shot = n ∧ e.slot = i := by
  simp [State.shots]

@[simp] theorem State.shots_rosterShots (s : State) : s.shots.roster.map Prod.fst = s.ring.roster.map (·.shot) := by
  simp [State.shots]

theorem State.shots_inOrder (s : State) : s.shots.inOrder = s.ring.inOrder.map (·.shot) := by
  have hmap : ∀ l : List (Option Slot), (l.map (Option.map (·.shot))).filterMap id = (l.filterMap id).map (·.shot) := by
    intro l
    rw [List.filterMap_map, List.map_filterMap]
    rfl
  rw [Shots.inOrder, Ring.inOrder, ← hmap, List.map_append, List.map_drop, List.map_take]
  rfl

/-- The ring's invariant in shot numbers. -/
theorem State.ringOk_iff (s : State) : s.ringOk ↔ s.shots.RingOk := by
  have hfields : s.shots.RingOk ↔ s.shots.slots.length = 8 ∧ s.shots.top < 8 ∧
      (∀ i n, s.shots.slots[i]? = some (some n) → (n, i) ∈ s.shots.roster) ∧
      (∀ p ∈ s.shots.roster, s.shots.slots[p.2]? = some (some p.1)) ∧ (s.shots.roster.map Prod.fst).Nodup ∧
      (∀ p ∈ s.shots.roster, p.1 < s.shots.next ∨ s.shots.next = lastShot) ∧ (∀ p ∈ s.shots.roster, p.1 ≠ lastShot) :=
    ⟨fun ⟨he, ht, hen, hsl, hn, hb, hl⟩ => ⟨he, ht, hen, hsl, hn, hb, hl⟩, fun ⟨he, ht, hen, hsl, hn, hb, hl⟩ => ⟨he, ht, hen, hsl, hn, hb, hl⟩⟩
  rw [hfields]
  unfold State.ringOk
  refine and_congr (by simp [State.shots]) (and_congr Iff.rfl (and_congr ?_ (and_congr ?_ (and_congr ?_ (and_congr ?_ ?_)))))
  · constructor
    · intro h i n hi
      obtain ⟨x, hx, rfl⟩ := (s.shots_slot i n).mp hi
      exact (s.shots_roster _ _).mpr (h i x hx)
    · intro h i x hx
      exact (s.shots_roster _ _).mp (h i x.shot ((s.shots_slot i x.shot).mpr ⟨x, hx, rfl⟩))
  · constructor
    · rintro h ⟨n, i⟩ hp
      obtain ⟨e, he, rfl, rfl⟩ := (s.shots_roster n i).mp hp
      exact (s.shots_slot _ _).mpr (h e he)
    · intro h e he
      exact (s.shots_slot _ _).mp (h (e.shot, e.slot) ((s.shots_roster _ _).mpr ⟨e, he, rfl, rfl⟩))
  · rw [s.shots_rosterShots]
  · simp [State.shots]
  · simp [State.shots]

/-- The invariant of the statement, by its parts. -/
theorem State.shotsInStep_iff (s : State) : s.shotsInStep ↔ s.InStep := by
  have hplaced : (∀ p ∈ s.card.placements, ∃ e ∈ s.ring.roster, e.shot = p.shot) ↔
      ∀ n ∈ s.shots.placements, n ∈ s.shots.roster.map Prod.fst := by
    rw [s.shots_rosterShots]
    simp [State.shots]
  have hrising : (s.ring.inOrder.Pairwise fun a b => a.shot < b.shot) ↔ s.shots.inOrder.Pairwise (· < ·) := by
    rw [s.shots_inOrder, List.pairwise_map]
  unfold State.shotsInStep
  rw [hplaced, hrising, s.ringOk_iff]
  constructor
  · rintro ⟨hok, hr, hp1, hp, hbound, hidle⟩
    exact ⟨⟨hok, hr, hp1, hp⟩, hbound, hidle⟩
  · rintro ⟨⟨hok, hr, hp1, hp⟩, hbound, hidle⟩
    exact ⟨hok, hr, hp1, hp, hbound, hidle⟩

namespace Shots

variable {k : Shots}

/-! ## A shot leaves -/

/-- The shot numbers once a shot has left slot, roster and placement list (R89, R149). -/
def without (n : Shot) (k : Shots) : Shots :=
  { k with
    slots := k.slots.map fun o => if o = some n then none else o
    roster := k.roster.filter fun p => p.1 ≠ n
    placements := k.placements.erase n }

theorem without_slot (n : Shot) (k : Shots) (i : Nat) (m : Shot) :
    (k.without n).slots[i]? = some (some m) ↔ k.slots[i]? = some (some m) ∧ m ≠ n := by
  simp only [without, List.getElem?_map, Option.map_eq_some_iff]
  constructor
  · rintro ⟨o, ho, hom⟩
    split at hom
    · cases hom
    next hne =>
      subst hom
      exact ⟨ho, fun h => hne (by rw [h])⟩
  · rintro ⟨hi, hm⟩
    exact ⟨some m, hi, by simp [hm]⟩

theorem filterMap_without (n : Shot) (l : List (Option Shot)) :
    (l.map fun o => if o = some n then none else o).filterMap id = (l.filterMap id).filter (· ≠ n) := by
  induction l with
  | nil => rfl
  | cons o os ih =>
    cases o with
    | none => simpa using ih
    | some m =>
      by_cases h : m = n
      · subst h
        simpa using ih
      · simpa [h] using ih

theorem without_inOrder (n : Shot) (k : Shots) : (k.without n).inOrder = k.inOrder.filter (· ≠ n) := by
  rw [inOrder, inOrder, ← filterMap_without, List.map_append, List.map_drop, List.map_take]
  rfl

/-- What is left of slots and roster when a shot goes is in step. -/
theorem RingOk.without (h : k.RingOk) (n : Shot) : (k.without n).RingOk where
  eight := by simpa [Shots.without] using h.eight
  top := h.top
  entry i m hm := by
    obtain ⟨hi, hne⟩ := (without_slot n k i m).mp hm
    simpa [Shots.without, hne] using h.entry i m hi
  slot p hp := by
    obtain ⟨hmem, hne⟩ := List.mem_filter.mp hp
    exact (without_slot n k _ _).mpr ⟨h.slot p hmem, by simpa using hne⟩
  nodup := h.nodup.sublist (List.filter_sublist.map _)
  below p hp := h.below p (List.mem_filter.mp hp).1
  notLast p hp := h.notLast p (List.mem_filter.mp hp).1

/-- What is left when a shot goes is in step. -/
theorem Together.without (h : k.Together) (n : Shot) : (k.without n).Together where
  toRingOk := h.toRingOk.without n
  rising := by
    rw [without_inOrder]
    exact h.rising.filter _
  placedOnce := h.placedOnce.erase n
  placed m hm := by
    obtain ⟨hne, hmem⟩ := (h.placedOnce.mem_erase_iff).mp hm
    obtain ⟨p, hp, rfl⟩ := List.mem_map.mp (h.placed m hmem)
    exact List.mem_map.mpr ⟨p, List.mem_filter.mpr ⟨hp, by simpa using hne⟩, rfl⟩

/-! ## Placements -/

/-- A shot leaves the placement list alone. -/
theorem Together.unplace (h : k.Together) (n : Shot) : ({ k with placements := k.placements.erase n } : Shots).Together :=
  { h with
    placedOnce := h.placedOnce.erase n
    placed := fun m hm => h.placed m (List.mem_of_mem_erase hm)
    rising := h.rising }

/-- The placement list is emptied. -/
theorem Together.unplaceAll (h : k.Together) : ({ k with placements := [] } : Shots).Together :=
  { h with
    placedOnce := List.nodup_nil
    placed := fun _ hm => absurd hm List.not_mem_nil
    rising := h.rising }

/-- A shot of the roster that is not on the placement list joins it. -/
theorem Together.place (h : k.Together) {n : Shot} (hn : n ∈ k.roster.map Prod.fst) (hnew : n ∉ k.placements) :
    ({ k with placements := k.placements ++ [n] } : Shots).Together :=
  { h with
    placedOnce := by
      rw [List.nodup_append]
      exact ⟨h.placedOnce, List.nodup_singleton n, fun a ha b hb hab => hnew (by rwa [← List.mem_singleton.mp hb, ← hab])⟩
    placed := fun m hm => by
      obtain hm | hm := List.mem_append.mp hm
      · exact h.placed m hm
      · exact List.mem_singleton.mp hm ▸ hn
    rising := h.rising }

/-! ## The next shot number, and a shot admitted -/

/-- The next shot number rises. -/
theorem Together.raise (h : k.Together) {n : Shot} (hn : k.next ≤ n) : ({ k with next := n } : Shots).Together :=
  { h with
    rising := h.rising
    below := fun p hp => by
      obtain hlt | hlast := h.below p hp
      · exact .inl (by rw [BitVec.lt_def] at hlt ⊢; rw [BitVec.le_def] at hn; exact hlt.trans_le hn)
      · refine .inr (BitVec.le_antisymm ?_ (hlast ▸ hn))
        rw [BitVec.le_def, lastShot]
        have := n.isLt
        simp only [BitVec.toNat_ofNat]
        omega }

/-- The shot numbers once a shot has been admitted to the slot after TOP (R79). -/
def takeIn (n : Shot) (k : Shots) : Shots :=
  { k with
    slots := k.slots.set ((k.top + 1) % 8) (some n)
    top := (k.top + 1) % 8
    roster := k.roster ++ [(n, (k.top + 1) % 8)] }

/-- In ring order a shot that is admitted to a free slot after TOP comes last. -/
theorem takeIn_inOrder (n : Shot) (k : Shots) (he : k.slots.length = 8) (hf : k.slots[(k.top + 1) % 8]? = some none) :
    (k.takeIn n).inOrder = k.inOrder ++ [n] := by
  have ha : (k.top + 1) % 8 < k.slots.length := by
    rw [he]
    exact Nat.mod_lt _ (by decide)
  have hnone : k.slots[(k.top + 1) % 8] = none := Option.some.inj ((List.getElem?_eq_getElem ha).symm.trans hf)
  unfold inOrder takeIn
  dsimp only
  generalize (k.top + 1) % 8 = a at ha hnone
  rw [List.set_eq_take_append_cons_drop, if_pos ha, List.drop_eq_getElem_cons ha, hnone]
  have hlen : (k.slots.take a).length = a := List.length_take_of_le ha.le
  by_cases hlast : a + 1 < 8
  · have hdrop : (k.slots.take a).drop (a + 1) = [] := List.drop_eq_nil_of_le (by omega)
    have htake : (k.slots.take a).take (a + 1) = k.slots.take a := List.take_of_length_le (by omega)
    rw [Nat.mod_eq_of_lt hlast, List.drop_append, List.take_append, hdrop, htake, hlen]
    simp
  · have ha7 : a + 1 = k.slots.length := by omega
    rw [show (a + 1) % 8 = 0 by omega, ha7, List.drop_length]
    simp

/-- A shot in ring order stands in a slot. -/
theorem mem_slots_of_mem_inOrder {n : Shot} (h : n ∈ k.inOrder) : some n ∈ k.slots := by
  obtain ⟨o, ho, hon⟩ := List.mem_filterMap.mp h
  rw [id] at hon
  subst hon
  obtain ho | ho := List.mem_append.mp ho
  · exact List.mem_of_mem_drop ho
  · exact List.mem_of_mem_take ho

/-- A shot above all others, admitted to a free slot after TOP, is in step with them. -/
theorem Together.takeIn (h : k.Together) {n : Shot} (hf : k.slots[(k.top + 1) % 8]? = some none) (habove : ∀ p ∈ k.roster, p.1 < n)
    (hn : n < k.next ∨ k.next = lastShot) (hl : n ≠ lastShot) : (k.takeIn n).Together where
  eight := by simpa [Shots.takeIn] using h.eight
  top := Nat.mod_lt _ (by decide)
  entry i m hm := by
    simp only [Shots.takeIn, List.getElem?_set] at hm ⊢
    split at hm
    next hi =>
      subst hi
      split at hm
      · cases hm
        simp
      · cases hm
    · exact List.mem_append_left _ (h.entry i m hm)
  slot p hp := by
    simp only [Shots.takeIn, List.getElem?_set]
    obtain hp | hp := List.mem_append.mp hp
    · have hslot := h.slot p hp
      rw [if_neg]
      · exact hslot
      · rintro heq
        rw [← heq, hf] at hslot
        cases hslot
    · cases List.mem_singleton.mp hp
      rw [if_pos rfl, if_pos]
      rw [h.eight]
      exact Nat.mod_lt _ (by decide)
  nodup := by
    rw [Shots.takeIn, List.map_append, List.nodup_append]
    refine ⟨h.nodup, List.nodup_singleton _, fun a ha b hb => ?_⟩
    obtain ⟨p, hp, rfl⟩ := List.mem_map.mp ha
    cases List.mem_singleton.mp hb
    exact BitVec.ne_of_lt (habove p hp)
  below p hp := by
    obtain hp | hp := List.mem_append.mp hp
    · exact h.below p hp
    · cases List.mem_singleton.mp hp
      exact hn
  notLast p hp := by
    obtain hp | hp := List.mem_append.mp hp
    · exact h.notLast p hp
    · cases List.mem_singleton.mp hp
      exact hl
  rising := by
    rw [takeIn_inOrder n k h.eight hf, List.pairwise_append]
    refine ⟨h.rising, List.pairwise_singleton _ _, fun a ha b hb => ?_⟩
    cases List.mem_singleton.mp hb
    obtain ⟨i, hi⟩ := List.mem_iff_getElem?.mp (mem_slots_of_mem_inOrder ha)
    exact habove _ (h.entry i a hi)
  placedOnce := h.placedOnce
  placed m hm := by
    rw [Shots.takeIn, List.map_append]
    exact List.mem_append_left _ (h.placed m hm)

end Shots

end Sys2Proof.Machine
end

section
/-! PROOF. The operations that free a slot, reserve an extent, and take a shot in keep slots, roster and placement list in step. -/

namespace Sys2Proof.Machine

/-- A station whose next shot number stands above every shot it holds: it may take in the shot of that number (R80). -/
structure State.MayAdmit (n : Shot) (s : State) : Prop where
  together : s.shots.Together
  above : n ≠ lastShot → ∀ p ∈ s.shots.roster, p.1 < n
  below : n ≠ lastShot → n < s.ring.next

namespace State

/-! ## Freeing -/

theorem mem_rosterShots {s : State} {n : Shot} : n ∈ s.shots.roster.map Prod.fst ↔ s.entry? n ≠ none := by
  rw [s.shots_rosterShots, ne_eq, State.entry?_eq_none]
  simp

theorem remove_shots (n : Shot) (s : State) :
    (s.onRing (Ring.remove n)).shots = { s.shots.without n with placements := s.shots.placements } := by
  have hslots : (s.ring.slots.map fun o => if o.any (·.shot == n) then none else o).map (Option.map (·.shot)) =
      (s.ring.slots.map (Option.map (·.shot))).map fun o => if o = some n then none else o := by
    rw [List.map_map, List.map_map]
    refine List.map_congr_left fun o _ => ?_
    cases o with
    | none => rfl
    | some x => by_cases h : x.shot = n <;> simp [h]
  have hroster : (s.ring.roster.filter (·.shot != n)).map (fun e => (e.shot, e.slot)) =
      (s.ring.roster.map fun e => (e.shot, e.slot)).filter fun p => p.1 ≠ n := by
    rw [List.filter_map]
    congr 1
    refine List.filter_congr fun e _ => ?_
    by_cases h : e.shot = n <;> simp [h]
  simp only [shots, onRing, Ring.remove, Shots.without, hslots, hroster]

theorem placements_eraseP (n : Shot) (l : List Placed) : (l.eraseP (·.shot == n)).map (·.shot) = (l.map (·.shot)).erase n := by
  induction l with
  | nil => rfl
  | cons p ps ih =>
    by_cases h : p.shot = n
    · simp [h]
    · simp [h, ih]

/-- The voiding of a placement takes its shot off the placement list. -/
theorem voidPlacement_shots (e : Entry) (s : State) :
    (s.voidPlacement e).shots = { s.shots with placements := s.shots.placements.erase e.shot } := by
  unfold voidPlacement
  cases hp : s.card.placed? e.shot with
  | none =>
    have hnot : e.shot ∉ s.shots.placements := by
      intro hmem
      obtain ⟨p, hm, hps⟩ := List.mem_map.mp hmem
      exact absurd (beq_iff_eq.mpr hps) (List.find?_eq_none.mp hp p hm)
    rw [List.erase_of_not_mem hnot]
  | some p =>
    have hshot : p.shot = e.shot := by simpa using List.find?_some hp
    dsimp only
    rw [ejectTest_shots, serve_shots]
    simp only [shots, onCard, Card.dropPlaced, Card.dropGrants]
    rw [placements_eraseP, hshot]

/-- Freeing a slot takes its shot out of slots, roster and placement list. -/
theorem freeSlot_shots (n : Shot) (s : State) :
    (s.freeSlot n).shots = if s.entry? n = none then s.shots else s.shots.without n := by
  unfold freeSlot
  cases he : s.entry? n with
  | none => rfl
  | some e =>
    rw [if_neg (by simp)]
    dsimp only
    rw [tryStartJob_shots, voidPlacement_shots, leaveTile_shots, cancelBulk_shots, developFreed_shots, remove_shots, State.entry?_shot he]
    rfl

theorem freeSlot_together {s : State} (h : s.shots.Together) (n : Shot) : (s.freeSlot n).shots.Together := by
  rw [freeSlot_shots]
  split
  · exact h
  · exact h.without n

theorem completionTest_together {s : State} (h : s.shots.Together) (n : Shot) : (s.completionTest n).shots.Together := by
  unfold completionTest
  split
  · exact freeSlot_together h n
  · exact h

theorem freeUnread_together {s : State} (h : s.shots.Together) (n : Shot) : (s.freeUnread n).shots.Together :=
  doIf_ind (P := fun t => t.shots.Together) _ _ _ h (freeSlot_together h n)

theorem freeAll_together {s : State} (h : s.shots.Together) (l : List Shot) :
    (l.foldl (fun t n => t.freeSlot n) s).shots.Together := by
  induction l generalizing s with
  | nil => exact h
  | cons n ns ih => exact ih (freeSlot_together h n)

theorem emptyRing_together {s : State} (h : s.shots.Together) : s.emptyRing.shots.Together := freeAll_together h _

theorem unplaceSumFailure_together {s : State} (h : s.shots.Together) (p : Placed) : (s.unplaceSumFailure p).shots.Together := by
  unfold unplaceSumFailure
  split
  · exact h
  next k _ =>
    have hdrop : (s.onCard (Card.dropPlaced p)).shots = { s.shots with placements := s.shots.placements.erase p.shot } := by
      simp only [shots, onCard, Card.dropPlaced, Card.dropGrants]
      rw [placements_eraseP]
    rw [ejectTest_shots, serve_shots, broadcast_shots, hdrop]
    exact h.unplace p.shot

/-- A drop of every placement leaves none. -/
theorem dropAll_shots (r : UnplaceReason) (s : State) : (s.dropAll r).shots = { s.shots with placements := [] } := by
  have hfold : ∀ (l : List Shot) (k : Socket) (t : State), (l.foldl (fun t n => t.broadcast (.unplace n k r)) t).shots = t.shots := by
    intro l k
    induction l with
    | nil => exact fun _ => rfl
    | cons n ns ih => exact fun t => (ih _).trans rfl
  have hempty : ∀ t : State, (t.onCard fun c => { c with placements := [], writes := [], grants := [], waiting := [] }).shots =
      { t.shots with placements := [] } := fun _ => rfl
  unfold dropAll
  split
  · rfl
  · dsimp only
    rw [hempty, hfold]

/-! ## Reserving -/

/-- A reservation of a shot that the roster holds. -/
theorem tryReserve_together {s : State} {e : Entry} (h : s.shots.Together) (he : e.shot ∈ s.shots.roster.map Prod.fst) :
    (s.tryReserve e).shots.Together := by
  unfold tryReserve
  split
  · exact h
  split
  · exact h
  next hp =>
    split
    · have hnew : e.shot ∉ s.shots.placements := by
        intro hmem
        obtain ⟨p, hm, hps⟩ := List.mem_map.mp hmem
        exact absurd (beq_iff_eq.mpr hps) (List.find?_eq_none.mp hp p hm)
      have hplace := h.place he hnew
      rw [announce, broadcast_shots]
      simpa [shots, onCard, Card.reserve, newPlaced] using hplace
    · rw [broadcast_shots, doIf_shots, raise_shots, ite_self]
      exact h

theorem overflowDecide_together {s : State} (h : s.shots.Together) (source : Node) (n : Shot) (k : Socket) :
    (s.overflowDecide source n k).shots.Together := by
  unfold overflowDecide
  split
  · exact h
  next e he =>
    split
    · refine tryReserve_together h ?_
      rw [State.entry?_shot he, mem_rosterShots, he]
      simp
    · exact h

/-- A reservation leaves the roster as it is. -/
theorem tryReserve_roster (e : Entry) (s : State) : (s.tryReserve e).ring = s.ring := by simp

theorem rePlace_together {s : State} (h : s.shots.Together) : s.rePlace.shots.Together := by
  have hfold : ∀ (l : List Entry) (t : State), t.shots.Together → (∀ e ∈ l, e.shot ∈ t.shots.roster.map Prod.fst) →
      (l.foldl (fun t e => t.tryReserve e) t).shots.Together := by
    intro l
    induction l with
    | nil => exact fun _ ht _ => ht
    | cons e es ih =>
      intro t ht hl
      refine ih _ (tryReserve_together ht (hl e List.mem_cons_self)) fun f hf => ?_
      rw [shots_rosterShots, tryReserve_roster, ← shots_rosterShots]
      exact hl f (List.mem_cons_of_mem _ hf)
  unfold rePlace
  split
  · exact h
  · split
    · refine hfold _ s h fun e he => ?_
      rw [shots_rosterShots]
      exact List.mem_map_of_mem (List.mem_filter.mp he).1
    · exact h

theorem enterReady_together {s : State} (h : s.shots.Together) : s.enterReady.shots.Together := by
  rw [enterReady, chooseTile_shots, tryStartJob_shots]
  exact rePlace_together h

/-! ## Admitting -/

theorem MayAdmit.congr {n : Shot} {s t : State} (h : s.MayAdmit n) (ht : t.shots = s.shots) : t.MayAdmit n := by
  have hnext : t.ring.next = s.ring.next := congrArg Shots.next ht
  exact ⟨ht ▸ h.together, ht ▸ h.above, hnext ▸ h.below⟩

theorem placeAtAdmission_together {s : State} {e : Entry} (h : s.shots.Together) (he : e.shot ∈ s.shots.roster.map Prod.fst) :
    (s.placeAtAdmission e).shots.Together := by
  rw [placeAtAdmission_eq]
  split
  · exact tryReserve_together h he
  · exact h

theorem ringAdmit_shots (n : Shot) (start : Time) (s : State) :
    (s.onRing (Ring.admitShot n start (s.newEntry n))).shots = s.shots.takeIn n := by
  simp [shots, onRing, Ring.admitShot, Ring.after, Shots.takeIn, List.map_set, newSlot, newEntry]

/-- The admission of a shot that nothing refuses. -/
theorem MayAdmit.admitTrigger {n : Shot} {s : State} (h : s.MayAdmit n) (hn : n ≠ lastShot) (hr : s.ring.refusal = none)
    (edge : Option Time) (start : Time) : (s.admitTrigger n edge start).shots.Together := by
  have hfree : s.shots.slots[(s.shots.top + 1) % 8]? = some none := by
    have hlt : (s.ring.top + 1) % 8 < s.ring.slots.length := by
      have height := h.together.eight
      rw [shots, List.length_map] at height
      rw [height]
      exact Nat.mod_lt _ (by decide)
    cases hs : s.ring.slots[(s.ring.top + 1) % 8] with
    | none => simp [shots, hlt, hs]
    | some x =>
      exfalso
      have hgetD : s.ring.slots.getD (s.ring.top + 1 |>.mod 8) none = some x := by
        rw [List.getD_eq_getElem?_getD, show s.ring.slots[(s.ring.top + 1).mod 8]? = _ from List.getElem?_eq_getElem hlt, hs]
        rfl
      rw [Ring.refusal, Ring.after, show (s.ring.top + 1) % 8 = (s.ring.top + 1).mod 8 from rfl, hgetD] at hr
      dsimp only at hr
      split at hr <;> cases hr
  have hadmit : (s.admitShot n start).shots.Together := by
    refine placeAtAdmission_together ?_ ?_
    · rw [ringAdmit_shots]
      exact h.together.takeIn hfree (h.above hn) (.inl (h.below hn)) hn
    · rw [ringAdmit_shots, Shots.takeIn, List.map_append]
      exact List.mem_append_right _ (by simp [newEntry])
  unfold State.admitTrigger
  cases edge <;> simpa using hadmit

theorem MayAdmit.decideAdmission {n : Shot} {s : State} (h : s.MayAdmit n) (edge : Option Time) (start : Time) :
    (s.decideAdmission n edge start).shots.Together := by
  unfold State.decideAdmission
  split
  · exact h.together
  next hr =>
    unfold admissionRefusal at hr
    split at hr
    · cases hr
    next hn =>
      split at hr
      case h_5 => exact h.admitTrigger hn hr edge start
      all_goals cases hr

/-- The first steps of a trigger raise the next shot number past its shot. -/
theorem beginTrigger_shots (n : Shot) (s : State) : (s.beginTrigger n).shots = { s.shots with next := nextShot n } := by
  have hnext : (s.giveWay.onRing fun r => { r with next := nextShot n }).shots = { s.giveWay.shots with next := nextShot n } := rfl
  unfold beginTrigger
  simp [hnext]

theorem le_nextShot (n : Shot) : n ≤ nextShot n := by
  unfold nextShot
  split
  · exact BitVec.le_refl _
  next hn =>
    have hlt := n.isLt
    have hne : n.toNat ≠ 4294967295 := fun h => hn (BitVec.eq_of_toNat_eq h)
    rw [BitVec.le_def, BitVec.toNat_add, BitVec.toNat_ofNat]
    omega

theorem lt_nextShot {n : Shot} (h : n ≠ lastShot) : n < nextShot n := by
  have hlt := n.isLt
  have hne : n.toNat ≠ 4294967295 := fun he => h (BitVec.eq_of_toNat_eq he)
  rw [nextShot, if_neg h, BitVec.lt_def, BitVec.toNat_add, BitVec.toNat_ofNat]
  omega

/-- After its first steps the shot of a trigger of the next shot number may be admitted. -/
theorem beginTrigger_mayAdmit {s : State} (h : s.shots.Together) : (s.beginTrigger s.ring.next).MayAdmit s.ring.next := by
  have hnext : (s.beginTrigger s.ring.next).ring.next = nextShot s.ring.next := congrArg Shots.next (beginTrigger_shots _ s)
  refine ⟨?_, fun hn p hp => ?_, fun hn => hnext ▸ lt_nextShot hn⟩
  · rw [beginTrigger_shots]
    exact h.raise (le_nextShot _)
  · rw [beginTrigger_shots] at hp
    exact (h.below p hp).resolve_right hn

theorem trigger_together {s : State} (h : s.shots.Together) (edge : Option Time) (start : Time) :
    (s.trigger s.ring.next edge start).shots.Together := (beginTrigger_mayAdmit h).decideAdmission edge start

theorem raiseNext_together {s : State} {n : Shot} (h : s.shots.Together) (hn : s.ring.next ≤ n) :
    (s.raiseNext n).shots.Together ∧ (s.raiseNext n).ring.next = n := by
  rw [State.raiseNext_eq hn]
  exact ⟨h.raise hn, rfl⟩

end State

end Sys2Proof.Machine
end

section
/-! PROOF. The station's operations that keep slots, roster and placement list in step: the roll call, power, expiries, capture. -/

namespace Sys2Proof.Machine

/-- What an operation has to leave as it is, beside the shots, for the bound and the idleness of a roll call and of Sleep. -/
structure State.SameBounds (s t : State) : Prop where
  member : t.member = s.member
  next : t.ring.next = s.ring.next
  power : t.power.state = s.power.state
  capture : t.capture.state = s.capture.state
  dark : s.dark.capture = none → t.dark.capture = none

/-- Awake and out of Rolling there is nothing but the shots to keep. -/
theorem State.inStep_of_awake {t : State} (ht : t.shots.Together) (hm : t.member.state ≠ .rolling) (hp : t.power.state ≠ .sleep) :
    t.InStep :=
  ⟨ht, fun h => absurd h hm, fun h => absurd h (by simp [hm, hp])⟩

/-- An abandoned dark capture is gone. -/
theorem State.abandonDark_none (s : State) : s.abandonDark.dark.capture = none := by
  unfold State.abandonDark
  split
  next hn => exact hn
  · simp [State.onDark]

namespace State.InStep

variable {s : State}

/-! ## How the invariant is carried on -/

theorem carry (h : s.InStep) {t : State} (ht : t.shots.Together) (hb : s.SameBounds t) : t.InStep where
  together := ht
  bound hm := by
    rw [hb.member] at hm ⊢
    exact hb.next ▸ h.bound hm
  idle hi := by
    rw [hb.member, hb.power] at hi
    obtain ⟨hc, hd⟩ := h.idle hi
    exact ⟨hb.capture.trans hc, hb.dark hd⟩

/-- An operation that leaves every shot number, and what the bounds speak of. -/
theorem keep (h : s.InStep) {t : State} (ht : t.shots = s.shots) (hm : t.member = s.member) (hp : t.power = s.power)
    (hc : t.capture.state = s.capture.state) (hd : t.dark.capture = s.dark.capture) : t.InStep :=
  h.carry (ht ▸ h.together) ⟨hm, congrArg Shots.next ht, by rw [hp], hc, hd.trans⟩

/-- A capture that is not Disarmed, or a dark capture in hand, shows a station that is awake and out of Rolling. -/
theorem awake (h : s.InStep) (hc : s.capture.state ≠ .disarmed ∨ s.dark.capture ≠ none) :
    s.member.state ≠ .rolling ∧ s.power.state ≠ .sleep := by
  constructor
  all_goals
    intro hi
    obtain ⟨hd, hn⟩ := h.idle (by simp [hi])
    exact hc.elim (· hd) (· hn)

theorem doIf (h : s.InStep) {b : Bool} {f : State → State} (hf : (f s).InStep) : (s.doIf b f).InStep :=
  State.doIf_ind (P := State.InStep) b f s h hf

/-- An operation at a station awake and out of Rolling. -/
theorem atWork (hs : s.member.state ≠ .rolling ∧ s.power.state ≠ .sleep) {t : State} (ht : t.shots.Together) (hm : t.member = s.member)
    (hp : t.power.state = s.power.state) : t.InStep :=
  State.inStep_of_awake ht (hm ▸ hs.1) (hp ▸ hs.2)

theorem onTimer (h : s.InStep) {id : TimerId} {f : Timer → Timer} : (s.onTimer id f).InStep := h.keep rfl rfl rfl rfl rfl

theorem onLink (h : s.InStep) {f : Link → Link} : (s.onLink f).InStep := h.keep rfl rfl rfl rfl rfl

theorem onClock (h : s.InStep) {f : Clock → Clock} : (s.onClock f).InStep := h.keep rfl rfl rfl rfl rfl

theorem onSync (h : s.InStep) {f : SyncInput → SyncInput} : (s.onSync f).InStep := h.keep rfl rfl rfl rfl rfl

theorem onDevelop (h : s.InStep) {f : Develop → Develop} : (s.onDevelop f).InStep := h.keep rfl rfl rfl rfl rfl

theorem onNotices (h : s.InStep) {f : Notices → Notices} : (s.onNotices f).InStep := h.keep rfl rfl rfl rfl rfl

theorem broadcast (h : s.InStep) {m : Msg} : (s.broadcast m).InStep := h.keep rfl rfl rfl rfl rfl

theorem queue (h : s.InStep) {d : BitVec 4} {m : Msg} : (s.queue d m).InStep := h.keep rfl rfl rfl rfl rfl

/-! ## Sleep and wakes -/

theorem enterSleep_shots (s : State) : s.enterSleep.shots = { s.shots with placements := [] } := by
  have hcard : ∀ t : State, t.cardSleep.shots = { t.shots with placements := [] } := by
    intro t
    unfold cardSleep
    cases t.card.state != .empty <;> rfl
  have hcapture : ∀ t : State, t.captureSleep.shots = t.shots := fun t => by simp [captureSleep]
  have hmemory : ∀ t : State, t.dropTileMemory.shots = t.shots := fun _ => rfl
  simp only [State.enterSleep, onNotices_shots, onClock_shots, onSync_shots, onTransfer_shots, hmemory, hcard, hcapture, onPower_shots]

theorem enterSleep (h : s.InStep) : s.enterSleep.InStep := by
  refine ⟨enterSleep_shots s ▸ h.together.unplaceAll, fun hm => ?_, fun _ => ⟨?_, ?_⟩⟩
  · simp only [enterSleep_frame] at hm ⊢
    exact h.bound hm
  · simp [State.enterSleep, dropTileMemory, captureSleep]
  · simp [State.enterSleep, dropTileMemory, captureSleep, abandonDark_none, cancelRelease]

theorem sleepTest (h : s.InStep) : s.sleepTest.InStep := h.doIf h.enterSleep

theorem leaveDoze (h : s.InStep) : s.leaveDoze.InStep := by
  unfold State.leaveDoze State.doIf
  split
  next hd =>
    refine ⟨h.together, h.bound, fun hi => h.idle (hi.imp id fun hp => ?_)⟩
    cases hp
  · exact h

theorem enterDoze (h : s.InStep) (hp : s.power.state ≠ .sleep) : s.enterDoze.InStep where
  together := by simpa [State.enterDoze, captureDoze] using h.together
  bound hm := by
    have hnext : s.enterDoze.ring.next = s.ring.next := by simp
    have hmember : s.enterDoze.member = s.member := by simp
    rw [hmember] at hm ⊢
    exact hnext ▸ h.bound hm
  idle hi := by
    have hdark : s.enterDoze.dark = s.dark := by simp
    have hpower : s.enterDoze.power.state = .doze := by simp [State.enterDoze, onPower]
    have hmember : s.enterDoze.member = s.member := by simp
    rw [hpower, hmember] at hi
    obtain ⟨hc, hd⟩ := h.idle (hi.imp id fun h => nomatch h)
    refine ⟨?_, hdark ▸ hd⟩
    simp [State.enterDoze, captureDoze, cancelRelease, onPower, onCapture, onClock, doIf, hc, CaptureState.working, CaptureState.forced]

/-- A new roll call is set up at a station that is Disarmed with no dark capture in hand. -/
theorem setupRollCall {rejoin : Bool} (ht : s.shots.Together) (hc : s.capture.state = .disarmed) (hd : s.dark.capture = none) :
    (s.setupRollCall rejoin).InStep where
  together := by
    have hshots : (s.setupRollCall rejoin).shots = s.shots := shots_congr (by simp) (by simp)
    rwa [hshots]
  bound _ := by
    have hhigh : (s.setupRollCall rejoin).member.highest = s.ring.next := by
      unfold State.setupRollCall State.startWait
      cases s.self == 0#3 <;> simp [onExpiry, sendRoll, apply_ite State.member, onMember]
    simp [hhigh]
  idle _ := by simp [hc, hd]

theorem wakeUp (h : s.InStep) (hp : s.power.state = .sleep) {cause : WakeCause} {source : Byte} {body : List Byte} :
    (s.wakeUp cause source body).InStep := by
  obtain ⟨hc, hd⟩ := h.idle (.inr hp)
  unfold State.wakeUp
  refine keep (setupRollCall ?_ ?_ ?_) rfl rfl rfl rfl rfl
  · cases cause <;> simpa [announceWake] using h.together
  · cases cause <;> simpa [announceWake] using hc
  · cases cause <;> simpa [announceWake] using hd

/-! ## The roll call -/

theorem exclude (h : s.InStep) : s.exclude.InStep :=
  ⟨h.together, fun hm => (nomatch hm), fun hi => h.idle (.inr (hi.resolve_left fun hm => nomatch hm))⟩

theorem endRollCall (h : s.InStep) (hm : s.member.state = .rolling) : s.endRollCall.InStep := by
  obtain ⟨hc, hd⟩ := h.idle (.inl hm)
  have hs1 : (s.onRing fun r => { r with next := s.member.highest }).shots.Together := h.together.raise (h.bound hm)
  have hleave : ∀ (t : State) (st : StationState), (t.leaveRolling st).shots = t.shots := by
    intro t st
    unfold leaveRolling settleLetter
    cases t.cardStation <;> rfl
  refine ⟨?_, fun hroll => absurd hroll s.endRollCall_state, fun _ => ⟨?_, by simp [hd]⟩⟩
  · unfold State.endRollCall
    dsimp only
    split
    · exact hs1
    · split
      · exact enterReady_together (by rwa [onCapture_shots, hleave])
      · split
        · rw [hleave]
          exact emptyRing_together hs1
        · rwa [hleave]
  · unfold State.endRollCall
    dsimp only
    repeat' split
    all_goals simp [hc]

theorem rollIn (h : s.InStep) {r : RollFields} : (s.rollIn r).InStep := by
  unfold State.rollIn
  refine doIf ?_ (onTimer ?_)
  all_goals
    refine ⟨h.together, fun hm => ?_, h.idle⟩
    have hle := h.bound hm
    change s.ring.next ≤ if s.member.highest < r.next then r.next else s.member.highest
    split
    next hlt => exact BitVec.le_trans hle (BitVec.le_of_lt hlt)
    · exact hle

theorem takeRoll (h : s.InStep) {r : RollFields} : (s.takeRoll r).InStep := by
  have hheard : (s.rollHeard r).InStep := by
    unfold State.rollHeard
    split
    · exact h.doIf h.broadcast
    · exact h.onNotices
  unfold State.takeRoll State.meetRoll
  split
  · exact h
  · split
    · exact h.rollIn
    · exact hheard
    · exact hheard
    · exact h
    · exact h

/-! ## A frame taken -/

theorem metByFrame (h : s.InStep) (hm : s.member.state = .rolling) : s.metByFrame.InStep := by
  unfold State.metByFrame
  split
  · exact h.endRollCall hm
  · exact h.exclude

/-- A frame that a station awake takes. -/
theorem takeAwake (h : s.InStep) {k : Taken} {handle : State → State}
    (hf : ∀ t : State, t.InStep → t.power.state ≠ .sleep → (handle t).InStep) : (s.take k handle).InStep := by
  have hsettled : ∀ t : State, t.InStep → t.power.state ≠ .sleep → (t.takeSettled k handle).InStep := by
    intro t ht hp
    unfold takeSettled
    have hhandled := hf t ht hp
    repeat' split
    all_goals assumption
  unfold State.take
  split
  · exact h
  next hp =>
    have hawake : s.power.state ≠ .sleep := by simpa using hp
    split
    next ht => exact hsettled _ (h.metByFrame (by simpa using (Bool.and_eq_true_iff.mp ht).1)) (by simpa using hawake)
    · exact hsettled _ h hawake

/-- A frame whose block's handling keeps the invariant. -/
theorem take (h : s.InStep) {k : Taken} {handle : State → State} (hf : ∀ t : State, t.InStep → (handle t).InStep) :
    (s.take k handle).InStep := h.takeAwake fun t ht _ => hf t ht

/-- A capture frame, which goes to its block in Configuring and Ready alone. -/
theorem takeCapture (h : s.InStep) {handle : State → State} (hf : ∀ t : State, t.InStep → t.inForce → (handle t).InStep) :
    (s.take .capture handle).InStep := by
  have hsettled : ∀ t : State, t.InStep → t.power.state ≠ .sleep → (t.takeSettled .capture handle).InStep := by
    intro t ht hp
    unfold takeSettled
    split
    next hm => exact hf t ht ⟨hp, .inl hm⟩
    next hm => exact hf t ht ⟨hp, .inr hm⟩
    all_goals exact ht
  unfold State.take
  split
  · exact h
  next hp =>
    have hawake : s.power.state ≠ .sleep := by simpa using hp
    split
    next ht => exact hsettled _ (h.metByFrame (by simpa using (Bool.and_eq_true_iff.mp ht).1)) (by simpa using hawake)
    · exact hsettled _ h hawake

end State.InStep

end Sys2Proof.Machine
end

section
/-! PROOF. The blocks' commands that keep slots, roster and placement list in step: capture, dark frames, the Develop Engine, placement
frames, transfer, and the card socket. -/

namespace Sys2Proof.Machine

/-- A station that is awake and out of Rolling, with its shots in step: there the bounds of a roll call say nothing. -/
structure State.AtWork (s : State) : Prop where
  together : s.shots.Together
  notRolling : s.member.state ≠ .rolling
  notAsleep : s.power.state ≠ .sleep

namespace State

variable {s : State}

theorem AtWork.inStep (h : s.AtWork) : s.InStep := inStep_of_awake h.together h.notRolling h.notAsleep

/-- An operation that touches neither membership nor power goes on at work. -/
theorem AtWork.carry (h : s.AtWork) {t : State} (ht : t.shots.Together) (hm : t.member = s.member) (hp : t.power = s.power) : t.AtWork :=
  ⟨ht, hm ▸ h.notRolling, hp ▸ h.notAsleep⟩

/-- An operation that leaves every shot number. -/
theorem AtWork.keep (h : s.AtWork) {t : State} (ht : t.shots = s.shots) (hm : t.member = s.member) (hp : t.power = s.power) : t.AtWork :=
  h.carry (ht ▸ h.together) hm hp

/-- A capture that is not Disarmed, or a dark capture in hand, shows a station at work. -/
theorem InStep.atWork_of (h : s.InStep) (hc : s.capture.state ≠ .disarmed ∨ s.dark.capture ≠ none) : s.AtWork :=
  ⟨h.together, (h.awake hc).1, (h.awake hc).2⟩

theorem InStep.atWork_inForce (h : s.InStep) (hf : s.inForce) : s.AtWork :=
  ⟨h.together, fun hr => by obtain ⟨-, hm | hm⟩ := hf <;> simp [hr] at hm, hf.1⟩

/-! ## The end of integration, triggers and drops -/

theorem AtWork.endIntegration (h : s.AtWork) {t : Time} : (s.endIntegration t).AtWork := h.keep (by simp) (by simp) (by simp)

theorem AtWork.trigger (h : s.AtWork) {edge : Option Time} {start : Time} : (s.trigger s.ring.next edge start).AtWork :=
  h.carry (trigger_together h.together edge start) (by simp) (by simp)

theorem AtWork.raiseNext (h : s.AtWork) {n : Shot} (hn : s.triggers n = true) : (s.raiseNext n).AtWork ∧ (s.raiseNext n).ring.next = n := by
  have hle : s.ring.next ≤ n := of_decide_eq_true (Bool.and_eq_true_iff.mp hn).1
  obtain ⟨ht, hnext⟩ := raiseNext_together h.together hle
  exact ⟨h.carry ht (by simp) (by simp), hnext⟩

theorem AtWork.captureOpen (h : s.AtWork) {source : Node} {n : Shot} {t : Time} : (s.captureOpen source n t).AtWork := by
  unfold State.captureOpen
  refine AtWork.keep (s := if s.triggers n then (s.raiseNext n).trigger n none s.clock.linkTime else s) ?_ (by simp) (by simp) (by simp)
  split
  next hn =>
    obtain ⟨hr, hnext⟩ := h.raiseNext hn
    have ht := hr.trigger (edge := none) (start := s.clock.linkTime)
    rwa [hnext] at ht
  · exact h

theorem AtWork.captureClose (h : s.AtWork) {n : Shot} {t : Time} {limit : Bool} : (s.captureClose n t limit).AtWork := by
  unfold State.captureClose
  split
  · exact h.keep (by simp [Entry.closeAt_same]) (by simp) (by simp)
  · exact h

theorem AtWork.dropShot (h : s.AtWork) {source : Node} {n : Shot} {r : RefuseReason} {p : Policy} : (s.dropShot source n r p).AtWork := by
  refine h.carry ?_ (by simp) (by simp)
  have hfreed : ((s.abandonShot n).freeUnread n).shots.Together :=
    freeUnread_together (by rw [abandonShot_shots]; exact h.together) n
  simpa [State.dropShot] using hfreed

theorem AtWork.captureRefuse (h : s.AtWork) {source : Node} {n : Shot} {r : RefuseReason} {p : Policy} :
    (s.captureRefuse source n r p).InStep := by
  unfold State.captureRefuse
  refine (AtWork.dropShot ?_).inStep.sleepTest
  split
  next hn =>
    obtain ⟨hr, hnext⟩ := h.raiseNext hn
    have hb := (beginTrigger_mayAdmit hr.together).together
    rw [hnext] at hb
    exact hr.carry hb (by simp) (by simp)
  · exact h

theorem AtWork.captureReadDone (h : s.AtWork) {source : Node} {n : Shot} {k : ReadKind} {d : Bool} :
    (s.captureReadDone source n k d).AtWork := by
  unfold State.captureReadDone
  split
  · exact h.keep (by simp [removeQuiet]) (by simp) (by simp)
  · exact h

namespace InStep

/-! ## Expiries -/

theorem rollExpiry (h : s.InStep) : s.rollExpiry.InStep := by
  unfold State.rollExpiry
  split
  next hm =>
    split
    · exact h.endRollCall (by simpa using hm)
    · exact h.broadcast
  · exact h

theorem recordOutcome (h : s.InStep) {n : Shot} : (s.recordOutcome n).InStep :=
  h.keep (by simp) (by simp) (by simp) (by simp) (by simp)

theorem pulseExpiry (h : s.InStep) : s.pulseExpiry.InStep := by
  unfold State.pulseExpiry State.doIf
  split
  next hc =>
    have hstate : s.capture.state = .exposing := by simpa using (Bool.and_eq_true_iff.mp hc).1
    exact (h.atWork_of (.inl (by simp [hstate]))).endIntegration.inStep
  · exact h

theorem limitExpiry (h : s.InStep) : s.limitExpiry.InStep := by
  unfold State.limitExpiry
  split
  · exact h
  · split
    next hc =>
      have hwork := h.atWork_of (.inl (by simp [show s.capture.state = .exposing by simpa using hc]))
      exact (hwork.keep (by simp) (by simp) (by simp)).inStep
    · exact h

theorem darkExpiry (h : s.InStep) : s.darkExpiry.InStep := by
  unfold State.darkExpiry
  split
  next hc =>
    have hwork := h.atWork_of (.inl (by simp [show s.capture.state = .darkExposing by simpa using hc]))
    refine AtWork.inStep (hwork.keep ?_ ?_ ?_) <;> rfl
  · exact h

theorem attributionExpiry (h : s.InStep) : s.attributionExpiry.InStep := by
  unfold State.attributionExpiry
  refine recordOutcome (h.keep ?_ ?_ ?_ ?_ ?_) <;> rfl

theorem seamExpiry (h : s.InStep) : s.seamExpiry.InStep := by
  unfold State.seamExpiry State.inPhase State.timeOutEdge
  repeat' split
  · exact h
  · exact h.keep (by simp) (by simp) (by simp) (by simp) (by simp)
  · exact h
  · exact h

theorem expire (h : s.InStep) {id : TimerId} : (s.expire id).InStep := by
  unfold State.expire State.onExpiry
  split
  · have hd : (s.onTimer id Timer.delivered).InStep := h.onTimer
    cases id
    · exact hd.rollExpiry
    · exact hd.doIf hd.broadcast
    · exact hd.attributionExpiry
    · exact hd.pulseExpiry
    · exact hd.limitExpiry
    · exact hd.darkExpiry
    · exact hd.keep rfl rfl rfl rfl rfl
    · exact hd.seamExpiry
  · exact h

theorem expiriesFirst (h : s.InStep) : s.expiriesFirst.InStep := by
  have hfold : ∀ (l : List TimerId) (t : State), t.InStep → (l.foldl (fun t id => t.expire id) t).InStep := by
    intro l
    induction l with
    | nil => exact fun _ ht => ht
    | cons id ids ih => exact fun t ht => ih _ ht.expire
  unfold State.expiriesFirst
  split
  · exact h
  · exact hfold _ _ h

/-! ## The clock -/

theorem advance (h : s.InStep) {k : Nat} : (s.advance k).InStep := by
  unfold State.advance State.testAlarm State.fireAlarm
  exact h.onClock.doIf (h.keep rfl rfl rfl rfl rfl)

theorem edge (h : s.InStep) : s.edge.InStep := (advance (onClock h.advance))

theorem tick (h : s.InStep) : s.tick.InStep := by
  unfold State.tick State.microsecond
  split
  · exact h.onClock.advance
  · exact h.edge

theorem clockMark (h : s.InStep) {time start : Time} : (State.clockMark time start s).InStep := by
  unfold State.clockMark State.stepTo
  split
  · exact h.advance.onTimer
  · exact h.onTimer

theorem countToAlarm (h : s.InStep) : s.countToAlarm.InStep := by
  unfold State.countToAlarm
  split
  · exact h
  · split
    · exact h.keep rfl rfl rfl rfl rfl
    · split
      · exact h.onClock.advance
      · exact h

/-! ## The Sync Input -/

theorem observe (h : s.InStep) {n : Shot} {t : Time} : (s.observe n t).InStep := by
  unfold State.observe
  repeat' split
  · exact h
  · exact h.keep rfl rfl rfl rfl rfl
  · exact h

theorem closingEdge (h : s.InStep) {b : Bool} {t : Time} : (s.closingEdge b t).InStep := by
  unfold State.closingEdge
  split
  · exact h.observe
  · split
    · exact h.observe
    · exact h
    · exact h
    next hd _ =>
      exact h.doIf (AtWork.trigger (h.atWork_of (.inl hd))).inStep

theorem openingEdge (h : s.InStep) {t : Time} : (s.openingEdge t).InStep := by
  unfold State.openingEdge
  split
  · exact h
  · split
    next hc =>
      have hstate : s.capture.state = .exposing := by simpa using (Bool.and_eq_true_iff.mp hc).1
      have hend := (h.atWork_of (.inl (by simp [hstate]))).endIntegration (t := t)
      exact hend.inStep.doIf hend.inStep.broadcast
    · exact h

theorem sample (h : s.InStep) {level : Level} : (s.sample level).InStep := by
  have hdeliver : ∀ (u : State) (t : Time), u.InStep → (u.deliverEdge level t).InStep := by
    intro u t hu
    unfold deliverEdge
    split
    · exact (hu.doIf hu.leaveDoze).closingEdge
    · exact (hu.doIf hu.leaveDoze).openingEdge
  unfold State.sample
  split
  · split
    next hp =>
      have hasleep : s.power.state = .sleep := by simpa using hp
      have hpower : ∀ f : Power → Power, (∀ p, (f p).state = p.state) → (s.onPower f).InStep := fun f hf =>
        h.carry h.together ⟨rfl, rfl, hf _, rfl, id⟩
      unfold sampleAsleep
      split
      · split
        · exact h
        · split
          · exact hpower _ fun _ => rfl
          · split
            · exact hpower _ fun _ => rfl
            · split
              · exact h.wakeUp hasleep
              · exact hpower _ fun _ => rfl
      · exact h
    · unfold sampleAwake
      split
      · exact h.onSync
      · split
        · split
          · exact h
          · exact h.onSync
        · split
          · exact h.onSync
          · split
            · exact hdeliver _ _ h.onSync
            · exact h.onSync
  · exact h

/-! ## Readouts and the dark scan -/

@[simp] theorem supplyClose_shots (n : Shot) (s : State) : (s.supplyClose n).shots = s.shots := by
  unfold supplyClose
  split
  · exact updEntry_shots' s n _ (Entry.closeAt_same _)
  · rfl

@[simp] theorem applyDark_shots (n : Shot) (s : State) : (s.applyDark n).shots = s.shots := by
  have hdecided := updSlot_shots s n (fun x => { x with dark := some (s.decideDark n) }) fun _ => by rfl
  unfold applyDark
  rw [doIf_shots, startDark_shots, hdecided, ite_self]

@[simp] theorem endReadout_shots (s : State) : s.endReadout.shots = s.shots := rfl

/-- The port reads out into a raw area in Reading. -/
theorem port_readOut_area {i : Nat} (hport : s.port = .readOut (.area i)) : s.capture.state = .reading := by
  unfold port at hport
  split at hport
  case h_4 => cases hp : s.portArea <;> simp [hp] at hport
  case h_5 hs => exact hs
  case h_7 => split at hport <;> simp at hport
  all_goals simp at hport

theorem readoutDone (h : s.InStep) {samples : List Sample} : (s.readoutDone samples).InStep := by
  unfold State.readoutDone
  split
  · exact h
  next x _ =>
    split
    next hport =>
      have hwork := h.atWork_of (.inl (by simp [port_readOut_area hport]))
      refine sleepTest (AtWork.inStep (hwork.carry ?_ (by simp) (by simp)))
      have hraw : (((s.onRing (Ring.updArea (s.slotIndex x.shot) fun a => { a with raw := samples })).supplyClose x.shot).updSlot x.shot
          fun y => { y with tag := .raw }).shots.Together := by
        rw [updSlot_shots _ _ _ fun _ => by rfl, supplyClose_shots]
        exact h.together
      have hdone := completionTest_together hraw x.shot
      simp only [tryStartJob_shots, doIf_shots, endReadout_shots, broadcast_shots, applyDark_shots, ite_self]
      exact hdone
    · exact h

theorem darkReadoutDone (h : s.InStep) {samples : List Sample} : (s.darkReadoutDone samples).InStep := by
  unfold State.darkReadoutDone
  split
  · exact h.carry h.together ⟨rfl, rfl, rfl, rfl, fun hn => by simp [updDarkCapture, onDark, hn]⟩
  · exact h

theorem insertHot (h : s.InStep) {i : Nat} : (s.insertHot i).InStep :=
  h.carry h.together ⟨rfl, rfl, rfl, rfl, fun hn => by simp [State.insertHot, onDark, hn]⟩

theorem scanStep (h : s.InStep) : s.scanStep.InStep := by
  unfold State.scanStep
  split
  · exact h
  · split
    · split
      · exact h
      · exact h.insertHot
    · exact h

theorem scanDone (h : s.InStep) : s.scanDone.InStep := by
  have hfold : ∀ (l : List Nat) (t : State), t.AtWork → (l.foldl (fun t i => t.insertHot i) t).AtWork := by
    intro l
    induction l with
    | nil => exact fun _ ht => ht
    | cons i is ih => exact fun t ht => ih _ (ht.keep rfl rfl rfl)
  unfold State.scanDone
  split
  · exact h
  next c hc =>
    split
    · have hscanned := hfold (s.hotAhead c) s (h.atWork_of (.inr (by simp [hc])))
      exact (hscanned.keep (by simp [completeDark]) (by simp) (by simp)).inStep
    · exact h

/-! ## The Develop Engine -/

/-- The work of a phase. -/
theorem inPhase (h : s.InStep) {p : Phase} {f : Job → State → State} (hf : ∀ j, (f j s).InStep) : (s.inPhase p f).InStep := by
  unfold State.inPhase
  split
  · exact h
  · split
    · exact hf _
    · exact h

theorem endBase (h : s.InStep) {j : Job} : (s.endBase j).InStep := h.keep (by simp [State.endBase]) (by simp) (by simp) (by simp) (by simp)

theorem endInterior (h : s.InStep) {j : Job} : (s.endInterior j).InStep :=
  h.keep (by simp [State.endInterior]) (by simp) (by simp) (by simp) (by simp)

theorem endEdge (h : s.InStep) {j : Job} : (s.endEdge j).InStep := by
  unfold State.endEdge
  split
  · exact h.keep (by simp) (by simp) (by simp) (by simp) (by simp)
  · exact h

theorem endGain (h : s.InStep) {j : Job} : (s.endGain j).InStep := h.keep (by simp [State.endGain]) (by simp) (by simp) (by simp) (by simp)

theorem endFinish (h : s.InStep) {j : Job} : (s.endFinish j).InStep := by
  unfold State.endFinish
  split
  · exact h
  · refine sleepTest (h.keep ?_ ?_ ?_ ?_ ?_) <;> simp

theorem engineSeam (h : s.InStep) {source : Node} {n : Shot} {d : Direction} {band : List Word16} :
    (s.engineSeam source n d band).InStep := by
  unfold State.engineSeam
  split
  · split
    · exact h.onDevelop
    · split
      · exact h
      · split
        · exact h.onDevelop
        · unfold State.keepBand
          split
          · exact h.onDevelop
          · exact h.keep (by simp [endWaitByBand]) (by simp) (by simp) (by simp) (by simp)
  · exact h

/-! ## Placement frames -/

theorem Entry.settleUnmirrored_same (mode : StorageMode) (e : Entry) :
    (e.settleUnmirrored mode).shot = e.shot ∧ (e.settleUnmirrored mode).slot = e.slot := by
  unfold Entry.settleUnmirrored
  repeat' split
  all_goals exact ⟨rfl, rfl⟩

theorem Entry.updPart_same (k : Socket) (f : Part → Part) (e : Entry) : (e.updPart k f).shot = e.shot ∧ (e.updPart k f).slot = e.slot := by
  cases k <;> exact ⟨rfl, rfl⟩

theorem Entry.placeAt_same (mode : StorageMode) (k : Socket) (o : PlaceOutcome) (e : Entry) :
    (e.placeAt mode k o).shot = e.shot ∧ (e.placeAt mode k o).slot = e.slot := by
  unfold Entry.placeAt
  split
  · exact ⟨rfl, rfl⟩
  · obtain ⟨hs, hi⟩ := Entry.settleUnmirrored_same mode (e.updPart k (Part.place o))
    obtain ⟨hs', hi'⟩ := Entry.updPart_same k (Part.place o) e
    exact ⟨hs.trans hs', hi.trans hi'⟩

theorem Entry.unplaceAt_same (mode : StorageMode) (k : Socket) (e : Entry) :
    (e.unplaceAt mode k).shot = e.shot ∧ (e.unplaceAt mode k).slot = e.slot := by
  unfold Entry.unplaceAt
  split
  · obtain ⟨hs, hi⟩ := Entry.settleUnmirrored_same mode (e.updPart k fun p => { p with placement := .void })
    obtain ⟨hs', hi'⟩ := Entry.updPart_same k (fun p => { p with placement := .void }) e
    exact ⟨hs.trans hs', hi.trans hi'⟩
  · exact ⟨rfl, rfl⟩

theorem Entry.commitAt_same (k : Socket) (e : Entry) : (e.commitAt k).shot = e.shot ∧ (e.commitAt k).slot = e.slot := by
  unfold Entry.commitAt
  split
  · exact Entry.updPart_same k _ e
  · exact ⟨rfl, rfl⟩

theorem blocksPlace (h : s.InStep) {source : Node} {n : Shot} {k : Socket} {o : PlaceOutcome} : (s.blocksPlace source n k o).InStep := by
  have hring : (s.ringPlace n k o).chooseTile.InStep := by
    refine h.keep ?_ (by simp) (by simp) (by simp) (by simp)
    rw [chooseTile_shots, ringPlace, updEntry_shots' _ _ _ (Entry.placeAt_same _ _ _)]
  unfold State.blocksPlace
  cases o with
  | reserved a b => exact hring
  | refused r =>
    exact hring.carry (overflowDecide_together hring.together source n k) ⟨by simp, by simp, by simp, by simp, fun hn => by simpa using hn⟩

@[simp] theorem leaveSocket_shots (n : Shot) (k : Socket) (t : Transfer) (b : Bool) (s : State) :
    (s.leaveSocket n k t b).shots = s.shots := by
  have hpart : ∀ f : Part → Part, (s.updEntry n (Entry.updPart k f)).shots = s.shots :=
    fun f => updEntry_shots' s n _ (Entry.updPart_same k f)
  unfold leaveSocket
  dsimp only
  split
  · simp [hpart]
  · exact hpart _

theorem blocksUnplace (h : s.InStep) {source : Node} {n : Shot} {k : Socket} : (s.blocksUnplace source n k).InStep := by
  unfold State.blocksUnplace
  have hentry : (s.updEntry n (Entry.unplaceAt s.settings.storageMode k)).shots.Together := by
    rw [updEntry_shots' _ _ _ (Entry.unplaceAt_same _ _)]
    exact h.together
  refine sleepTest (h.carry ?_ ⟨by simp, by simp, by simp, by simp, fun hn => by simpa using hn⟩)
  refine overflowDecide_together ?_ source n k
  rw [leaveSocket_shots]
  exact doIf_ind (P := fun t => t.shots.Together) _ _ _ hentry (completionTest_together hentry n)

theorem blocksCommit (h : s.InStep) {n : Shot} {k : Socket} : (s.blocksCommit n k).InStep := by
  unfold State.blocksCommit
  have hentry : (s.updEntry n (Entry.commitAt k)).shots.Together := by
    rw [updEntry_shots' _ _ _ (Entry.commitAt_same k)]
    exact h.together
  refine sleepTest (h.carry ?_ ⟨by simp, by simp, by simp, by simp, fun hn => by simpa using hn⟩)
  rw [leaveSocket_shots]
  exact doIf_ind (P := fun t => t.shots.Together) _ _ _ hentry (completionTest_together hentry n)

/-! ## Transfer -/

theorem transferGrant (h : s.InStep) {socket : Byte} {n : Shot} {count : Byte} : (s.transferGrant socket n count).InStep := by
  have hpart : ∀ (k : Socket) (f : Part → Part), (s.updEntry n (Entry.updPart k f)).shots = s.shots :=
    fun k f => updEntry_shots' s n _ (Entry.updPart_same k f)
  unfold State.transferGrant
  split
  · split
    · exact h.keep (by simp [hpart]) (by simp) (by simp) (by simp) (by simp)
    · exact h
  · exact h

theorem redo (h : s.InStep) {n : Shot} {m : Byte} : ((s.cardRedo n m).transferRedo n m).InStep := by
  have hcard : (s.cardRedo n m).InStep := by
    unfold cardRedo
    refine h.doIf (h.keep ?_ rfl rfl rfl rfl)
    exact updPlaced_shots s n _ fun p => by split <;> rfl
  unfold transferRedo
  split
  · refine hcard.keep ?_ ?_ ?_ ?_ ?_
    all_goals
      dsimp only
      split <;> simp [Entry.startPass, Entry.mapParts]
  · exact hcard

theorem takeClaim (h : s.InStep) {source : Node} {socket : Byte} {n : Shot} {count : Byte} : (s.takeClaim source socket n count).InStep := by
  unfold State.takeClaim
  refine h.doIf (h.take fun t ht => ?_)
  have hreturn : ∀ m : Node, (t.returnGrants m).shots = t.shots := by
    intro m
    unfold returnGrants
    repeat' split
    · rfl
    · rw [serve_shots]
      rfl
    · rfl
  unfold cardClaim
  dsimp only
  split
  · exact ht.keep (by simp [hreturn]) (by simp) (by simp) (by simp) (by simp)
  · refine ht.keep ?_ (by simp) (by simp) (by simp) (by simp)
    refine (onCard_shots _ ?_).trans (hreturn _)
    unfold Card.wait
    split <;> rfl

theorem bulkSent (h : s.InStep) {b : Bulk} : (s.bulkSent b).InStep := by
  unfold State.bulkSent
  split
  · exact h.onDevelop
  · refine h.keep ?_ (by simp) (by simp) (by simp) (by simp)
    unfold segmentSent
    dsimp only
    repeat' split
    all_goals simp [Entry.mapParts]
  · exact h

/-! ## The card -/

theorem unplaceSumFailure (h : s.InStep) {p : Placed} : (s.unplaceSumFailure p).InStep :=
  h.carry (unplaceSumFailure_together h.together p) ⟨by simp, by simp, by simp, by simp, fun hn => by simpa using hn⟩

theorem failTile (h : s.InStep) {p : Placed} {m : Progress} {r : RedoReason} : (s.failTile p m r).InStep := by
  unfold State.failTile
  split
  · split
    · exact h
    · exact h.keep (by simp) (by simp) (by simp) (by simp) (by simp)
  · exact h.unplaceSumFailure.sleepTest

theorem updProgress (h : s.InStep) {n : Shot} {m : Node} {f : Progress → Progress} : (s.updProgress n m f).InStep :=
  h.keep (by simp) rfl rfl rfl rfl

theorem commitTest (h : s.InStep) {n : Shot} : (s.commitTest n).InStep := h.keep (by simp) (by simp) (by simp) (by simp) (by simp)

theorem serve (h : s.InStep) : s.serve.InStep := h.keep (by simp) (by simp) (by simp) (by simp) (by simp)

theorem ejectTest (h : s.InStep) : s.ejectTest.InStep := h.keep (by simp) (by simp) (by simp) (by simp) (by simp)

theorem acceptSegment (h : s.InStep) {p : Placed} {m : Progress} {b : SegmentBody} : (s.acceptSegment p m b).InStep := by
  unfold State.acceptSegment
  have hwritten : ∀ w : List Write, (s.onCard fun c =>
      { Card.updPlaced p.shot (fun q => { q with unwritten := q.unwritten + 1 }) c with writes := w }).InStep := fun w =>
    h.keep (onCard_shots s (placements_updFirst _ (fun q => { q with unwritten := q.unwritten + 1 }) (fun _ => rfl) _)) rfl rfl rfl rfl
  dsimp only
  split
  · exact (hwritten _).updProgress
  · unfold closeTile
    dsimp only
    split
    · exact (hwritten _).updProgress.updProgress.updProgress.commitTest
    · exact (hwritten _).updProgress.updProgress.failTile

theorem judgeSegment (h : s.InStep) {p : Placed} {m : Progress} {b : SegmentBody} : (s.judgeSegment p m b).InStep := by
  have hjudged : ∀ (t : State) (q : Progress), t.InStep →
      (if b.offset.toNat ≠ q.expected ∨ badLength s.settings b = true then t.serve
        else if segmentSumOk b then t.acceptSegment p q b else (t.failTile p q .segmentSum).serve).InStep := by
    intro t q ht
    split
    · exact ht.serve
    · split
      · exact ht.acceptSegment
      · exact ht.failTile.serve
  unfold State.judgeSegment
  split
  · exact h.serve
  · exact hjudged _ _ (h.doIf h.updProgress)

theorem cardSegment (h : s.InStep) {source : Node} {b : SegmentBody} : (s.cardSegment source b).InStep := by
  have hspent : (s.onCard (Card.spendGrant source)).InStep := h.keep rfl rfl rfl rfl rfl
  unfold State.cardSegment
  split
  · split
    · exact h
    · split
      · exact hspent.judgeSegment
      · exact h
  · exact h

theorem takeSegment (h : s.InStep) {source : Node} {b : SegmentBody} : (s.takeSegment source b).InStep :=
  h.doIf (h.take fun _ ht => ht.cardSegment)

theorem completeWrite (h : s.InStep) {p : Write → Bool} {f : Write → State → State} (hf : ∀ w t, t.InStep → (f w t).InStep) :
    (s.completeWrite p f).InStep := by
  unfold State.completeWrite
  split
  · exact h
  · split
    · refine ejectTest (hf _ _ (h.keep ?_ ?_ ?_ ?_ ?_)) <;> rfl
    · exact h

theorem blockWritten (h : s.InStep) {w : Write} : (s.blockWritten w).InStep := by
  unfold State.blockWritten
  split
  · exact h
  · refine commitTest (serve (h.keep (updPlaced_shots s _ _ fun _ => by rfl) ?_ ?_ ?_ ?_)) <;> rfl

theorem indexWritten (h : s.InStep) {w : Write} : (s.indexWritten w).InStep := by
  have hdrop : (s.onCard fun c => Card.dropGrants w.shot { c with placements := c.placements.eraseP (·.shot == w.shot) }).InStep := by
    refine h.carry ?_ ⟨rfl, rfl, rfl, rfl, id⟩
    have hshots : (s.onCard fun c => Card.dropGrants w.shot { c with placements := c.placements.eraseP (·.shot == w.shot) }).shots =
        { s.shots with placements := s.shots.placements.erase w.shot } := by
      simp only [shots, onCard, Card.dropGrants]
      rw [placements_eraseP]
    rw [hshots]
    exact h.together.unplace w.shot
  unfold State.indexWritten
  split
  · split
    · exact h
    · dsimp only
      exact (onNotices (serve (hdrop.broadcast))).sleepTest
  · exact h

theorem voidWritten (h : s.InStep) {w : Write} : (s.voidWritten w).InStep := by
  unfold State.voidWritten
  split
  · exact h
  · exact h.broadcast

theorem changeCard (h : s.InStep) {st : CardState} {r : Option Roll} : (s.changeCard st r).InStep := h.keep rfl rfl rfl rfl rfl

theorem dropAll (h : s.InStep) {r : UnplaceReason} : (s.dropAll r).InStep :=
  h.carry (dropAll_shots r s ▸ h.together.unplaceAll) ⟨by simp, by simp, by simp, by simp, fun hn => by simpa using hn⟩

theorem rePlace (h : s.InStep) : s.rePlace.InStep :=
  h.carry (rePlace_together h.together) ⟨by simp, by simp, by simp, by simp, fun hn => by simpa using hn⟩

theorem insertCard (h : s.InStep) {m : Medium} : (s.insertCard m).InStep := by
  have hin : (s.onCard fun c => { c with medium := some m }).InStep := h.keep rfl rfl rfl rfl rfl
  unfold State.insertCard
  split
  · dsimp only
    split
    next hp => exact hin.wakeUp hp
    · exact hin.doIf hin.changeCard
  · exact h

theorem mountDone (h : s.InStep) : s.mountDone.InStep := by
  unfold State.mountDone
  split
  · exact h
  · split
    · exact h.changeCard.rePlace
    · exact h

theorem removeCard (h : s.InStep) : s.removeCard.InStep := by
  have hout : (s.onCard fun c => { c with medium := none }).InStep := h.keep rfl rfl rfl rfl rfl
  unfold State.removeCard
  split
  · exact hout.doIf hout.changeCard.dropAll.sleepTest
  · exact h

theorem formatDone (h : s.InStep) : s.formatDone.InStep := by
  unfold State.formatDone
  split
  · split
    · refine rePlace (changeCard ?_)
      exact h.keep rfl rfl rfl rfl rfl
    · exact h
  · exact h

end InStep

end State

end Sys2Proof.Machine
end

section
/-! PROOF. Requests, Restart, Start and the link keep slots, roster and placement list in step; so does every step (O59). -/

namespace Sys2Proof.Machine

/-- What an action makes of a station at work is in step. -/
structure Action.InStep (act : Action) : Prop where
  keeps : ∀ t : State, t.AtWork → (act t).1.InStep

/-- A request that a block settles, but for a Status, meets a station in Configuring or Ready. -/
theorem settleRequest_none {st : StationState} {code : Byte} {b : Bool} (h : settleRequest st code b = none) (hc : code ≠ statusCode) :
    st = .configuring ∨ st = .ready := by
  cases st
  case configuring => exact .inl rfl
  case ready => exact .inr rfl
  all_goals
    cases b <;> simp [settleRequest, hc] at h

namespace State

variable {s : State}

/-- An operation that changes none of what the invariant speaks of leaves a station at work in step. -/
theorem AtWork.keepInStep (h : s.AtWork) {t : State} (ht : t.shots = s.shots) (hm : t.member = s.member) (hp : t.power = s.power) :
    t.InStep := (h.keep ht hm hp).inStep

namespace InStep

/-! ## Requests -/

theorem settle (h : s.InStep) {hd : ReqHeader} {code : Byte} {b : Bool} {act : Action}
    (hf : settleRequest s.member.state code b = none → (act s).1.InStep) : (s.settle hd code b act).InStep := by
  unfold State.settle
  split
  · exact h.queue
  next hn => exact doIf (hf hn).queue (hf hn).queue.sleepTest

theorem request (h : s.InStep) {hd : ReqHeader} {code : Byte} {act : Action} (hc : code ≠ statusCode) (hf : Action.InStep act) :
    (s.request hd code act).InStep :=
  h.takeAwake fun t ht hp => ht.settle fun hn =>
    hf.keeps t ⟨ht.together, fun hr => by obtain hm | hm := settleRequest_none hn hc <;> simp [hr] at hm, hp⟩

theorem unreadable (h : s.InStep) {hd : ReqHeader} {code : Byte} : (s.unreadable hd code).InStep :=
  h.take fun _ ht => ht.settle fun _ => ht

theorem resized_together (h : s.shots.Together) : s.resized.shots.Together := emptyRing_together (by rwa [invalidateDark_shots])

end InStep

namespace AtWork

theorem actSet (h : s.AtWork) {b : Bool} {item : Byte} {v : Word32} : (actSet b item v s).1.InStep := by
  have hdefect : (setDefect v s).1.InStep := by
    unfold setDefect
    dsimp only
    split
    · exact h.inStep
    · split
      · exact h.inStep
      · exact inStep_of_awake h.together h.notRolling h.notAsleep
  unfold Machine.actSet
  split
  · exact hdefect
  · split
    · exact h.inStep
    · split
      · exact h.inStep
      · split
        · exact h.inStep
        next st _ _ _ =>
          have hset : (s.onMember fun m => { m with settings := st }).reconfigured.AtWork := ⟨h.together, h.notRolling, h.notAsleep⟩
          exact hset.inStep.doIf (AtWork.inStep ⟨InStep.resized_together hset.together, by simpa using hset.notRolling, by simpa using hset.notAsleep⟩)

theorem actBegin (h : s.AtWork) : (actBegin s).1.InStep := by
  unfold Machine.actBegin
  split
  · exact h.inStep
  · refine inStep_of_awake (enterReady_together h.together) ?_ (by simpa using h.notAsleep)
    simp [onMember, Membership.begin]

theorem leaveDoze (h : s.AtWork) : s.leaveDoze.AtWork := by
  unfold State.leaveDoze State.doIf
  split
  · exact ⟨h.together, h.notRolling, by simp [onPower]⟩
  · exact h

theorem becomeArmed (h : s.AtWork) : s.becomeArmed.AtWork := h.keep rfl rfl rfl

theorem actArm (h : s.AtWork) : (actArm s).1.InStep := by
  unfold Machine.actArm
  split
  · exact h.inStep
  · split
    · exact h.leaveDoze.becomeArmed.inStep
    · exact h.leaveDoze.inStep
    · exact h.leaveDoze.keepInStep rfl rfl rfl

theorem actDisarm (h : s.AtWork) : (actDisarm s).1.InStep := h.keepInStep rfl rfl rfl

theorem actResume (h : s.AtWork) : (actResume s).1.InStep := by
  unfold Machine.actResume
  repeat' split
  · exact h.becomeArmed.inStep
  · exact h.keepInStep rfl rfl rfl
  · exact h.inStep

theorem actRelease (h : s.AtWork) {t : Time} : (actRelease t s).1.InStep := by
  unfold Machine.actRelease
  repeat' split
  · exact h.inStep
  · exact h.inStep
  · exact h.inStep
  · unfold armRelease testAlarm State.doIf
    split
    · exact h.keepInStep rfl rfl rfl
    · exact h.keepInStep rfl rfl rfl

theorem actExposure (h : s.AtWork) {v : Word32} : (actExposure v s).1.InStep := by
  unfold Machine.actExposure
  split
  · exact h.keepInStep rfl rfl rfl
  · exact h.inStep

theorem actTakeDark (h : s.AtWork) {v : Word32} : (actTakeDark v s).1.InStep := by
  unfold Machine.actTakeDark
  repeat' split
  · exact h.inStep
  · exact h.inStep
  · exact h.keepInStep (by simp) (by simp) (by simp)

theorem actKeep (h : s.AtWork) {n : Shot} : (actKeep n s).1.InStep := by
  unfold Machine.actKeep
  split
  · split
    · have hdeveloped := updSlot_shots s n (fun y => { y with tag := .developed }) fun _ => by rfl
      exact h.keepInStep (by rw [chooseTile_shots, hdeveloped]) (by simp) (by simp)
    · exact h.inStep
  · exact h.inStep

theorem actDiscard (h : s.AtWork) {b : Bool} {n : Shot} : (actDiscard b n s).1.InStep := by
  unfold Machine.actDiscard
  split
  · exact h.inStep
  · split
    · split
      · exact (h.carry (freeSlot_together h.together n) (by simp) (by simp)).inStep
      · exact h.inStep
    · exact h.inStep

theorem actForgetHot (h : s.AtWork) : (actForgetHot s).1.InStep := by
  unfold Machine.actForgetHot
  split
  · exact h.inStep
  · exact h.keepInStep rfl rfl rfl

theorem actHistogram (h : s.AtWork) {n : Shot} : (actHistogram n s).1.InStep := by
  unfold Machine.actHistogram
  repeat' split
  all_goals exact h.inStep

theorem beginFormat (h : s.AtWork) : s.beginFormat.InStep := by
  unfold State.beginFormat
  split
  · exact h.inStep
  · exact h.keepInStep rfl rfl rfl

theorem actFormat (h : s.AtWork) {k : Byte} : (actFormat k s).1.InStep := by
  unfold Machine.actFormat
  split
  · exact h.inStep
  · split
    case h_7 => exact h.beginFormat
    case h_8 =>
      split
      · exact h.beginFormat
      · exact h.inStep
    all_goals exact h.inStep

theorem actEject (h : s.AtWork) {k : Byte} : (actEject k s).1.InStep := by
  unfold Machine.actEject
  split
  · exact h.inStep
  · split
    case h_7 => exact h.inStep.changeCard
    case h_8 => exact h.inStep.changeCard.ejectTest
    all_goals exact h.inStep

theorem actDumpWake (h : s.AtWork) : (actDumpWake s).1.InStep := by
  unfold Machine.actDumpWake
  split
  · exact h.keepInStep rfl rfl rfl
  · exact h.inStep

theorem actSleep (h : s.AtWork) : (actSleep s).1.InStep := h.inStep.doIf (h.inStep.enterDoze h.notAsleep)

end AtWork

namespace InStep

theorem status (h : s.InStep) {hd : ReqHeader} : (s.request hd statusCode actStatus).InStep :=
  h.take fun _ ht => ht.settle fun _ => ht.onNotices

/-- What each readable request but Status does at a station at work. -/
theorem reqAction {b : Bool} (r : Req) : Action.InStep (r.action b) where
  keeps t h := by
    cases r
    case setItem => exact h.actSet
    case beginConf => exact h.actBegin
    case arm => exact h.actArm
    case disarm => exact h.actDisarm
    case resume => exact h.actResume
    case release => exact h.actRelease
    case exposure => exact h.actExposure
    case takeDark => exact h.actTakeDark
    case keep => exact h.actKeep
    case discard => exact h.actDiscard
    case forgetHot => exact h.actForgetHot
    case histogram => exact h.actHistogram
    case format => exact h.actFormat
    case eject => exact h.actEject
    case status => exact h.inStep.onNotices
    case dumpWake => exact h.actDumpWake
    case sleep => exact h.actSleep
    case unreadable => exact h.inStep

/-- The Status code spells a Status, or with arguments nothing. -/
theorem read_status (args : List Byte) : Req.read statusCode args = if args.isEmpty then .status else .unreadable := rfl

theorem takeRequest (h : s.InStep) {source : Node} {b : Bool} {tag code : Byte} {args : List Byte} :
    (s.takeRequest source b tag code args).InStep := by
  unfold State.takeRequest
  split
  · split
    · exact h.unreadable
    next hr =>
      by_cases hc : code = statusCode
      · subst hc
        rw [read_status] at hr ⊢
        split
        · exact h.status
        next hne => exact absurd (if_neg hne) hr
      · exact h.request hc (reqAction _)
  · exact h

/-! ## Restart and Start -/

theorem developRestart_shots (s : State) : s.developRestart.shots = s.shots := by
  unfold developRestart
  split
  · rfl
  next j _ =>
    have htag := updSlot_shots s.stopJob j.shot (fun x => { x with tag := if x.tag = .developing then .raw else x.tag }) fun _ => by rfl
    rw [onDevelop_shots, htag, stopJob_shots]

theorem captureRestart_shots (s : State) (b : Bool) : (s.captureRestart b).shots = s.shots := by simp [captureRestart]

theorem ringRestart_together (h : s.shots.Together) : s.ringRestart.shots.Together := by
  unfold ringRestart
  dsimp only
  refine freeAll_together ?_ _
  have hreset : ((s.onTransfer fun t => { t with current := none }).onRing fun r =>
      { r with roster := r.roster.map Entry.resetTransfer }).shots = s.shots := by
    simp only [shots, onRing, onTransfer, List.map_map]
    rfl
  rwa [hreset]

theorem cardRestart_shots (s : State) : (s.onCard Card.restart).shots = s.shots := by
  refine onCard_shots s ?_
  simp only [Card.restart, List.map_map]
  refine List.map_congr_left fun p _ => ?_
  simp only [Function.comp, Placed.restart]
  split <;> rfl

theorem redoFilling_shots (s : State) : s.redoFilling.shots = s.shots := shots_congr (by simp) (by simp)

/-- Every block's Restart handling. -/
theorem blocksRestart_together (h : s.shots.Together) (b : Bool) :
    ((((s.onCard Card.clearBuffers).developRestart.captureRestart b).ringRestart).onCard Card.restart).refillOwed.shots.Together := by
  have hcleared : ((s.onCard Card.clearBuffers).developRestart.captureRestart b).shots.Together := by
    rw [captureRestart_shots, developRestart_shots]
    exact h
  have hring := ringRestart_together hcleared
  rw [← cardRestart_shots] at hring
  exact hring

theorem redone_together (h : s.shots.Together) (b c : Bool) : ((s.doIf b resized).doIf c redoFilling).shots.Together := by
  have hresized : (s.doIf b resized).shots.Together := doIf_ind (P := fun t => t.shots.Together) _ _ _ h (resized_together h)
  exact doIf_ind (P := fun t => t.shots.Together) _ _ _ hresized (by rwa [redoFilling_shots])

theorem redoFilling_dark (b : Bool) (s : State) : (s.doIf b redoFilling).dark = s.dark := by cases b <;> simp [State.doIf]

theorem restart (h : s.InStep) {a b : Bool} : (s.restart a b).InStep := by
  unfold State.restart
  dsimp only
  refine setupRollCall (redone_together (blocksRestart_together ?_ _) _ _) ?_ ?_
  · exact h.leaveDoze.together
  · simp [captureRestart]
  · rw [(redoFilling_dark _ _)]
    refine doIf_ind (P := fun t => t.dark.capture = none) _ _ _ ?_ ?_ <;>
      simp [captureRestart, State.resized, invalidateDark, abandonDark_none]

theorem takeRestart (h : s.InStep) {a b : Bool} : (s.takeRestart a b).InStep := by
  unfold State.takeRestart
  split
  · exact h
  · exact h.restart

theorem start (s : State) {straps : Straps} {serial : Word32} {busy : Bool} : (s.start straps serial busy).InStep := by
  have hfresh : (s.fresh straps serial busy).shots = State.reset.shots := rfl
  have hmounted : (s.fresh straps serial busy).mountIfPresent.shots.Together := by
    rw [mountIfPresent_shots, hfresh]
    exact ((State.shotsInStep_iff _).mp resetKeepsTheInvariants.2.1).together
  unfold State.start
  dsimp only
  split
  · refine inStep_of_awake hmounted ?_ ?_ <;> simp [onMember, fresh]
  · refine setupRollCall hmounted ?_ ?_ <;> simp [fresh]

end InStep

end State

end Sys2Proof.Machine
end

section
/-! PROOF. The link's commands, every command, and every step keep slots, roster and placement list in step (O59). -/

namespace Sys2Proof.Machine

namespace State.InStep

variable {s : State}

theorem takeMark (h : s.InStep) {time start : Time} : (s.takeMark time start).InStep := h.take fun _ ht => ht.clockMark

theorem endPulse (h : s.InStep) : s.endPulse.InStep := h.doIf h.edge

theorem acceptLevel (h : s.InStep) {level : Level} : (s.acceptLevel level).InStep := h.doIf h.sample

theorem wakeSample (h : s.InStep) : s.wakeSample.InStep := by
  unfold State.wakeSample
  split
  · exact h
  · exact h.doIf h.sample

theorem takeWake (h : s.InStep) {source : Node} {mask : Byte} {cause : WakeFrameCause} : (s.takeWake source mask cause).InStep := by
  unfold State.takeWake
  split
  · split
    · exact h
    · exact h.leaveDoze
    next hp => exact h.wakeUp hp
  · exact h

theorem writeError (h : s.InStep) : s.writeError.InStep := h.doIf h.changeCard.dropAll.sleepTest

theorem mountError (h : s.InStep) : s.mountError.InStep := h.doIf h.changeCard

/-! ## Delivery and the link -/

theorem deliverMsg (h : s.InStep) {source : Node} {b : Bool} {t : Time} (msg : Msg) : (s.deliverMsg source b t msg).InStep := by
  cases msg
  case roll => exact h.takeRoll
  case mark => exact h.takeMark
  case openShot => exact h.takeCapture fun _ ht hf => (ht.atWork_inForce hf).captureOpen.inStep
  case closeShot => exact h.takeCapture fun _ ht hf => (ht.atWork_inForce hf).captureClose.inStep
  case refuse => exact h.takeCapture fun _ ht hf => (ht.atWork_inForce hf).captureRefuse
  case readDone => exact h.takeCapture fun _ ht hf => (ht.atWork_inForce hf).captureReadDone.inStep
  case place => exact h.take fun _ ht => ht.blocksPlace
  case unplace => exact h.take fun _ ht => ht.blocksUnplace
  case claim => exact h.takeClaim
  case grant => exact h.take fun _ ht => ht.transferGrant
  case redo => exact h.take fun _ ht => ht.redo
  case commit => exact h.take fun _ ht => ht.blocksCommit
  case request => exact h.takeRequest
  case answer => exact h
  case notice => exact h
  case restart => exact h.takeRestart
  case wake => exact h.takeWake
  case seam => exact h.take fun _ ht => ht.engineSeam
  case segment => exact h.takeSegment

theorem deliver (h : s.InStep) {f : WireFrame} {t : Time} : (s.deliver f t).InStep := by
  unfold State.deliver deliverUnlisted
  split
  · split
    · exact h.deliverMsg _
    · split
      · exact h
      · exact h.take fun _ ht => ht
  · exact h

theorem buildBulk (h : s.InStep) : s.buildBulk.InStep :=
  h.keep (shots_congr (by simp) (by simp)) (by simp) (by simp) (by simp) (by simp)

theorem prepareOffer (h : s.InStep) : s.prepareOffer.InStep := by
  unfold State.prepareOffer
  exact h.onLink.doIf h.onLink.buildBulk

theorem rivalBegins (h : s.InStep) : s.rivalBegins.InStep := by
  unfold State.rivalBegins
  split
  · exact h.onLink
  · exact h.onLink
  · exact h

theorem meetFreeLink (h : s.InStep) {rival : Option WireFrame} : (s.meetFreeLink rival).InStep := by
  unfold State.meetFreeLink offerAgainst
  split
  · split
    · exact h.prepareOffer.doIf h.prepareOffer.onLink
    · split
      · exact h.prepareOffer.onLink
      · exact h.prepareOffer.onLink
  · exact h.doIf h.rivalBegins

theorem frameSent (h : s.InStep) : s.frameSent.InStep := by
  unfold State.frameSent
  split
  · exact h.onLink
  · exact h.onLink
  · split
    · exact h
    · exact h.onLink.bulkSent
  · exact h

theorem judgeFrame (h : s.InStep) {f : WireFrame} {b : Bool} : (s.judgeFrame f b).InStep := by
  unfold State.judgeFrame
  dsimp only
  split
  · exact (h.doIf h.onLink).onLink.onLink
  · split
    · exact h.frameSent.onLink.onLink
    · exact h.frameSent.onLink.deliver

theorem frameEnds (h : s.InStep) {f : WireFrame} {b : Bool} : (s.frameEnds f b).InStep := by
  unfold State.frameEnds endFrameAsleep endFrame
  split
  · split
    · split
      · exact h.onLink.deliver
      · exact h.onLink
    · exact h.judgeFrame.doIf h.judgeFrame.sleepTest
  · exact h.onLink

theorem giveNotice (h : s.InStep) : s.giveNotice.InStep := by
  unfold State.giveNotice
  split
  · split
    · exact h
    · split
      · exact h
      · exact h.queue.onNotices
  · exact h

/-! ## Every command and every step -/

theorem event {t : State} {handle : State → State} (h : s.InStep) (ht : s.event handle = .next t)
    (hf : ∀ u : State, u.InStep → (handle u).InStep) : t.InStep := by
  cases ht
  exact hf _ h.expiriesFirst

/-- A request's command, at a code that is not Status's. -/
theorem requestEvent {t : State} {hd : ReqHeader} {code : Byte} {act : Action} (h : s.InStep)
    (ht : s.event (State.request hd code act) = .next t) (hf : ∀ u : State, u.AtWork → (act u).1.InStep)
    (hc : code ≠ statusCode := by decide) : t.InStep :=
  h.event ht fun _ hu => hu.request hc ⟨hf⟩

theorem exec {t : State} {c : Instr} (h : s.InStep) (ht : exec c s = .next t) : t.InStep := by
  cases c
  case start => cases ht; exact InStep.start s
  case rollWaitExpiry => cases ht; exact h.doIf h.expire
  case rollWindowExpiry => cases ht; exact h.doIf h.expire
  case markTimerExpiry | attributionExpiry | pulseTimerExpiry | exposureLimitExpiry | darkTimerExpiry | quietTimerExpiry |
    seamTimerExpiry => cases ht; exact h.expire
  case linkFreeOffer => exact h.event ht fun _ h => h.meetFreeLink
  case frameEnd => exact h.event ht fun _ h => h.frameEnds
  case heldFrameAdmit => exact h.event ht fun _ h => h.onLink
  case noticeAdmit => exact h.event ht fun _ h => h.giveNotice
  case rollTaken => exact h.event ht fun _ h => h.takeRoll
  case restartTaken => exact h.event ht fun _ h => h.takeRestart
  case markTaken => exact h.event ht fun _ h => h.takeMark
  case releaseAlarmFire => exact h.event ht fun _ h => h.countToAlarm
  case releasePulseEnd => exact h.event ht fun _ h => h.endPulse
  case syncClosingEdge => exact h.event ht fun _ h => h.acceptLevel
  case syncOpeningEdge => exact h.event ht fun _ h => h.acceptLevel
  case syncWake => exact h.event ht fun _ h => h.wakeSample
  case openTaken => exact h.event ht fun _ h => h.takeCapture fun _ ht hf => (ht.atWork_inForce hf).captureOpen.inStep
  case closeTaken => exact h.event ht fun _ h => h.takeCapture fun _ ht hf => (ht.atWork_inForce hf).captureClose.inStep
  case refuseTaken => exact h.event ht fun _ h => h.takeCapture fun _ ht hf => (ht.atWork_inForce hf).captureRefuse
  case readDoneTaken => exact h.event ht fun _ h => h.takeCapture fun _ ht hf => (ht.atWork_inForce hf).captureReadDone.inStep
  case readoutComplete => exact h.event ht fun _ h => h.readoutDone
  case darkReadoutComplete => exact h.event ht fun _ h => h.darkReadoutDone
  case hotInsertion => exact h.event ht fun _ h => h.scanStep
  case darkScanComplete => exact h.event ht fun _ h => h.scanDone
  case placeTaken => exact h.event ht fun _ h => h.take fun _ h => h.blocksPlace
  case unplaceTaken => exact h.event ht fun _ h => h.take fun _ h => h.blocksUnplace
  case commitTaken => exact h.event ht fun _ h => h.take fun _ h => h.blocksCommit
  case phaseBaseComplete => exact h.event ht fun _ h => h.inPhase fun _ => h.endBase
  case phaseInteriorComplete => exact h.event ht fun _ h => h.inPhase fun _ => h.endInterior
  case edgeRepairsComplete => exact h.event ht fun _ h => h.inPhase fun _ => h.endEdge
  case phaseGainComplete => exact h.event ht fun _ h => h.inPhase fun _ => h.endGain
  case phaseFinishComplete => exact h.event ht fun _ h => h.inPhase fun _ => h.endFinish
  case seamTaken => exact h.event ht fun _ h => h.take fun _ h => h.engineSeam
  case claimTaken => exact h.event ht fun _ h => h.takeClaim
  case grantTaken => exact h.event ht fun _ h => h.take fun _ h => h.transferGrant
  case segmentTaken => exact h.event ht fun _ h => h.takeSegment
  case redoTaken => exact h.event ht fun _ h => h.take fun _ h => h.redo
  case cardBlockWriteComplete => exact h.event ht fun _ h => h.completeWrite fun _ _ h => h.blockWritten
  case headerWriteComplete => exact h.event ht fun _ h => h.completeWrite fun _ _ h => h
  case indexWriteComplete => exact h.event ht fun _ h => h.completeWrite fun _ _ h => h.indexWritten
  case voidWriteComplete => exact h.event ht fun _ h => h.completeWrite fun _ _ h => h.voidWritten
  case cardWriteError => exact h.event ht fun _ h => h.writeError
  case cardInserted => exact h.event ht fun _ h => h.insertCard
  case mountReadComplete => exact h.event ht fun _ h => h.mountDone
  case mountReadError => exact h.event ht fun _ h => h.mountError
  case cardRemoved => exact h.event ht fun _ h => h.removeCard
  case formatComplete => exact h.event ht fun _ h => h.formatDone
  case wakeTaken => exact h.event ht fun _ h => h.takeWake
  case sleepEntry => exact h.event ht fun _ h => h.sleepTest
  case setItem => exact h.requestEvent ht fun _ h => h.actSet
  case beginConf => exact h.requestEvent ht fun _ h => h.actBegin
  case arm => exact h.requestEvent ht fun _ h => h.actArm
  case disarm => exact h.requestEvent ht fun _ h => h.actDisarm
  case resume => exact h.requestEvent ht fun _ h => h.actResume
  case release => exact h.requestEvent ht fun _ h => h.actRelease
  case exposure => exact h.requestEvent ht fun _ h => h.actExposure
  case takeDark => exact h.requestEvent ht fun _ h => h.actTakeDark
  case keep => exact h.requestEvent ht fun _ h => h.actKeep
  case discard => exact h.requestEvent ht fun _ h => h.actDiscard
  case forgetHot => exact h.requestEvent ht fun _ h => h.actForgetHot
  case histogram => exact h.requestEvent ht fun _ h => h.actHistogram
  case format => exact h.requestEvent ht fun _ h => h.actFormat
  case eject => exact h.requestEvent ht fun _ h => h.actEject
  case status => exact h.event ht fun _ h => h.status
  case dumpWake => exact h.requestEvent ht fun _ h => h.actDumpWake
  case sleep => exact h.requestEvent ht fun _ h => h.actSleep
  case requestUnknownCode => exact h.event ht fun _ h => h.unreadable
  case tapEdge => exact h.event ht fun _ h => h.edge
  case syncSample => exact h.event ht fun _ h => h.sample
  case frameStart => exact h.event ht fun _ h => h.rivalBegins

end State.InStep

/-- Settles O59, by `State.InStep`, which every operation keeps. -/
theorem stepsKeepRosterAndRingTogether : Obligations.StepsKeepRosterAndRingTogether := by
  intro s t hs h
  rw [State.shotsInStep_iff] at hs ⊢
  unfold step at h
  split at h
  next c rest _ =>
    have hrest : State.InStep { s with pending := rest } := ⟨hs.together, hs.bound, hs.idle⟩
    exact hrest.exec h
  · split at h
    · exact hs.exec h
    · cases h
      exact hs.tick

end Sys2Proof.Machine
end

section
/-! PROOF. The dark capture: its integration's end, its readout, and its scan (R99-R108). -/

namespace Sys2Proof.Machine

/-- What an insertion into the Defect Table leaves of it (R108). -/
structure Dark.Inserted (row column : Nat) (d e : Dark) : Prop where
  sorted : e.defects.Pairwise (fun a b => a.before b = true)
  rest : e = { d with defects := e.defects, overflow := e.overflow }
  held : d.holds row column = true → e.defects = d.defects ∧ e.overflow = d.overflow
  full : d.holds row column = false → 1024 ≤ d.defects.length → e.defects = d.defects ∧ e.overflow = satInc 65535 d.overflow
  room : d.holds row column = false → d.defects.length < 1024 → e.overflow = d.overflow ∧
    ∀ a, a ∈ e.defects ↔ a ∈ d.defects ∨ a = { row := row, column := column, origin := .hot }

/-! ## The order of the Defect Table -/

theorem Defect.before_iff (a b : Defect) : a.before b = true ↔ a.row < b.row ∨ a.row = b.row ∧ a.column < b.column := by
  simp [Defect.before]

theorem Defect.before_trans {a b c : Defect} (hab : a.before b = true) (hbc : b.before c = true) : a.before c = true := by
  rw [Defect.before_iff] at *
  omega

/-- Of two entries at different positions one comes before the other. -/
theorem Defect.before_of_not {a b : Defect} (h : ¬a.before b = true) (hne : a.row ≠ b.row ∨ a.column ≠ b.column) : b.before a = true := by
  rw [Defect.before_iff] at *
  omega

/-- An entry at a position of its own keeps the table in order. -/
theorem insertDefect_sorted {e : Defect} {l : List Defect} (h : l.Pairwise (fun a b => a.before b = true))
    (hnew : ∀ d ∈ l, e.row ≠ d.row ∨ e.column ≠ d.column) : (insertDefect e l).Pairwise (fun a b => a.before b = true) := by
  induction l with
  | nil => simp [insertDefect]
  | cons d ds ih =>
    obtain ⟨hd, hds⟩ := List.pairwise_cons.mp h
    rw [insertDefect]
    split
    next hb =>
      refine List.pairwise_cons.mpr ⟨fun a ha => ?_, h⟩
      obtain rfl | ha := List.mem_cons.mp ha
      · exact hb
      · exact Defect.before_trans hb (hd a ha)
    next hb =>
      refine List.pairwise_cons.mpr ⟨fun a ha => ?_, ih hds fun a ha => hnew a (List.mem_cons_of_mem _ ha)⟩
      obtain rfl | ha := (insertDefect_mem _ _ _).mp ha
      · exact Defect.before_of_not hb (hnew d List.mem_cons_self)
      · exact hd a ha

theorem Dark.insert_hot {d : Dark} (h : d.defects.Pairwise (fun a b => a.before b = true)) (row column : Nat) :
    Dark.Inserted row column d (d.insert row column .hot) := by
  unfold Dark.insert
  split
  next hh => exact ⟨h, rfl, fun _ => ⟨rfl, rfl⟩, fun hf => by simp [hh] at hf, fun hf => by simp [hh] at hf⟩
  next hh =>
    split
    next hf =>
      have hlen : 1024 ≤ d.defects.length := of_decide_eq_true hf
      exact ⟨h, rfl, fun ht => absurd ht hh, fun _ _ => ⟨rfl, rfl⟩, fun _ hl => absurd hl (by omega)⟩
    next hf =>
      have hlen : d.defects.length < 1024 := by
        by_contra hle
        exact hf (decide_eq_true (Nat.le_of_not_lt hle))
      refine ⟨insertDefect_sorted h fun a ha => ?_, rfl, fun ht => absurd ht hh, fun _ hl => absurd hl (by omega),
        fun _ _ => ⟨rfl, fun a => (insertDefect_mem _ _ _).trans or_comm⟩⟩
      by_contra hno
      push Not at hno
      refine hh (List.any_eq_true.mpr ⟨a, ha, ?_⟩)
      obtain ⟨hrow, hcolumn⟩ := hno
      simp [← hrow, ← hcolumn]

/-! ## The next hot pixel -/

/-- The first sample above the threshold, with none above it before. -/
theorem hotIndices_of_first (threshold k : Nat) {l : List Sample} {i : Nat} {v : Sample} (hv : l[i]? = some v) (hhot : threshold < v.toNat)
    (hcool : ∀ j, j < i → ∀ w, l[j]? = some w → w.toNat ≤ threshold) :
    ∃ rest, hotIndices threshold k l = (k + i) :: rest := by
  induction l generalizing k i with
  | nil => simp at hv
  | cons w ws ih =>
    cases i with
    | zero =>
      cases hv
      exact ⟨_, if_pos hhot⟩
    | succ i =>
      have hw : ¬threshold < w.toNat := Nat.not_lt.mpr (hcool 0 (Nat.succ_pos _) w rfl)
      obtain ⟨rest, hr⟩ := ih (k + 1) (i := i) (by simpa using hv) fun j hj w' hw' => hcool (j + 1) (by omega) w' (by simpa using hw')
      exact ⟨rest, by rw [hotIndices, if_neg hw, hr]; congr 1; omega⟩

theorem State.hotAhead_of_first {k : DarkCapture} {i : Nat} {v : Sample} {s : State} (hle : k.scanned ≤ i) (hlt : i < pixelCount s.settings)
    (hv : s.dark.samples[i]? = some v) (hhot : s.settings.hotThreshold < v.toNat)
    (hcool : ∀ j, k.scanned ≤ j → j < i → ∀ w, s.dark.samples[j]? = some w → w.toNat ≤ s.settings.hotThreshold) :
    ∃ rest, s.hotAhead k = i :: rest := by
  have hget : ∀ j, k.scanned + j ≤ i →
      ((s.dark.samples.take (pixelCount s.settings)).drop k.scanned)[j]? = s.dark.samples[k.scanned + j]? := by
    intro j hj
    rw [List.getElem?_drop, List.getElem?_take, if_pos (by omega)]
  obtain ⟨rest, hr⟩ := hotIndices_of_first s.settings.hotThreshold k.scanned (i := i - k.scanned)
    (l := (s.dark.samples.take (pixelCount s.settings)).drop k.scanned) (v := v)
    (by rw [hget _ (by omega), Nat.add_sub_cancel' hle, hv]) hhot
    fun j hj w hw => hcool (k.scanned + j) (by omega) (by omega) w (by rw [← hget j (by omega)]; exact hw)
  exact ⟨rest, by rw [State.hotAhead, hr, Nat.add_sub_cancel' hle]⟩

/-! ## The end of integration, the readout, the scan -/

theorem State.expire_dark {s : State} (h : s.expires .dark) (hc : s.capture.state = .darkExposing) :
    s.expire .dark = { s with
      clock := s.clockAfter .dark
      capture := { s.capture with state := .darkReading }
      dark := { s.dark with capture := s.dark.capture.map fun k => { k with phase := .reading, captureEnd := some s.clock.linkTime } } } := by
  rw [State.expire_expires h]
  simp [TimerId.handle, State.darkExpiry, hc, State.onCapture, State.updDarkCapture, State.onDark]
  rfl

/-- Settles O33: the timer's expiry and the readout by their rows, and one insertion by the table of R108. -/
theorem darkCaptureRunsToItsScan : Obligations.DarkCaptureRunsToItsScan := by
  refine ⟨fun samples s => ⟨fun hd hc => congrArg _ (State.expire_dark hd hc), fun hd hc => ?_, fun k hcalm hc hk hp => ?_⟩,
    fun k i v s hcalm hk hp hle hlt hv hhot hcool hsorted => ?_⟩
  · refine congrArg _ ((State.expire_expires hd).trans ?_)
    simp [TimerId.handle, State.darkExpiry, hc]
  · have hport : s.port = .readOut .darkSlot := by simp [State.port, hc, hk, hp]
    refine (State.event_of_calm _ s hcalm).trans (congrArg _ ?_)
    simp [State.darkReadoutDone, hport, State.updDarkCapture, State.onDark, hk]
  · obtain ⟨rest, hahead⟩ := State.hotAhead_of_first hle hlt hv hhot hcool
    have hexec : exec .hotInsertion s = .next (s.insertHot i) := by
      refine (State.event_of_calm _ s hcalm).trans (congrArg _ ?_)
      simp [State.scanStep, hk, hp, hahead]
    have hins := Dark.insert_hot hsorted (i / s.settings.tileColumns) (i % s.settings.tileColumns)
    refine ⟨_, hexec, rfl, ?_, hins.sorted, hins.held, hins.full, hins.room⟩
    simp only [State.insertHot, State.onDark, hk, Option.map_some]
    rw [hins.rest]

/-! ## The end of the scan -/

/-- Slots and roster in step depend on the shot numbers alone. -/
theorem State.ringOk.congr {s t : State} (h : s.ringOk) (ht : t.shots = s.shots) : t.ringOk := by
  rw [State.ringOk_iff] at h ⊢
  rwa [ht]

theorem State.completeDark_shots (k : DarkCapture) (s : State) : (s.completeDark k).shots = s.shots := by simp [State.completeDark]

/-- A completed dark capture, before the Develop Engine is asked for its next shot. -/
def State.darkCompleted (k : DarkCapture) (s : State) : State :=
  { s with
    dark := { s.dark with valid := true, duration := some k.duration, captureEnd := k.captureEnd, capture := none }
    capture := { s.capture with state := s.capture.settledState, haltPending := false, disarmPending := false, exposure := none }
    link := s.linkAfter 15#4 (.readDone k.shot .dark false)
    ring := (s.doIf (k.shot != 0#32) (State.settleAwaiting k.shot .used)).ring }

theorem State.completeDark_eq (k : DarkCapture) (s : State) : s.completeDark k = (s.darkCompleted k).tryStartJob := by
  unfold State.completeDark State.darkCompleted
  dsimp only
  refine congrArg State.tryStartJob ?_
  cases hk : k.shot != 0#32 <;> rfl

theorem State.darkCompleted_slot? {k : DarkCapture} {x : Slot} {s : State} (hx : s.slot? k.shot = some x) (hn : k.shot ≠ 0#32)
    (hd : x.dark = some .awaiting) : (s.darkCompleted k).slot? k.shot = some { x with dark := some .used } := by
  have hk : (k.shot != 0#32) = true := by simpa using hn
  have hring : (s.darkCompleted k).ring.slots = (s.settleAwaiting k.shot .used).ring.slots := by
    rw [State.darkCompleted, hk]
    rfl
  rw [State.slot?_congr hring, State.settleAwaiting, State.updSlot_slot? _ _ _ _ fun y => by split <;> rfl, hx]
  simp [hd]

/-- Settles O34: the capture's completion, and the test of R112 that follows it. -/
theorem darkScanCompletesTheCapture : Obligations.DarkScanCompletesTheCapture := by
  intro k s hcalm hring hk hp hahead
  have hexec : exec .darkScanComplete s = .next (s.darkCompleted k).tryStartJob := by
    refine (State.event_of_calm _ s hcalm).trans (congrArg _ ?_)
    rw [← State.completeDark_eq]
    simp [State.scanDone, hk, hp, hahead]
  have hroster : (s.darkCompleted k).ring.roster = s.ring.roster := by
    unfold State.darkCompleted
    cases k.shot != 0#32 <;> rfl
  have heq := (s.darkCompleted k).tryStartJob_eq
  refine ⟨_, hexec, ?_, ?_, ?_, fun x hx hn hd => ?_, ?_, ?_⟩
  · rw [heq]
    rfl
  · rw [heq]
    rfl
  · rw [heq]
    rfl
  · have hok : (s.darkCompleted k).ringOk := by
      refine hring.congr ?_
      have hshots := State.completeDark_shots k s
      rwa [State.completeDark_eq, State.tryStartJob_shots] at hshots
    obtain ⟨y, hy, hstarted⟩ := hok.tryStartJob_slot? (State.darkCompleted_slot? hx hn hd)
    exact ⟨y, hy, hstarted.same⟩
  · rw [heq]
    rfl
  · rw [State.tryStartJob_roster, hroster]

end Sys2Proof.Machine
end

section
/-! PROOF. The phases of a develop job: Base, Interior, Edge and Gain (R115-R120). -/

namespace Sys2Proof.Machine

/-- What adding owed Seams leaves of the owed list. -/
structure OwedAdded (n : Shot) (facing : List (Direction × Nat)) (l m : List (Shot × Direction)) : Prop where
  mem : ∀ o, o ∈ m ↔ o ∈ l ∨ ∃ f ∈ facing, o = (n, f.1)
  nodup : l.Nodup → m.Nodup

/-! ## Commands of the engine -/

/-- The completion of a phase, with nothing due before it, reaches the job that is in the phase. -/
theorem State.event_inPhase {j : Job} {s : State} {p : Phase} (f : Job → State → State) (hcalm : s.calm) (hjob : s.develop.job = some j)
    (hp : j.phase = p) : s.event (State.inPhase p f) = .next (f j s) := by
  subst hp
  exact (State.event_of_calm _ s hcalm).trans (congrArg _ (State.inPhase_of_job f hjob))

/-- The completion of a phase that no job is in has no effect. -/
theorem State.event_inPhase_other {s : State} {p : Phase} (f : Job → State → State) (hcalm : s.calm)
    (h : ∀ j, s.develop.job = some j → j.phase ≠ p) : s.event (State.inPhase p f) = .next s := by
  refine (State.event_of_calm _ s hcalm).trans (congrArg _ ?_)
  unfold State.inPhase
  split
  · rfl
  next j hj => rw [if_neg (h j hj)]

/-! ## Slot areas -/

theorem State.rework_area {i : Nat} (f : List Sample → List Sample) {s : State} (h : i < s.ring.areas.length) :
    (s.rework i f).area i = { s.area i with developed := f (s.area i).developed } := by
  have hi : s.ring.areas[i]? = some s.ring.areas[i] := List.getElem?_eq_getElem h
  simp [State.rework, State.onRing, Ring.updArea, State.area, List.getD_eq_getElem?_getD, List.getElem?_modify, hi]

theorem State.rework_area_other {i k : Nat} (f : List Sample → List Sample) (s : State) (h : k ≠ i) : (s.rework i f).area k = s.area k := by
  have hne : i ≠ k := Ne.symm h
  simp [State.rework, State.onRing, Ring.updArea, State.area, List.getD_eq_getElem?_getD, List.getElem?_modify, hne]

/-! ## Pixels and bases (R115) -/

@[simp] theorem pixels_length (n : Nat) (l : List Sample) : (pixels n l).length = n := by
  induction n generalizing l with
  | zero => rfl
  | succ n ih => cases l <;> simp [pixels, ih]

theorem pixels_getD {n i : Nat} (h : i < n) (l : List Sample) : (pixels n l).getD i 0#14 = l.getD i 0#14 := by
  induction n generalizing i l with
  | zero => omega
  | succ n ih =>
    cases l with
    | nil =>
      cases i with
      | zero => rfl
      | succ i => simpa [pixels] using ih (i := i) (by omega) []
    | cons v vs =>
      cases i with
      | zero => rfl
      | succ i => simpa [pixels] using ih (i := i) (by omega) vs

theorem baseSamples_length (st : Settings) (dark : List Sample) (b : Base) : (baseSamples st dark b).length = pixelCount st := by
  cases b <;> simp [baseSamples]

/-- The base of one pixel: the dark slot's sample, or BlackLevel. -/
theorem baseSamples_getD {st : Settings} {i : Nat} (h : i < pixelCount st) (dark : List Sample) (b : Base) :
    ((baseSamples st dark b).getD i 0#14).toNat = if b = .dark then (dark.getD i 0#14).toNat else st.blackLevel % 16384 := by
  cases b with
  | dark => rw [baseSamples, pixels_getD h, if_pos rfl]
  | blackLevel => simp [baseSamples, List.getD_eq_getElem?_getD, List.getElem?_replicate, h]

theorem lessBase_toNat (v b : Sample) : (lessBase v b).toNat = v.toNat - b.toNat := by
  unfold lessBase
  split
  next h =>
    have : v.toNat < b.toNat := BitVec.lt_def.mp h
    simp
    omega
  next h => rw [BitVec.toNat_sub_of_le (BitVec.not_lt.mp h)]

theorem baseValues_getD {raw base : List Sample} {i : Nat} (hr : i < raw.length) (hb : i < base.length) :
    ((baseValues raw base).getD i 0#14).toNat = (raw.getD i 0#14).toNat - (base.getD i 0#14).toNat := by
  have hz : i < (baseValues raw base).length := by simp [baseValues, hr, hb]
  rw [List.getD_eq_getElem _ _ hz, List.getD_eq_getElem _ _ hr, List.getD_eq_getElem _ _ hb, ← lessBase_toNat]
  simp [baseValues]

theorem anyFloored_iff {n : Nat} {raw base : List Sample} (hr : raw.length = n) (hb : base.length = n) :
    anyFloored raw base = true ↔ ∃ i, i < n ∧ (raw.getD i 0#14).toNat < (base.getD i 0#14).toNat := by
  have hget : ∀ i (hi : i < n), (List.zipWith (fun v b => decide (v < b)) raw base)[i]? =
      some (decide (raw.getD i 0#14 < base.getD i 0#14)) := by
    intro i hi
    rw [List.getD_eq_getElem _ _ (hr ▸ hi), List.getD_eq_getElem _ _ (hb ▸ hi), List.getElem?_zipWith,
      List.getElem?_eq_getElem (hr ▸ hi), List.getElem?_eq_getElem (hb ▸ hi)]
  rw [anyFloored, List.any_eq_true]
  constructor
  · rintro ⟨v, hv, rfl⟩
    obtain ⟨i, hi⟩ := List.mem_iff_getElem?.mp hv
    have hin : i < n := by
      obtain ⟨hlt, -⟩ := List.getElem?_eq_some_iff.mp hi
      simp only [List.length_zipWith] at hlt
      omega
    rw [hget i hin] at hi
    exact ⟨i, hin, BitVec.lt_def.mp (of_decide_eq_true (Option.some.inj hi))⟩
  · rintro ⟨i, hin, hlt⟩
    exact ⟨true, List.mem_iff_getElem?.mpr ⟨i, (hget i hin).trans (congrArg some (decide_eq_true (BitVec.lt_def.mpr hlt)))⟩, rfl⟩

theorem addOwed_added (n : Shot) (facing : List (Direction × Nat)) (l : List (Shot × Direction)) : OwedAdded n facing l (addOwed n facing l) := by
  induction facing generalizing l with
  | nil => exact ⟨fun o => by simp [addOwed], id⟩
  | cons f fs ih =>
    have hstep : OwedAdded n [f] l (if l.contains (n, f.1) then l else l ++ [(n, f.1)]) := by
      split
      next hc =>
        refine ⟨fun o => ⟨.inl, fun h => h.elim id ?_⟩, id⟩
        rintro ⟨g, hg, rfl⟩
        cases List.mem_singleton.mp hg
        exact List.contains_iff_mem.mp hc
      next hc =>
        refine ⟨fun o => by simp, fun hl => List.nodup_append.mpr ⟨hl, List.nodup_singleton _, fun a ha b hb => ?_⟩⟩
        rintro rfl
        cases List.mem_singleton.mp hb
        exact hc (List.contains_iff_mem.mpr ha)
    have hrest := ih (if l.contains (n, f.1) then l else l ++ [(n, f.1)])
    refine ⟨fun o => (hrest.mem o).trans ?_, fun hl => hrest.nodup (hstep.nodup hl)⟩
    rw [hstep.mem o]
    simp only [List.mem_singleton, List.mem_cons, exists_eq_or_imp, exists_eq_left, or_assoc, List.not_mem_nil, false_and, exists_false, false_or]

/-- Settles O38: the values, the flag, and the owed list of phase Base. -/
theorem phaseBaseSubtracts : Obligations.PhaseBaseSubtracts := by
  intro j s hcalm hjob hp hslot
  have hexec : exec .phaseBaseComplete s = .next (s.endBase j) := State.event_inPhase _ hcalm hjob hp
  have hraw : (pixels (pixelCount s.settings) (s.area j.slot).raw).length = pixelCount s.settings := pixels_length _ _
  have hbase := baseSamples_length s.settings s.dark.samples j.base
  have howed := addOwed_added j.shot s.facing s.develop.owed
  have harea := State.rework_area (fun _ => baseValues (pixels (pixelCount s.settings) (s.area j.slot).raw)
    (baseSamples s.settings s.dark.samples j.base)) hslot
  have hother := fun i (hi : i ≠ j.slot) => State.rework_area_other (fun _ => baseValues (pixels (pixelCount s.settings) (s.area j.slot).raw)
    (baseSamples s.settings s.dark.samples j.base)) s hi
  have hjob' : (s.endBase j).develop = { s.develop with
      job := some { j with
        phase := .interior, snapshot := s.dark.positions,
        flags := { j.flags with
          floored := anyFloored (pixels (pixelCount s.settings) (s.area j.slot).raw) (baseSamples s.settings s.dark.samples j.base) } }
      owed := addOwed j.shot s.facing s.develop.owed } := by
    simp [State.endBase, State.updJob, State.onDevelop, State.rework, State.onRing, hjob]
  refine ⟨_, hexec, rfl, rfl, (congrArg Area.raw harea :), hother, ?_, fun i hi => ?_,
    ⟨_, hjob', rfl, (anyFloored_iff hraw hbase).trans ?_⟩, fun d m hd => (howed.mem _).mpr (.inr ⟨(d, m), hd, rfl⟩),
    fun o ho => (howed.mem _).mpr (.inl ho), howed.nodup⟩
  · refine (congrArg (fun a : Area => a.developed.length) harea).trans ?_
    simp [baseValues, hbase]
  · refine (congrArg (fun a : Area => (a.developed.getD i 0#14).toNat) harea).trans ?_
    rw [baseValues_getD (hi.trans_eq hraw.symm) (hi.trans_eq hbase.symm), pixels_getD hi, baseSamples_getD hi]
  · refine exists_congr fun i => and_congr_right fun hi => ?_
    rw [pixels_getD hi, baseSamples_getD hi]

/-! ## Gain (R120) -/

/-- Settles O40: the rounded products and the Clipped flag. -/
theorem phaseGainMultiplies : Obligations.PhaseGainMultiplies := by
  intro j s hcalm hjob hp hslot
  have hexec : exec .phaseGainComplete s = .next (s.endGain j) := State.event_inPhase _ hcalm hjob hp
  have harea := State.rework_area (fun w => w.map (gainValue s.settings.flatGain)) hslot
  have hother := fun i (hi : i ≠ j.slot) => State.rework_area_other (fun w => w.map (gainValue s.settings.flatGain)) s hi
  have hjob' : (s.endGain j).develop = { s.develop with job := some { j with
      phase := .finish,
      flags := { j.flags with clipped := (s.area j.slot).developed.any fun v => decide (16383 < gained s.settings.flatGain v) } } } := by
    simp [State.endGain, State.updJob, State.onDevelop, State.rework, State.onRing, hjob]
  refine ⟨_, _, hexec, rfl, rfl, hother, (congrArg Area.raw harea :), ?_, hjob', rfl, ?_⟩
  · refine (congrArg (fun a : Area => a.developed.map (·.toNat)) harea).trans ?_
    rw [List.map_map]
    refine List.map_congr_left fun v _ => ?_
    have hle : min (gained s.settings.flatGain v) 16383 < 2 ^ 14 := by omega
    simp [Function.comp, gainValue, Nat.mod_eq_of_lt hle, gained]
  · exact List.any_eq_true.trans (exists_congr fun v => and_congr_right fun _ => decide_eq_true_iff)

end Sys2Proof.Machine
end

section
/-! PROOF. The repairs of phases Interior and Edge, and the resolution of the edges (R117-R119). -/

namespace Sys2Proof.Machine

/-! ## The bands of a store -/

theorem Band.hasKey_iff (m : Nat) (n : Shot) (b : Band) : Band.hasKey m n b = true ↔ b.neighbour = m ∧ b.shot = n := by
  simp [Band.hasKey]

theorem find?_hasKey_eq_none {m : Nat} {n : Shot} {store : List Band} (h : ∀ b ∈ store, ¬(b.neighbour = m ∧ b.shot = n)) :
    store.find? (Band.hasKey m n) = none :=
  List.find?_eq_none.mpr fun b hb => (Band.hasKey_iff m n b).not.mpr (h b hb)

/-! ## Edges (R118) -/

/-- Pending edges take their bands in order, up to the first that has none. -/
theorem resolveEdges_pending (n : Shot) {after : List Edge} (store : List Band) (hp : ∀ e ∈ after, e.state = .pending) :
    edgesResolved n after store (resolveEdges n after store).1 (resolveEdges n after store).2.1 (resolveEdges n after store).2.2 := by
  intro got rest hsplit hdistinct hkeys hgot hrest
  induction got generalizing after store with
  | nil =>
    cases hsplit
    cases rest with
    | nil => exact ⟨by simp [resolveEdges], [], rfl, fun i e h => (by simp at h), fun _ => ⟨rfl, rfl⟩, fun e es h => (by simp at h)⟩
    | cons e es =>
      have hres : resolveEdges n (e :: es) store = ({ e with state := .waiting } :: es, store, true) := by
        rw [resolveEdges, hp e List.mem_cons_self]
        simp [find?_hasKey_eq_none (hrest e es rfl)]
      rw [List.nil_append, hres]
      refine ⟨by simp, [], rfl, fun i e' h => (by simp at h), fun h => (by simp at h), fun e' es' h => ?_⟩
      cases h
      exact ⟨rfl, rfl⟩
  | cons e got ih =>
    cases hsplit
    have herase := eraseP_hasKey e.neighbour n store hkeys
    obtain ⟨hne, hdistinct⟩ := List.nodup_cons.mp hdistinct
    obtain ⟨b, hb⟩ : ∃ b, store.find? (Band.hasKey e.neighbour n) = some b := by
      obtain ⟨b, hmem, hm, hn⟩ := hgot e List.mem_cons_self
      exact Option.isSome_iff_exists.mp (List.find?_isSome.mpr ⟨b, hmem, (Band.hasKey_iff _ _ _).mpr ⟨hm, hn⟩⟩)
    obtain ⟨hbm, hbn⟩ := (Band.hasKey_iff _ _ _).mp (List.find?_some hb)
    have hres : resolveEdges n (e :: (got ++ rest)) store =
        ({ e with state := .band b.samples } :: (resolveEdges n (got ++ rest) (store.eraseP (Band.hasKey e.neighbour n))).1,
          (resolveEdges n (got ++ rest) (store.eraseP (Band.hasKey e.neighbour n))).2) := by
      rw [resolveEdges, hp e List.mem_cons_self]
      simp [hb]
    have hkeep : ∀ e' ∈ got, ∃ b ∈ store.eraseP (Band.hasKey e.neighbour n), b.neighbour = e'.neighbour ∧ b.shot = n := by
      intro e' he'
      obtain ⟨c, hc, hcm, hcn⟩ := hgot e' (List.mem_cons_of_mem _ he')
      refine ⟨c, herase ▸ List.mem_filter.mpr ⟨hc, ?_⟩, hcm, hcn⟩
      have hother : e'.neighbour ≠ e.neighbour := fun h =>
        hne (List.mem_map.mpr ⟨e', List.mem_append_left _ he', h⟩)
      simp [hcm, hother]
    have hleave : ∀ e' es, rest = e' :: es → ∀ c ∈ store.eraseP (Band.hasKey e.neighbour n), ¬(c.neighbour = e'.neighbour ∧ c.shot = n) :=
      fun e' es h c hc => hrest e' es h c (List.mem_of_mem_eraseP hc)
    obtain ⟨hleft, done, hlen, hdone, hend, hwait⟩ := ih (store.eraseP (Band.hasKey e.neighbour n))
      (fun a ha => hp a (List.mem_cons_of_mem _ ha)) rfl hdistinct (hkeys.sublist ((List.eraseP_sublist).map _)) hkeep hleave
    rw [List.cons_append, hres]
    refine ⟨?_, { e with state := .band b.samples } :: done, by simp [hlen], fun i e' h => ?_, fun h => ?_, fun e' es h => ?_⟩
    · refine hleft.trans ?_
      rw [herase, List.filter_filter]
      refine List.filter_congr fun c _ => ?_
      rw [List.any_cons, Bool.eq_iff_iff]
      have hcomm : (e.neighbour == c.neighbour) = (c.neighbour == e.neighbour) := BEq.comm
      rw [hcomm]
      cases c.neighbour == e.neighbour <;> cases c.shot == n <;> simp
    · cases i with
      | zero =>
        cases h
        exact ⟨b, List.mem_of_find?_eq_some hb, hbm, hbn, rfl⟩
      | succ i =>
        obtain ⟨c, hc, hcm, hcn, hd⟩ := hdone i e' h
        exact ⟨c, List.mem_of_mem_eraseP hc, hcm, hcn, hd⟩
    · obtain ⟨hedges, hw⟩ := hend h
      exact ⟨congrArg (_ :: ·) hedges, hw⟩
    · obtain ⟨hedges, hw⟩ := hwait e' es h
      exact ⟨congrArg (_ :: ·) hedges, hw⟩

/-- The edges of a job are resolved against the store; an edge that waits starts the seam timer. -/
theorem State.resolve_eq {j : Job} {s : State} (hjob : s.develop.job = some j) :
    s.resolve = { s with
      develop := { s.develop with
        job := some { j with edges := (resolveEdges j.shot j.edges s.develop.store).1 }
        store := (resolveEdges j.shot j.edges s.develop.store).2.1 }
      clock := (s.doIf (resolveEdges j.shot j.edges s.develop.store).2.2 (State.loadTimer .seam s.settings.seamTimeout)).clock } := by
  simp only [State.resolve, hjob]
  cases (resolveEdges j.shot j.edges s.develop.store).2.2 <;> rfl

/-- The clock once the seam timer has been started. -/
theorem State.loadSeam_clock {s : State} (h : 0 < s.settings.seamTimeout) :
    (s.loadTimer .seam s.settings.seamTimeout).clock = { s.clock with timers := { s.clock.timers with
      seam := { s.clock.timers.seam with request := .load s.settings.seamTimeout } } } := by
  have hne : s.settings.seamTimeout ≠ 0 := Nat.ne_of_gt h
  simp [State.loadTimer, State.onTimer, State.onClock, Timers.upd, Timer.load, hne]

/-! ## Repairs (R117, R119) -/

/-- One repair: the entry takes its mean where it has a usable value and lies in the tile. -/
def repairOne (st : Settings) (snapshot : List (Nat × Nat)) (edges : List Edge) (work w : List Sample) (p : Nat × Nat) : List Sample :=
  match candidateValues st snapshot work edges p.1 p.2 with
  | [] => w
  | v :: vs => if p.1 < st.tileRows ∧ p.2 < st.tileColumns then w.set (p.1 * st.tileColumns + p.2) (repairValue (v :: vs)) else w

theorem repairAll_eq_foldl (st : Settings) (snapshot : List (Nat × Nat)) (edges : List Edge) (which : List (Nat × Nat)) (work : List Sample) :
    repairAll st snapshot edges which work = which.foldl (repairOne st snapshot edges work) work := rfl

variable {st : Settings} {snapshot : List (Nat × Nat)} {edges : List Edge} {work : List Sample}

theorem repairOne_of_nil {p : Nat × Nat} (w : List Sample) (h : candidateValues st snapshot work edges p.1 p.2 = []) :
    repairOne st snapshot edges work w p = w := by
  rw [repairOne, h]

theorem repairOne_of_ne_nil {p : Nat × Nat} (w : List Sample) (h : candidateValues st snapshot work edges p.1 p.2 ≠ []) :
    repairOne st snapshot edges work w p = if p.1 < st.tileRows ∧ p.2 < st.tileColumns then
      w.set (p.1 * st.tileColumns + p.2) (repairValue (candidateValues st snapshot work edges p.1 p.2)) else w := by
  obtain ⟨v, vs, hv⟩ := List.exists_cons_of_ne_nil h
  rw [repairOne, hv]

theorem repairOne_length (w : List Sample) (p : Nat × Nat) : (repairOne st snapshot edges work w p).length = w.length := by
  by_cases h : candidateValues st snapshot work edges p.1 p.2 = []
  · rw [repairOne_of_nil w h]
  · rw [repairOne_of_ne_nil w h]
    split <;> simp

/-- The pixel at a position changes by the repair of that position alone. -/
theorem repairOne_getD (w : List Sample) (p : Nat × Nat) {r c : Nat} (hr : r < st.tileRows) (hc : c < st.tileColumns)
    (hi : r * st.tileColumns + c < w.length) :
    (repairOne st snapshot edges work w p).getD (r * st.tileColumns + c) 0#14 =
      if p = (r, c) ∧ candidateValues st snapshot work edges r c ≠ [] then repairValue (candidateValues st snapshot work edges r c)
      else w.getD (r * st.tileColumns + c) 0#14 := by
  by_cases hp : p = (r, c)
  · subst hp
    by_cases h : candidateValues st snapshot work edges r c = []
    · rw [repairOne_of_nil w h, if_neg (fun hn => hn.2 h)]
    · rw [repairOne_of_ne_nil w h, if_pos ⟨hr, hc⟩, if_pos ⟨rfl, h⟩]
      simp [List.getD_eq_getElem?_getD, hi]
  · rw [if_neg (fun hn => hp hn.1)]
    by_cases h : candidateValues st snapshot work edges p.1 p.2 = []
    · rw [repairOne_of_nil w h]
    · rw [repairOne_of_ne_nil w h]
      split
      next hin =>
        have hne : p.1 * st.tileColumns + p.2 ≠ r * st.tileColumns + c := by
          intro heq
          have hcol : p.2 = c := by
            have := congrArg (· % st.tileColumns) heq
            simpa [Nat.add_mod, Nat.mod_eq_of_lt hin.2, Nat.mod_eq_of_lt hc] using this
          have hrow : p.1 = r := Nat.eq_of_mul_eq_mul_right (Nat.zero_lt_of_lt hc) (by omega)
          exact hp (Prod.ext hrow hcol)
        simp [List.getD_eq_getElem?_getD, List.getElem?_set, hne]
      · rfl

theorem repairs_length (which : List (Nat × Nat)) (w : List Sample) : (which.foldl (repairOne st snapshot edges work) w).length = w.length := by
  induction which generalizing w with
  | nil => rfl
  | cons p ps ih => rw [List.foldl_cons, ih, repairOne_length]

theorem repairs_getD (which : List (Nat × Nat)) (w : List Sample) {r c : Nat} (hr : r < st.tileRows) (hc : c < st.tileColumns)
    (hi : r * st.tileColumns + c < w.length) :
    (which.foldl (repairOne st snapshot edges work) w).getD (r * st.tileColumns + c) 0#14 =
      if (r, c) ∈ which ∧ candidateValues st snapshot work edges r c ≠ [] then repairValue (candidateValues st snapshot work edges r c)
      else w.getD (r * st.tileColumns + c) 0#14 := by
  induction which generalizing w with
  | nil => simp
  | cons p ps ih =>
    rw [List.foldl_cons, ih _ (by rwa [repairOne_length]), repairOne_getD w p hr hc hi]
    by_cases hp : p = (r, c)
    · by_cases hv : candidateValues st snapshot work edges r c = []
      · simp [hv]
      · simp [hp, hv]
    · have hne : (r, c) ≠ p := Ne.symm hp
      simp [hp, hne]

/-- The tile of a job whose area holds the repaired values. -/
theorem State.repairedAs_of_area {j : Job} {s t : State} {edge : Bool} {edges : List Edge} {which : List (Nat × Nat)}
    (ht : t.area j.slot = { s.area j.slot with
      developed := repairAll s.settings j.snapshot edges which (s.area j.slot).developed })
    (hwhich : ∀ p, p ∈ which ↔ p ∈ j.snapshot ∧ isEdgeEntry s.settings s.self.toNat p.1 p.2 = edge) :
    s.repairedAs edge edges j t := by
  refine ⟨by rw [ht], by rw [ht, repairAll_eq_foldl]; exact repairs_length _ _, fun r c hr hc hi => ?_⟩
  rw [ht, repairAll_eq_foldl]
  refine (repairs_getD which _ hr hc hi).trans (if_congr ?_ rfl rfl)
  rw [hwhich (r, c), and_assoc]

/-! ## Values (R117, R119) -/

theorem filterMap_id_four {α : Type} (a b c d : Option α) :
    [a, b, c, d].filterMap id = a.toList ++ b.toList ++ c.toList ++ d.toList := by
  cases a <;> cases b <;> cases c <;> cases d <;> rfl

theorem insideValue_toList (r c : Nat) : (insideValue st snapshot work r c).toList = usable st snapshot work [(r, c)] := by
  unfold insideValue usable
  cases h : snapshot.contains (r, c) with
  | false => rw [List.filter_cons_of_pos (by rw [h]; rfl)]; rfl
  | true => rw [List.filter_cons_of_neg (by rw [h]; decide)]; rfl

theorem candidateValues_eq (r c : Nat) : candidateValues st snapshot work edges r c =
    (if 2 ≤ r then usable st snapshot work [(r - 2, c)] else acrossEdge edges .up ((r + 2) * st.tileColumns + c)) ++
    (if r + 2 < st.tileRows then usable st snapshot work [(r + 2, c)]
      else acrossEdge edges .down ((r + 2 - st.tileRows) * st.tileColumns + c)) ++
    (if 2 ≤ c then usable st snapshot work [(r, c - 2)] else acrossEdge edges .left (r * 4 + (c + 2))) ++
    (if c + 2 < st.tileColumns then usable st snapshot work [(r, c + 2)]
      else acrossEdge edges .right (r * 4 + (c + 2 - st.tileColumns))) := by
  have hacross : ∀ d i, (((bandOf? edges d).bind fun b => b[i]?).map BitVec.toNat).toList = acrossEdge edges d i := by
    intro d i
    unfold acrossEdge
    cases (bandOf? edges d).bind fun b => b[i]? <;> rfl
  unfold candidateValues
  dsimp only
  rw [filterMap_id_four]
  simp only [apply_ite Option.toList, insideValue_toList, hacross]

theorem bandOf?_eq_some {edges before after : List Edge} {e : Edge} {d : Direction} {b : List Word16} (h : edges = before ++ e :: after)
    (hbefore : ∀ a ∈ before, a.dir ≠ d) (hd : e.dir = d) (hs : e.state = .band b) : bandOf? edges d = some b := by
  have hfind : edges.find? (·.dir == d) = some e := by
    rw [h, List.find?_append, List.find?_eq_none.mpr fun a ha => by simpa using hbefore a ha]
    simp [hd]
  simp [bandOf?, hfind, hs]

theorem bandOf?_eq_none {edges : List Edge} {d : Direction} (h : ∀ e ∈ edges, e.dir = d → ∀ b, e.state ≠ .band b) : bandOf? edges d = none := by
  unfold bandOf?
  split
  next e he =>
    split
    next b hb => exact absurd hb (h e (List.mem_of_find?_eq_some he) (by simpa using List.find?_some he) b)
    · rfl
  · rfl

theorem sum_le_mul {values : List Nat} {m : Nat} (h : ∀ v ∈ values, v ≤ m) : values.sum ≤ m * values.length := by
  rw [Nat.mul_comm]
  simpa using List.sum_le_card_nsmul values m h

/-- A mean of sample values is a sample value. -/
theorem repairValue_toNat {values : List Nat} (hne : values ≠ []) (h : ∀ v ∈ values, v ≤ 16383) :
    (repairValue values).toNat = (values.sum + values.length / 2) / values.length := by
  have hlen : 0 < values.length := List.length_pos_of_ne_nil hne
  have hsum := sum_le_mul h
  have hmean : roundedMean values ≤ 16383 := by
    have : roundedMean values < 16384 := (Nat.div_lt_iff_lt_mul hlen).mpr (by omega)
    omega
  rw [repairValue, if_neg (by omega), BitVec.toNat_ofNat, Nat.mod_eq_of_lt (by omega), roundedMean]

/-! ## The completions of Interior and Edge -/

theorem State.endInterior_eq {j : Job} {s : State} (hjob : s.develop.job = some j) :
    s.endInterior j = State.resolve { s with
      ring := (s.rework j.slot
        (repairAll s.settings j.snapshot [] (interiorEntries s.settings s.self.toNat j.snapshot))).ring
      develop := { s.develop with job := some { j with phase := .edge } } } := by
  simp [State.endInterior, State.updJob, State.onDevelop, State.rework, State.onRing, hjob]

theorem State.endEdge_eq {j : Job} {s : State} (hjob : s.develop.job = some j) (h : j.edges.all Edge.resolved = true) :
    s.endEdge j = { s with
      ring := (s.rework j.slot
        (repairAll s.settings j.snapshot j.edges (edgeEntries s.settings s.self.toNat j.snapshot))).ring
      develop := { s.develop with job := some { j with phase := .gain, edges := j.edges.map Edge.dropBand } } } := by
  simp [State.endEdge, h, State.updJob, State.onDevelop, State.rework, State.onRing, hjob]

theorem Edge.resolved_iff (e : Edge) : e.resolved = true ↔ (∃ b, e.state = .band b) ∨ e.state = .oneSided := by
  cases hs : e.state <;> simp [Edge.resolved, hs]

/-- Settles O39: the repairs by `repairs_getD`, the resolution of the edges by `resolveEdges_pending`. -/
theorem repairsTouchTheSnapshotAlone : Obligations.RepairsTouchTheSnapshotAlone := by
  refine ⟨fun j s hcalm hjob hslot => ⟨fun hp => ?_, fun hp hres => ?_, fun hp hunres => ?_⟩, fun s hcalm => ⟨?_, ?_⟩,
    fun st snapshot work edges r c => candidateValues_eq r c,
    fun edges d => ⟨fun before e after b h hbefore hd hs => bandOf?_eq_some h hbefore hd hs, bandOf?_eq_none⟩,
    fun values hne h => repairValue_toNat hne h⟩
  · have hexec : exec .phaseInteriorComplete s = .next (s.endInterior j) := State.event_inPhase _ hcalm hjob hp
    have harea := State.rework_area
      (repairAll s.settings j.snapshot [] (interiorEntries s.settings s.self.toNat j.snapshot)) hslot
    have hother := fun i (hi : i ≠ j.slot) => State.rework_area_other
      (repairAll s.settings j.snapshot [] (interiorEntries s.settings s.self.toNat j.snapshot)) s hi
    rw [State.endInterior_eq hjob, State.resolve_eq (j := { j with phase := .edge }) rfl] at hexec
    refine ⟨_, _, hexec, rfl, rfl, hother, State.repairedAs_of_area harea fun p => by simp [interiorEntries], rfl,
      fun got rest hsplit hpending hdistinct hkeys hgot hrest => ?_⟩
    obtain ⟨hleft, done, hlen, hdone, hend, hwait⟩ :=
      resolveEdges_pending j.shot s.develop.store hpending got rest hsplit hdistinct hkeys hgot hrest
    refine ⟨fun b => ?_, done, hlen, hdone, fun h => ?_, fun e es h => ?_⟩
    · dsimp only
      rw [hleft, List.mem_filter]
      simp only [Bool.not_eq_true', Bool.and_eq_false_iff, beq_eq_false_iff_ne, List.any_eq_false, beq_iff_eq, not_and, not_exists]
      exact and_congr_right fun _ => imp_iff_not_or.symm
    · obtain ⟨hedges, hw⟩ := hend h
      refine ⟨hedges, ?_⟩
      dsimp only
      rw [hw]
      rfl
    · obtain ⟨hedges, hw⟩ := hwait e es h
      refine ⟨hedges, fun hpos => ?_⟩
      dsimp only
      rw [hw]
      exact State.loadSeam_clock hpos
  · have hall : j.edges.all Edge.resolved = true := List.all_eq_true.mpr fun e he => e.resolved_iff.mpr (hres e he)
    have hexec : exec .edgeRepairsComplete s = .next (s.endEdge j) := State.event_inPhase _ hcalm hjob hp
    have harea := State.rework_area
      (repairAll s.settings j.snapshot j.edges (edgeEntries s.settings s.self.toNat j.snapshot)) hslot
    have hother := fun i (hi : i ≠ j.slot) => State.rework_area_other
      (repairAll s.settings j.snapshot j.edges (edgeEntries s.settings s.self.toNat j.snapshot)) s hi
    rw [State.endEdge_eq hjob hall] at hexec
    exact ⟨_, _, hexec, rfl, rfl, hother, State.repairedAs_of_area harea fun p => by simp [edgeEntries], rfl, by simp⟩
  · have hnot : ¬j.edges.all Edge.resolved = true := by
      obtain ⟨e, he, hs⟩ := hunres
      intro hall
      obtain ⟨b, hb⟩ | hb := e.resolved_iff.mp (List.all_eq_true.mp hall e he) <;> simp [hb] at hs
    refine (State.event_inPhase State.endEdge hcalm hjob hp).trans (congrArg _ ?_)
    rw [State.endEdge, if_neg hnot]
  · exact State.event_inPhase_other _ hcalm
  · exact State.event_inPhase_other _ hcalm

end Sys2Proof.Machine
end

section
/-! PROOF. Phase Finish, the Seams of the neighbours, and the seam timer (R118, R121, R122, R126, R127). -/

namespace Sys2Proof.Machine

/-- What the resolution of a job's edges, the waited one taken care of, leaves of the station: the edges before it stay, those after
it are resolved against a store. -/
structure State.EdgesGoOn (j : Job) (before : List Edge) (done : Edge) (after : List Edge) (store : List Band) (s t : State) : Prop where
  same : t = { s with
    develop := { s.develop with
      job := some { j with edges := before ++ done :: (resolveEdges j.shot after store).1 }, store := (resolveEdges j.shot after store).2.1 }
    clock := t.clock }
  still : (resolveEdges j.shot after store).2.2 = false → t.clock = s.clock
  waits : (resolveEdges j.shot after store).2.2 = true → 0 < s.settings.seamTimeout →
    t.clock = { s.clock with timers := { s.clock.timers with
      seam := { s.clock.timers.seam with request := .load s.settings.seamTimeout } } }

/-! ## The Transfer Unit's choice leaves the slots -/

theorem State.claimSocket_ring (n : Shot) (k : Socket) (s : State) :
    (s.claimSocket n k).ring = { s.ring with roster := (s.claimSocket n k).ring.roster } := by
  unfold State.claimSocket
  repeat' split
  all_goals rfl

theorem State.claimTargets_ring (n : Shot) (s : State) :
    (s.claimTargets n).ring = { s.ring with roster := (s.claimTargets n).ring.roster } := by
  unfold State.claimTargets
  split
  · rw [State.claimSocket_ring, State.claimSocket_ring]
  · rfl

theorem State.chooseTile_ring (s : State) : s.chooseTile.ring = { s.ring with roster := s.chooseTile.ring.roster } := by
  unfold State.chooseTile
  split
  · rfl
  · split
    · rfl
    · unfold State.beginPass
      rw [State.claimTargets_ring]
      rfl

theorem State.chooseTile_slot? (n : Shot) (s : State) : s.chooseTile.slot? n = s.slot? n :=
  State.slot?_congr (by rw [State.chooseTile_ring]) n

/-! ## Phase Finish (R121, R122) -/

theorem finishFlags_eq (flags : OutcomeFlags) (x : Slot) (overflow : Nat) : finishFlags flags x overflow =
    { flags with
      limitReached := flags.limitReached || x.limit
      noDark := flags.noDark || x.dark == some .none
      skewed := flags.skewed || x.skewed
      defectOverflow := flags.defectOverflow || overflow != 0 } := by
  have hpos : decide (0 < overflow) = (overflow != 0) := by
    rw [Bool.eq_iff_iff]
    simp [Nat.pos_iff_ne_zero]
  rw [finishFlags, hpos]

theorem finishTag_eq (mask flags : OutcomeFlags) : finishTag mask flags = if flags.meets mask then .held else .developed := rfl

theorem finishNotice_eq (mask flags : OutcomeFlags) (n : Shot) (sum : Word16) : finishNotice (finishTag mask flags) n flags sum =
    if flags.meets mask then .tileHeld n flags sum else .tileDeveloped n flags sum := by
  rw [finishTag_eq]
  cases flags.meets mask <;> rfl

/-- The job that the test of R112 starts is in phase Base, of a shot whose slot is Raw. -/
theorem State.ringOk.tryStartJob_job {s : State} (h : s.ringOk) (hjob : s.develop.job = none) {k : Job} (hk : s.tryStartJob.develop.job = some k) :
    k.phase = .base ∧ ∃ x, s.slot? k.shot = some x ∧ x.tag = .raw := by
  obtain he | ⟨x, hx, -, -, -, hlow, he⟩ := s.tryStartJob_cases
  · rw [he, hjob] at hk
    cases hk
  · rw [he] at hk
    cases hk
    exact ⟨rfl, x, hx, h.lowest_raw hx hlow⟩

/-- The tile has been settled; the engine has not yet chosen again. -/
def State.finished (j : Job) (x : Slot) (s : State) : State :=
  State.raise (finishNotice (finishTag s.settings.developMask (finishFlags j.flags x s.dark.overflow)) j.shot
      (finishFlags j.flags x s.dark.overflow) (tileSumOf (s.packedTile j.slot)))
    (State.updSlot j.shot (fun y =>
      { y with
        tag := finishTag s.settings.developMask (finishFlags j.flags x s.dark.overflow)
        flags := finishFlags j.flags x s.dark.overflow, tileSum := some (tileSumOf (s.packedTile j.slot)) })
      { s with
        develop := { s.develop with
          job := none, stats := .histogram j.shot (histogramBins (pixels (pixelCount s.settings) (s.area j.slot).developed)) }
        dark := { s.dark with overflow := 0 } })

theorem State.endFinish_eq {j : Job} {x : Slot} {s : State} (hx : s.slot? j.shot = some x) :
    s.endFinish j = (s.finished j x).tryStartJob.chooseTile.sleepTest := by
  simp only [State.endFinish, hx]
  rfl

theorem State.finished_slot? {j : Job} {x : Slot} {s : State} (hx : s.slot? j.shot = some x) :
    (s.finished j x).slot? j.shot = some { x with
      tag := finishTag s.settings.developMask (finishFlags j.flags x s.dark.overflow)
      flags := finishFlags j.flags x s.dark.overflow, tileSum := some (tileSumOf (s.packedTile j.slot)) } := by
  refine (State.updSlot_slot? j.shot j.shot _ _ fun _ => by rfl).trans ?_
  exact (congrArg (Option.map _) hx).trans (congrArg some (if_pos rfl))

theorem histogramBins_sum (values : List Sample) : (histogramBins values).sum = values.length := by
  have hsum : ∀ f : Nat → Nat, ((List.range 256).map f).sum = ∑ b ∈ Finset.range 256, f b := fun _ => rfl
  have hbin : ∀ v : Sample, (∑ b ∈ Finset.range 256, if v.toNat / 64 = b then 1 else 0) = 1 := by
    intro v
    have hlt : v.toNat / 64 < 256 := by omega
    simp [hlt]
  rw [histogramBins, hsum]
  induction values with
  | nil => simp
  | cons v vs ih =>
    have hcons : ∀ b, ((v :: vs).filter fun w => w.toNat / 64 == b).length =
        (vs.filter fun w => w.toNat / 64 == b).length + if v.toNat / 64 = b then 1 else 0 := by
      intro b
      by_cases hb : v.toNat / 64 = b <;> simp [hb]
    simp only [hcons, Finset.sum_add_distrib, ih, hbin, List.length_cons]

/-- Settles O41: what phase Finish writes, and the histogram. -/
theorem phaseFinishSettlesTheTile : Obligations.PhaseFinishSettlesTheTile := by
  refine ⟨fun j x s hcalm hring hjob hp hx => ?_, fun values => ⟨by simp [histogramBins], histogramBins_sum values, fun b hb => ?_⟩⟩
  · have hexec : exec .phaseFinishComplete s = .next (s.endFinish j) := State.event_inPhase _ hcalm hjob hp
    rw [State.endFinish_eq hx] at hexec
    have hok : (s.finished j x).ringOk := by
      refine hring.congr ?_
      rw [State.finished, State.raise_shots, State.updSlot_shots _ _ _ fun _ => by rfl]
      rfl
    have hslot := State.finished_slot? hx
    have hnotraw : finishTag s.settings.developMask (finishFlags j.flags x s.dark.overflow) ≠ .raw := by
      rw [finishTag_eq]
      split <;> decide
    obtain ⟨y, hy, hstarted⟩ := hok.tryStartJob_slot? hslot
    have hsame : y = _ := hstarted.same.trans (by rw [hstarted.notRaw hnotraw])
    subst hsame
    refine ⟨_, _, hexec, by rw [State.chooseTile_slot?, hy], rfl, finishFlags_eq _ _ _, rfl, ?_, ?_, ?_, ?_, ?_, ?_, ?_, ?_, fun k hk => ?_⟩
    · simp only [State.chooseTile_frame, State.tryStartJob_frame]
      exact congrArg s.notices.raise (finishNotice_eq _ _ _ _)
    · simp only [State.chooseTile_frame, State.tryStartJob_stats]
      rfl
    · simp only [State.chooseTile_frame, State.tryStartJob_frame]
      rfl
    · rw [State.chooseTile_ring, State.tryStartJob_eq]
      rfl
    · simp only [State.chooseTile_frame, State.tryStartJob_frame]
      rfl
    · simp only [State.chooseTile_frame, State.tryStartJob_frame]
      rfl
    · simp only [State.chooseTile_frame, State.tryStartJob_frame]
      rfl
    · simp only [State.chooseTile_frame, State.tryStartJob_frame]
      rfl
    · simp only [State.chooseTile_frame] at hk
      obtain ⟨hbase, x', hx', hraw⟩ := hok.tryStartJob_job rfl hk
      refine ⟨fun heq => hnotraw ?_, hbase⟩
      rw [heq, hslot] at hx'
      cases hx'
      exact hraw
  · have hbin : ∀ v : Sample, (v.toNat / 64 == b) = decide (v.toNat / 64 = b) := fun _ => rfl
    simp [histogramBins, hb, hbin]

end Sys2Proof.Machine
end

section
/-! PROOF. Seams taken, and the seam timer (R118, R126, R127). -/

namespace Sys2Proof.Machine

/-! ## The seam store (R127) -/

theorem storeBand_full {b : Band} {store : List Band} (hnew : ∀ a ∈ store, ¬(a.neighbour = b.neighbour ∧ a.shot = b.shot)) (h : 8 ≤ store.length) :
    storeBand b store = none := by
  have hany : store.any (Band.hasKey b.neighbour b.shot) = false :=
    List.any_eq_false.mpr fun a ha => (Band.hasKey_iff _ _ a).not.mpr (hnew a ha)
  have hlen : ¬store.length < Config.seamStoreCapacity := Nat.not_lt.mpr h
  rw [storeBand, hany, if_neg Bool.false_ne_true, if_neg hlen]

theorem storeBand_new {b : Band} {store : List Band} (hnew : ∀ a ∈ store, ¬(a.neighbour = b.neighbour ∧ a.shot = b.shot)) (h : store.length < 8) :
    storeBand b store = some (store ++ [b]) := by
  have hany : store.any (Band.hasKey b.neighbour b.shot) = false :=
    List.any_eq_false.mpr fun a ha => (Band.hasKey_iff _ _ a).not.mpr (hnew a ha)
  have hlen : store.length < Config.seamStoreCapacity := h
  rw [storeBand, hany, if_neg Bool.false_ne_true, if_pos hlen]

theorem storeBand_replace {b a : Band} {store : List Band} (ha : a ∈ store) (hm : a.neighbour = b.neighbour) (hn : a.shot = b.shot) :
    storeBand b store = some (updFirst (Band.hasKey b.neighbour b.shot) (fun _ => b) store) := by
  have hany : store.any (Band.hasKey b.neighbour b.shot) = true := List.any_eq_true.mpr ⟨a, ha, (Band.hasKey_iff _ _ a).mpr ⟨hm, hn⟩⟩
  rw [storeBand, hany, if_pos rfl]

theorem updFirst_append {α : Type} (p : α → Bool) (f : α → α) {before : List α} {x : α} {after : List α} (hb : ∀ a ∈ before, p a = false)
    (hx : p x = true) : updFirst p f (before ++ x :: after) = before ++ f x :: after := by
  induction before with
  | nil => simp [updFirst, hx]
  | cons a before ih =>
    have hrest := ih fun c hc => hb c (List.mem_cons_of_mem _ hc)
    simp [updFirst, hb a List.mem_cons_self, hrest]

/-- The store with a band kept, where one of its key stood there or there is room: the band is found by its key, and without it the
store is as it was without one of that key. -/
theorem storeBand_kept {b : Band} {store : List Band} (hkeys : (store.map fun c => (c.neighbour, c.shot)).Nodup)
    (h : (∃ a ∈ store, a.neighbour = b.neighbour ∧ a.shot = b.shot) ∨ store.length < 8) :
    ∃ kept, storeBand b store = some kept ∧ kept.find? (Band.hasKey b.neighbour b.shot) = some b ∧
      kept.eraseP (Band.hasKey b.neighbour b.shot) = store.filter fun c => !(c.neighbour == b.neighbour && c.shot == b.shot) := by
  have hself : Band.hasKey b.neighbour b.shot b = true := (Band.hasKey_iff _ _ b).mpr ⟨rfl, rfl⟩
  by_cases hnew : ∀ a ∈ store, ¬(a.neighbour = b.neighbour ∧ a.shot = b.shot)
  · have hlen : store.length < 8 := h.resolve_left fun ⟨a, ha, hk⟩ => hnew a ha hk
    have hnone : ∀ a ∈ store, ¬Band.hasKey b.neighbour b.shot a = true := fun a ha => (Band.hasKey_iff _ _ a).not.mpr (hnew a ha)
    refine ⟨_, storeBand_new hnew hlen, ?_, ?_⟩
    · rw [List.find?_append, List.find?_eq_none.mpr hnone, Option.none_or, List.find?_cons_of_pos hself]
    · rw [List.eraseP_append_right _ hnone, List.eraseP_cons_of_pos hself, List.append_nil]
      exact (List.filter_eq_self.mpr fun a ha => by simpa [Band.hasKey, imp_iff_not_or] using hnone a ha).symm
  · push Not at hnew
    obtain ⟨a, ha, hm, hn⟩ := hnew
    obtain ⟨c, hc⟩ : ∃ c, store.find? (Band.hasKey b.neighbour b.shot) = some c :=
      Option.isSome_iff_exists.mp (List.find?_isSome.mpr ⟨a, ha, (Band.hasKey_iff _ _ a).mpr ⟨hm, hn⟩⟩)
    obtain ⟨hkey, before, after, hsplit, hbefore⟩ := List.find?_eq_some_iff_append.mp hc
    have hnone : ∀ a ∈ before, ¬Band.hasKey b.neighbour b.shot a = true := fun a ha => by simpa using hbefore a ha
    have hkept : updFirst (Band.hasKey b.neighbour b.shot) (fun _ => b) store = before ++ b :: after := by
      rw [hsplit]
      exact updFirst_append _ _ (fun a ha => by simpa using hbefore a ha) hkey
    refine ⟨_, storeBand_replace ha hm hn, ?_, ?_⟩
    · rw [hkept, List.find?_append, List.find?_eq_none.mpr hnone, Option.none_or, List.find?_cons_of_pos hself]
    · rw [hkept, List.eraseP_append_right _ hnone, List.eraseP_cons_of_pos hself, ← eraseP_hasKey _ _ _ hkeys, hsplit,
        List.eraseP_append_right _ hnone, List.eraseP_cons_of_pos hkey]

/-! ## The edges after a waited one -/

theorem State.resolve_edgesGoOn {j : Job} {before after : List Edge} {done : Edge} {kept left : List Band} {d : Edge} {s : State}
    (hjob : s.develop.job = some { j with edges := before ++ d :: after }) (hstore : s.develop.store = kept)
    (hbefore : ∀ b ∈ before, b.state = .oneSided ∨ ∃ l, b.state = .band l)
    (hres : resolveEdges j.shot (d :: after) kept = (done :: (resolveEdges j.shot after left).1, (resolveEdges j.shot after left).2)) :
    s.EdgesGoOn j before done after left s.resolve := by
  have hall : resolveEdges j.shot (before ++ d :: after) s.develop.store =
      (before ++ done :: (resolveEdges j.shot after left).1, (resolveEdges j.shot after left).2) := by
    rw [resolveEdges_passes j.shot _ _ before hbefore, hstore, hres]
  have heq := State.resolve_eq hjob
  dsimp only at heq
  rw [hall] at heq
  refine ⟨by rw [heq], fun hw => ?_, fun hw hpos => ?_⟩
  · rw [heq]
    dsimp only
    rw [hw]
    rfl
  · rw [heq]
    dsimp only
    rw [hw]
    exact State.loadSeam_clock hpos

/-- The first edge is pending, and the store has its band. -/
theorem resolveEdges_band {n : Shot} {e : Edge} {after : List Edge} {kept : List Band} {b : Band} (he : e.state = .pending)
    (hb : kept.find? (Band.hasKey e.neighbour n) = some b) :
    resolveEdges n (e :: after) kept = ({ e with state := .band b.samples } ::
      (resolveEdges n after (kept.eraseP (Band.hasKey e.neighbour n))).1,
      (resolveEdges n after (kept.eraseP (Band.hasKey e.neighbour n))).2) := by
  rw [resolveEdges, he]
  simp [hb]

theorem resolveEdges_oneSided {n : Shot} {e : Edge} (after : List Edge) (kept : List Band) (he : e.state = .oneSided) :
    resolveEdges n (e :: after) kept = (e :: (resolveEdges n after kept).1, (resolveEdges n after kept).2) := by
  rw [resolveEdges, he]

/-! ## The timer's expiry (R118) -/

/-- The job has an edge that waits, after edges that are resolved. -/
structure Job.WaitsAt (j : Job) (before : List Edge) (e : Edge) (after : List Edge) : Prop where
  edges : j.edges = before ++ e :: after
  waiting : e.state = .waiting
  resolved : ∀ b ∈ before, b.state = .oneSided ∨ ∃ l, b.state = .band l

variable {j : Job} {before after : List Edge} {e : Edge} {s : State}

theorem Job.WaitsAt.isWaiting (h : j.WaitsAt before e after) : j.waiting = true :=
  List.any_eq_true.mpr ⟨e, by simp [h.edges], by simp [h.waiting]⟩

theorem Job.WaitsAt.endWait (h : j.WaitsAt before e after) (st : EdgeState) :
    j.endWait st = { j with edges := before ++ { e with state := st } :: after } := by
  rw [Job.endWait, h.edges, endWait_edges st e after h.waiting before h.resolved]

theorem State.seamExpiry_waits (h : j.WaitsAt before e after) (hjob : s.develop.job = some j) (hp : j.phase = .edge) :
    s.EdgesGoOn { j with flags := { j.flags with seamMissing := true } } before { e with state := .oneSided } after s.develop.store
      s.seamExpiry := by
  have hexp : s.seamExpiry = State.resolve { s with develop := { s.develop with
      job := some { j with edges := before ++ { e with state := .oneSided } :: after, flags := { j.flags with seamMissing := true } } } } := by
    simp [State.seamExpiry, State.inPhase, hjob, hp, State.timeOutEdge, h.isWaiting, State.updJob, State.onDevelop, h.endWait]
  have hgo := State.resolve_edgesGoOn
    (s := { s with develop := { s.develop with
      job := some { j with edges := before ++ { e with state := .oneSided } :: after, flags := { j.flags with seamMissing := true } } } })
    (j := { j with flags := { j.flags with seamMissing := true } }) rfl rfl h.resolved
    (resolveEdges_oneSided after s.develop.store rfl)
  rw [hexp]
  exact ⟨hgo.same, hgo.still, hgo.waits⟩

theorem State.seamExpiry_still (h : ∀ j, s.develop.job = some j → j.phase = .edge → ∀ e ∈ j.edges, e.state ≠ .waiting) : s.seamExpiry = s := by
  unfold State.seamExpiry State.inPhase State.timeOutEdge
  split
  · rfl
  next j hj =>
    split
    next hp =>
      have hnot : ¬j.waiting = true := by simpa [Job.waiting] using h j hj hp
      rw [if_neg hnot]
    · rfl

theorem State.expire_seam (h : s.expires .seam) : s.expire .seam = State.seamExpiry { s with clock := s.clockAfter .seam } :=
  State.expire_expires h

/-- The seam timer's expiry alone comes before an event. -/
theorem State.expiriesFirst_seam (hp : s.power.state ≠ .sleep) (h : s.expiresAlone .seam) : s.expiriesFirst = s.expire .seam := by
  have hnot : ∀ id, id ≠ .seam → s.expire id = s := fun id hid => State.expire_not_due id s (h.2 id (TimerId.mem_all id) hid)
  rw [State.expiriesFirst, if_neg hp]
  simp only [TimerId.all, List.foldl_cons, List.foldl_nil, hnot .roll (by decide), hnot .mark (by decide),
    hnot .attribution (by decide), hnot .pulse (by decide), hnot .exposureLimit (by decide), hnot .dark (by decide),
    hnot .quiet (by decide)]

/-! ## A Seam taken (R126, R127) -/

variable {source : Node} {n : Shot} {d : Direction} {band : List Word16}

theorem exec_seamTaken (ht : s.takesFrames) (hcalm : s.calm) : exec (.seamTaken source n d band) s = .next (s.engineSeam source n d band) :=
  (State.event_of_calm _ s hcalm).trans (congrArg _ (State.take_takesFrames _ ht (by decide)))

theorem State.engineSeam_unread (h : s.settings.gridShape = none ∨ band.length ≠ 4 * edgeLength s.settings d) :
    s.engineSeam source n d band = s := by
  have hread : ¬seamReadable s.settings d band = true := by
    obtain h | h := h <;> simp [seamReadable, h]
  rw [State.engineSeam, if_neg hread]

/-- A Seam that the station can read. -/
theorem State.engineSeam_read (hg : s.settings.gridShape ≠ none) (hl : band.length = 4 * edgeLength s.settings d) :
    s.engineSeam source n d band = match neighbour? s.settings.gridShape source.toNat d with
      | none => s.lateBand
      | some m => if m ≠ s.self.toNat then s
        else if (s.entry? n).isNone || s.edgeFinished source n then s.lateBand else s.keepBand source n band := by
  have hread : seamReadable s.settings d band = true := by simp [seamReadable, hl, Option.isSome_iff_ne_none, hg]
  rw [State.engineSeam, if_pos hread]
  rfl

theorem State.engineSeam_kept (hg : s.settings.gridShape ≠ none) (hl : band.length = 4 * edgeLength s.settings d)
    (hm : neighbour? s.settings.gridShape source.toNat d = some s.self.toNat) (hn : s.entry? n ≠ none) (hf : s.edgeFinished source n = false) :
    s.engineSeam source n d band = s.keepBand source n band := by
  rw [State.engineSeam_read hg hl, hm]
  simp [hf, hn]

theorem State.engineSeam_late (hg : s.settings.gridShape ≠ none) (hl : band.length = 4 * edgeLength s.settings d)
    (h : neighbour? s.settings.gridShape source.toNat d = none ∨ neighbour? s.settings.gridShape source.toNat d = some s.self.toNat ∧
      (s.entry? n = none ∨ s.edgeFinished source n = true)) :
    s.engineSeam source n d band = { s with develop := { s.develop with late := satInc 65535 s.develop.late } } := by
  rw [State.engineSeam_read hg hl]
  obtain h | ⟨hm, h | h⟩ := h
  · rw [h]
    rfl
  · rw [hm]
    simp [h]
    rfl
  · rw [hm]
    simp [h]
    rfl

/-- A band stored for no job that waits for it. -/
theorem State.keepBand_idle {store : List Band} (hstore : storeBand { neighbour := source.toNat, shot := n, samples := band } s.develop.store = some store)
    (hjob : ∀ k, s.develop.job = some k → k.waitsFor source n = false) :
    s.keepBand source n band = { s with develop := { s.develop with store := store } } := by
  have hidle : s.develop.job.any (Job.waitsFor source n) = false := by
    cases hk : s.develop.job with
    | none => rfl
    | some k => exact hjob k hk
  simp only [State.keepBand, hstore, hidle]
  rfl

/-- A band stored for the job that waits for it. -/
theorem State.keepBand_waits {kept : List Band} (h : j.WaitsAt before e after) (hjob : s.develop.job = some j) (hn : j.shot = n)
    (he : e.neighbour = source.toNat)
    (hstore : storeBand { neighbour := source.toNat, shot := n, samples := band } s.develop.store = some kept)
    (hfind : kept.find? (Band.hasKey source.toNat n) = some { neighbour := source.toNat, shot := n, samples := band }) :
    State.EdgesGoOn j before { e with state := .band band } after (kept.eraseP (Band.hasKey source.toNat n))
      { s with clock := { s.clock with timers := { s.clock.timers with seam := { s.clock.timers.seam with request := .stop } } } }
      (s.keepBand source n band) := by
  have hwaits : s.develop.job.any (Job.waitsFor source n) = true := by
    rw [hjob, Option.any_some, Job.waitsFor, Bool.and_eq_true]
    exact ⟨by simp [hn], List.any_eq_true.mpr ⟨e, by simp [h.edges], by simp [he, h.waiting]⟩⟩
  have hkeep : s.keepBand source n band = State.resolve { s with
      develop := { s.develop with job := some { j with edges := before ++ { e with state := .pending } :: after }, store := kept }
      clock := { s.clock with timers := { s.clock.timers with seam := { s.clock.timers.seam with request := .stop } } } } := by
    simp only [State.keepBand, hstore, hwaits, State.doIf_true, State.endWaitByBand]
    simp [State.updJob, State.onDevelop, hjob, h.endWait, State.stopTimer, State.onTimer, State.onClock, Timers.upd, Timer.halt]
  subst hn
  have hgo := State.resolve_edgesGoOn
    (s := { s with
      develop := { s.develop with job := some { j with edges := before ++ { e with state := .pending } :: after }, store := kept }
      clock := { s.clock with timers := { s.clock.timers with seam := { s.clock.timers.seam with request := .stop } } } })
    (j := j) rfl rfl h.resolved (resolveEdges_band (e := { e with state := .pending }) rfl (he ▸ hfind))
  rw [hkeep, ← he]
  exact ⟨hgo.same, hgo.still, hgo.waits⟩

/-- Settles O42: the rows of R126, the store of R127, and the edges that go on. -/
theorem seamsAreStoredOrCounted : Obligations.SeamsAreStoredOrCounted := by
  refine ⟨fun source n d band s ht => ⟨fun hcalm h => ?_, fun hg hl => ⟨fun hcalm h => ?_, fun m hcalm hm hne => ?_, fun hcalm hm hn hf => ?_,
    fun j before e after hm hn hf hjob hp hshot hedges he hw hbefore hafter => ⟨fun hcalm hkeys hroom => ?_, fun halone => ?_⟩⟩⟩,
    fun s => ⟨fun hnot => ?_, fun hexp hstill => ?_⟩, fun j s hexp hjob hp before e after hedges hw hbefore hafter => ?_⟩
  · rw [exec_seamTaken ht hcalm, State.engineSeam_unread h]
  · rw [exec_seamTaken ht hcalm, State.engineSeam_late hg hl h]
  · rw [exec_seamTaken ht hcalm, State.engineSeam_read hg hl, hm]
    simp [hne]
  · rw [exec_seamTaken ht hcalm, State.engineSeam_kept hg hl hm hn hf]
    refine ⟨fun hnew hfull => ?_, fun hidle => ⟨fun hnew hroom => ?_, fun before b after hstore hbm hbn hbefore => ?_⟩⟩
    · rw [State.keepBand, storeBand_full hnew hfull]
      rfl
    · rw [State.keepBand_idle (storeBand_new hnew hroom) hidle]
    · have hmem : b ∈ s.develop.store := by simp [hstore]
      refine congrArg _ ((State.keepBand_idle (storeBand_replace hmem hbm hbn) hidle).trans ?_)
      rw [hstore, updFirst_append _ _ (fun a ha => ?_) ((Band.hasKey_iff _ _ b).mpr ⟨hbm, hbn⟩), ← hbm, ← hbn]
      simpa [Band.hasKey, ← not_and_or] using hbefore a ha
  · have hwaits : j.WaitsAt before e after := ⟨hedges, hw, hbefore⟩
    obtain ⟨kept, hstore, hfind, herase⟩ := storeBand_kept (b := { neighbour := source.toNat, shot := n, samples := band }) hkeys hroom
    have hgo := State.keepBand_waits hwaits hjob hshot he hstore hfind
    have hexec : exec (.seamTaken source n d band) s = .next (s.keepBand source n band) := by
      rw [exec_seamTaken ht hcalm, State.engineSeam_kept hg hl hm hn hf]
    have hres := resolveEdges_pending j.shot (kept.eraseP (Band.hasKey source.toNat n)) hafter
    rw [herase] at hres hgo
    exact ⟨_, _, _, _, hexec, hshot ▸ hres, hgo.same, hgo.still, hgo.waits⟩
  · have hwaits : j.WaitsAt before e after := ⟨hedges, hw, hbefore⟩
    have hgo := State.seamExpiry_waits (s := { s with clock := s.clockAfter .seam }) hwaits hjob hp
    rw [← State.expire_seam halone.1] at hgo
    have hfin : (s.expire .seam).edgeFinished source n = true := by
      rw [hgo.same]
      refine Bool.or_eq_true_iff.mpr (.inr ?_)
      simp [hshot, he, Edge.resolved]
    have htaken : (s.expire .seam).takesFrames := by
      rw [hgo.same]
      exact ht
    have hsettings : (s.expire .seam).settings = s.settings := by
      rw [hgo.same]
      rfl
    have hself : (s.expire .seam).self = s.self := by
      rw [hgo.same]
      rfl
    refine ⟨_, rfl, ?_⟩
    change Host.Outcome.next (s.expiriesFirst.take .other (State.engineSeam source n d band)) = _
    rw [State.expiriesFirst_seam ht.1 halone, State.take_takesFrames _ htaken (by decide),
      State.engineSeam_late (by rwa [hsettings]) (by rwa [hsettings]) (.inr ⟨by rwa [hsettings, hself], .inr hfin⟩)]
  · exact congrArg _ (State.expire_not_due .seam s (by simpa using hnot))
  · exact congrArg _ ((State.expire_seam hexp).trans (State.seamExpiry_still hstill))
  · have hwaits : j.WaitsAt before e after := ⟨hedges, hw, hbefore⟩
    have hgo := State.seamExpiry_waits (s := { s with clock := s.clockAfter .seam }) hwaits hjob hp
    rw [← State.expire_seam hexp] at hgo
    exact ⟨_, _, _, _, rfl, resolveEdges_pending j.shot _ hafter, hgo.same, hgo.still, hgo.waits⟩

end Sys2Proof.Machine
end

section
/-! PROOF. The freeing of a shot's slot (R89): what each block makes of it. -/

namespace Sys2Proof.Machine

/-- The freeing of a shot's slot, block by block: `u` once slot, entry, job, bands and bulk frames are gone, `v` once the tile has been
left, `w` once the placement has been voided. -/
structure State.Freed (n : Shot) (e : Entry) (s u v w : State) : Prop where
  gone : s.shotGone n u
  outShots : u.shots = { s.shots.without n with placements := s.shots.placements }
  stays : s.transfer.current ≠ some n → v = u
  leaves : s.transfer.current = some n → State.tileChosen { u with transfer := { u.transfer with current := none } } v
  left : v = u.leaveTile n
  unplaced : s.card.placed? n = none → w = v
  voided : ∀ p, s.card.placed? n = some p → w = (State.serve { v with card := { s.card.without n with
    writes := cancelWrites (Write.ofPlaced p) s.card.writes ++ [p.voidRecord p.closeFlags e] } }).ejected
  void : w = v.voidPlacement e
  freed : s.freeSlot n = w.tryStartJob

namespace State

variable {s : State} {n : Shot} {e : Entry}

/-! ## What a shot that goes leaves behind -/

/-- The station once slot and entry of a shot, its job, its bands and its bulk frames are gone. -/
def shotOut (n : Shot) (s : State) : State := ((s.onRing (Ring.remove n)).developFreed n).cancelBulk (Msg.isSegmentOf n)

theorem developFreed_eq (n : Shot) (s : State) : s.developFreed n = { s with
    link := s.link.cancelBulk (Msg.isSeamOf n)
    clock := (s.doIf (s.develop.job.any fun j => j.shot == n && j.waiting) (stopTimer .seam)).clock
    develop := { s.develop with
      job := s.develop.job.filter (·.shot ≠ n), owed := s.develop.owed.filter (·.1 ≠ n), store := s.develop.store.filter (·.shot ≠ n) } } := by
  have howed : s.develop.owed.filter (·.1 != n) = s.develop.owed.filter (·.1 ≠ n) := List.filter_congr fun _ _ => (by rw [Bool.eq_iff_iff]; simp)
  have hstore : s.develop.store.filter (·.shot != n) = s.develop.store.filter (·.shot ≠ n) := List.filter_congr fun _ _ => (by rw [Bool.eq_iff_iff]; simp)
  cases hjob : s.develop.job with
  | none =>
    simp [developFreed, hjob, onDevelop, cancelBulk, onLink, howed, hstore]
  | some j =>
    by_cases hn : j.shot = n
    · cases hw : j.waiting <;>
        simp [developFreed, stopJob, hjob, hn, hw, onDevelop, cancelBulk, onLink, howed, hstore, stopTimer, onTimer, onClock, Option.filter]
    · simp [developFreed, hjob, hn, onDevelop, cancelBulk, onLink, howed, hstore, Option.filter]

theorem remove_slot? (n m : Shot) (s : State) : (s.onRing (Ring.remove n)).slot? m = if m = n then none else s.slot? m := by
  unfold slot?
  simp only [onRing, Ring.remove]
  induction s.ring.slots with
  | nil => simp
  | cons o os ih =>
    rw [List.map_cons, List.findSome?_cons, List.findSome?_cons, ih]
    cases o with
    | none => rfl
    | some x =>
      by_cases hx : x.shot = n
      · by_cases hm : m = n
        · simp [hx, hm]
        · have hnm : ¬n = m := fun h => hm h.symm
          simp [hx, hm, hnm, Option.filter]
      · by_cases hxm : x.shot = m
        · have hm : m ≠ n := fun h => hx (hxm.trans h)
          simp [hxm, hm]
        · simp [hx, hxm, Option.filter]

theorem remove_entry? (n m : Shot) (s : State) : (s.onRing (Ring.remove n)).entry? m = if m = n then none else s.entry? m := by
  unfold entry?
  simp only [onRing, Ring.remove]
  by_cases hm : m = n
  · subst hm
    rw [if_pos rfl, List.find?_eq_none]
    intro e he
    simpa using (List.mem_filter.mp he).2
  · rw [if_neg hm, List.find?_filter]
    refine congrArg (fun p => s.ring.roster.find? p) (funext fun e => ?_)
    by_cases he : e.shot = m
    · simp [he, hm]
    · simp [he]

theorem shotOut_gone (n : Shot) (s : State) : s.shotGone n (s.shotOut n) := by
  have hslot : ∀ m, (s.shotOut n).slot? m = (s.onRing (Ring.remove n)).slot? m := fun m => slot?_congr (by simp [shotOut]) m
  have hentry : ∀ m, (s.shotOut n).entry? m = (s.onRing (Ring.remove n)).entry? m := fun m => entry?_congr (by simp [shotOut]) m
  refine ⟨by simp [hentry, remove_entry?], by simp [hslot, remove_slot?], fun m hm => by simp [hentry, remove_entry?, hm],
    fun m hm => by simp [hslot, remove_slot?, hm], ?_, fun j hj hn hw => ?_, fun h => ?_⟩
  · rw [shotOut, developFreed_eq]
    rfl
  · rw [shotOut, developFreed_eq]
    simp [cancelBulk, onLink, onRing, hj, hn, hw, stopTimer, onTimer, onClock, Timers.upd, Timer.halt]
  · rw [shotOut, developFreed_eq]
    cases hj : s.develop.job with
    | none => simp [cancelBulk, onLink, onRing, hj]
    | some j =>
      have hnot : (j.shot == n && j.waiting) = false := by simpa [imp_iff_not_or] using h j hj
      simp [cancelBulk, onLink, onRing, hj, hnot]

theorem shotOut_shots (n : Shot) (s : State) : (s.shotOut n).shots = { s.shots.without n with placements := s.shots.placements } := by
  rw [shotOut, cancelBulk_shots, developFreed_shots, remove_shots]

theorem rosterShots_nodup (h : s.ringOk) : (s.ring.roster.map (·.shot)).Nodup := by
  rw [← s.shots_rosterShots]
  exact (s.ringOk_iff.mp h).nodup

theorem ringOk.shotOut (h : s.ringOk) (n : Shot) : (s.shotOut n).ringOk := by
  obtain ⟨he, ht, hen, hsl, hn, hb, hl⟩ := (s.ringOk_iff.mp h).without n
  rw [ringOk_iff, shotOut_shots]
  exact ⟨he, ht, hen, hsl, hn, hb, hl⟩

theorem voidPlacement_voids {p : Placed} (he : e.shot = n) (hp : s.card.placed? n = some p) :
    s.voidPlacement e = (State.serve { s with card := { s.card.without n with
      writes := cancelWrites (Write.ofPlaced p) s.card.writes ++ [p.voidRecord p.closeFlags e] } }).ejected := by
  have hpn : p.shot = n := by simpa using List.find?_some hp
  unfold voidPlacement
  rw [he, hp]
  dsimp only
  rw [ejectTest_eq, ← hpn]
  rfl

theorem voidPlacement_unplaced (he : e.shot = n) (hp : s.card.placed? n = none) : s.voidPlacement e = s := by
  unfold voidPlacement
  rw [he, hp]

/-- The freeing of a shot's slot, block by block. -/
theorem ringOk.freeSlot (h : s.ringOk) (he : s.entry? n = some e) :
    s.Freed n e (s.shotOut n) ((s.shotOut n).leaveTile n) (((s.shotOut n).leaveTile n).voidPlacement e) where
  gone := shotOut_gone n s
  outShots := shotOut_shots n s
  stays hc := by
    have hout : (s.shotOut n).transfer = s.transfer := by simp [State.shotOut]
    rw [leaveTile_other _ _ (by rwa [hout])]
  leaves hc := by
    have hout : (s.shotOut n).transfer = s.transfer := by simp [State.shotOut]
    rw [leaveTile, if_pos (by rw [hout, hc])]
    exact chooseTile_chosen _ (rosterShots_nodup (h.shotOut n))
  left := rfl
  unplaced hp := voidPlacement_unplaced (entry?_shot he) (by simpa [State.shotOut] using hp)
  voided p hp := by
    have hcard : ((s.shotOut n).leaveTile n).card = s.card := by simp [State.shotOut]
    rw [voidPlacement_voids (entry?_shot he) (by rw [hcard]; exact hp), hcard]
  void := rfl
  freed := by
    rw [State.freeSlot, he]
    rfl

/-! ## What the freeing keeps -/

namespace Freed

variable {u v w : State}

theorem leftShots (h : s.Freed n e u v w) : v.shots = u.shots := by rw [h.left, leaveTile_shots]

theorem voidedRing (h : s.Freed n e u v w) : w.ring = v.ring := by simp [h.void]

/-- Slots and roster of what is left are in step. -/
theorem ringOk (h : s.Freed n e u v w) (hs : s.ringOk) : w.ringOk := by
  have hshots : w.shots = { v.shots with placements := w.shots.placements } := by
    rw [State.shots, State.shots, h.voidedRing]
  have hout := (s.ringOk_iff.mp hs).without n
  rw [ringOk_iff, hshots, h.leftShots, h.outShots]
  obtain ⟨he, ht, hen, hsl, hn, hb, hl⟩ := hout
  exact ⟨he, ht, hen, hsl, hn, hb, hl⟩

theorem leftSlot? (h : s.Freed n e u v w) (m : Shot) : w.slot? m = u.slot? m := by
  have hslots : v.ring.slots = u.ring.slots := by
    rw [h.left, leaveTile]
    split
    · rw [chooseTile_ring]
      rfl
    · rfl
  exact slot?_congr (by rw [h.voidedRing, hslots]) m

theorem slot?_gone (h : s.Freed n e u v w) : (s.freeSlot n).slot? n = none := by
  obtain ⟨-, hnone, -⟩ := h.gone
  rw [h.freed]
  exact tryStartJob_slot?_none ((h.leftSlot? n).trans hnone)

theorem entry?_gone (h : s.Freed n e u v w) : (s.freeSlot n).entry? n = none := by
  by_contra hne
  have hmem := mem_rosterShots.mpr hne
  rw [freeSlot_shots] at hmem
  split at hmem
  next hn =>
    rw [mem_rosterShots] at hmem
    exact hmem hn
  · obtain ⟨p, hp, hpn⟩ := List.mem_map.mp hmem
    have hother := (List.mem_filter.mp hp).2
    simp [hpn] at hother

/-- The slots of other shots, of which the test of R112 may start one. -/
theorem slot?_other (h : s.Freed n e u v w) (hs : s.ringOk) {m : Shot} (hm : m ≠ n) {y : Slot} (hy : s.slot? m = some y) :
    ∃ z, (s.freeSlot n).slot? m = some z ∧ y.MayHaveStarted z := by
  obtain ⟨-, -, -, hother, -⟩ := h.gone
  rw [h.freed]
  exact (h.ringOk hs).tryStartJob_slot? ((h.leftSlot? m).trans ((hother m hm).trans hy))

theorem entry?_left (h : s.Freed n e u v w) (m : Shot) : (s.freeSlot n).entry? m = v.entry? m := by
  rw [h.freed, tryStartJob_entry?]
  exact entry?_congr (by rw [h.voidedRing]) m

theorem entry?_other (h : s.Freed n e u v w) {m : Shot} (hm : m ≠ n) : (v.entry? m).isSome = (s.entry? m).isSome := by
  obtain ⟨-, -, hother, -⟩ := h.gone
  have hu : (v.entry? m).isSome = (u.entry? m).isSome := by
    rw [Bool.eq_iff_iff, Option.isSome_iff_ne_none, Option.isSome_iff_ne_none, ← mem_rosterShots, ← mem_rosterShots, h.leftShots]
  rw [hu, hother m hm]

theorem same (h : s.Freed n e u v w) : s.freeSlot n = { w with ring := (s.freeSlot n).ring, develop := (s.freeSlot n).develop } := by
  rw [h.freed, tryStartJob_eq]

end Freed

end State

end Sys2Proof.Machine
end

section
/-! PROOF. A freed slot in the words of the statements, and the placement frames (R83-R88, R146). -/

namespace Sys2Proof.Machine

/-- What an operation leaves that queues frames alone: the bulk frame in hand, and the placement list. -/
structure State.QueuesAlone (s t : State) : Prop where
  bulk : t.link.bulk = s.link.bulk
  placements : t.card.placements = s.card.placements

theorem Membership.place_bulk (m : Membership) (f : Frame) (l : Link) : (m.place f l).bulk = l.bulk := by
  have hgive : ∀ l : Link, (l.give f).bulk = l.bulk := by
    intro l
    unfold Link.give
    repeat' split
    all_goals rfl
  unfold Membership.place
  repeat' split
  all_goals simp only [hgive]

namespace State

variable {s : State} {n : Shot} {e : Entry}

theorem QueuesAlone.refl (s : State) : s.QueuesAlone s := ⟨rfl, rfl⟩

theorem QueuesAlone.trans {t u : State} (h : s.QueuesAlone t) (h' : t.QueuesAlone u) : s.QueuesAlone u :=
  ⟨h'.bulk.trans h.bulk, h'.placements.trans h.placements⟩

theorem queue_alone (d : BitVec 4) (m : Msg) (s : State) : s.QueuesAlone (s.queue d m) := ⟨s.member.place_bulk _ _, rfl⟩

theorem claimSocket_alone (n : Shot) (k : Socket) (s : State) : s.QueuesAlone (s.claimSocket n k) := by
  unfold claimSocket
  split
  · exact .refl s
  · split
    · exact .refl s
    · split
      · exact QueuesAlone.trans (t := s.updEntry n (Entry.updPart k fun q => { q with transfer := .claiming })) ⟨rfl, rfl⟩ (queue_alone _ _ _)
      · exact .refl s

theorem claimTargets_alone (n : Shot) (s : State) : s.QueuesAlone (s.claimTargets n) := by
  unfold claimTargets
  split
  · exact (claimSocket_alone _ _ _).trans (claimSocket_alone _ _ _)
  · exact .refl s

theorem chooseTile_alone (s : State) : s.QueuesAlone s.chooseTile := by
  unfold chooseTile
  split
  · exact .refl s
  · split
    · exact .refl s
    next m _ =>
      exact QueuesAlone.trans (t := (s.onTransfer fun t => { t with current := some m }).updEntry m Entry.startPass) ⟨rfl, rfl⟩
        (claimTargets_alone m _)

theorem leaveTile_alone (n : Shot) (s : State) : s.QueuesAlone (s.leaveTile n) := by
  unfold leaveTile
  split
  · exact QueuesAlone.trans (t := s.onTransfer fun t => { t with current := none }) ⟨rfl, rfl⟩ (chooseTile_alone _)
  · exact .refl s

theorem grantClaim_alone (q : Claim) (s : State) : s.QueuesAlone (s.grantClaim q) := by
  unfold grantClaim
  split
  · exact queue_alone _ _ s
  · exact QueuesAlone.trans (t := s.onCard (Card.setGrant _)) ⟨rfl, rfl⟩ (queue_alone _ _ _)

theorem serveFrom_alone (qs : List Claim) (s : State) : s.QueuesAlone (serveFrom qs s) := by
  induction qs generalizing s with
  | nil => exact .refl s
  | cons q qs ih =>
    unfold serveFrom
    split
    · exact QueuesAlone.trans (t := s.onCard fun c => { c with waiting := qs }) ⟨rfl, rfl⟩ ((grantClaim_alone q _).trans (ih _))
    · exact .refl s

theorem ejected_alone (s : State) : s.QueuesAlone s.ejected := by
  unfold ejected
  split
  · exact ⟨rfl, rfl⟩
  · exact .refl s

theorem voidPlacement_bulk (e : Entry) (s : State) : (s.voidPlacement e).link.bulk = s.link.bulk := by
  unfold voidPlacement
  split
  · rfl
  · rw [ejectTest_eq]
    exact (ejected_alone _).bulk.trans (serveFrom_alone _ _).bulk

/-- A voided placement leaves the placement list. -/
theorem voidPlacement_placements (e : Entry) (s : State) :
    (s.voidPlacement e).card.placements = s.card.placements.eraseP (·.shot == e.shot) := by
  unfold voidPlacement
  split
  next hp => exact (List.eraseP_of_forall_not fun p hm => List.find?_eq_none.mp hp p hm).symm
  next p hp =>
    have hpn : p.shot = e.shot := by simpa using List.find?_some hp
    rw [ejectTest_eq, (ejected_alone _).placements, serve, (serveFrom_alone _ _).placements, ← hpn]
    rfl

/-- A tile that the Transfer Unit has chosen is in the roster. -/
theorem chooseTile_current {m : Shot} (hc : s.transfer.current = none) (h : s.chooseTile.transfer.current = some m) : s.entry? m ≠ none := by
  unfold chooseTile at h
  rw [hc] at h
  dsimp only at h
  split at h
  · rw [hc] at h
    cases h
  next k hk =>
    have hkm : k = m := by simpa [beginPass] using h
    subst hkm
    obtain ⟨hmem, -⟩ := lowestShot_least _ _ hk
    obtain ⟨f, hf, hfk⟩ := List.mem_map.mp hmem
    exact fun hnone => entry?_eq_none.mp hnone f (List.mem_filter.mp hf).1 hfk

/-- The Segment in hand of a shot is cancelled. -/
theorem cancelBulk_cancels (n : Shot) (l : Link) {b : Bulk} {g : SegmentBody} (hb : (l.cancelBulk (Msg.isSegmentOf n)).bulk = some b)
    (hg : b.frame.msg = .segment g) (hn : g.shot = n) : b.cancelled = true := by
  unfold Link.cancelBulk at hb
  split at hb
  next hnone =>
    rw [hnone] at hb
    cases hb
  next c hc =>
    split at hb
    · split at hb
      · cases hb
        rfl
      · cases hb
    next hnot =>
      rw [hc] at hb
      cases hb
      simp [hg, Msg.isSegmentOf, hn] at hnot

namespace Freed

variable {u v w : State}

theorem card_placements (h : s.Freed n e u v w) (he : s.entry? n = some e) :
    (s.freeSlot n).card.placements = s.card.placements.eraseP (·.shot == n) := by
  have hcard : v.card = s.card := by
    obtain ⟨-, -, -, -, hu, -⟩ := h.gone
    rw [h.left, (leaveTile_frame n u).2.2.2.2.2.2.1, hu]
  rw [h.same, h.void, voidPlacement_placements, hcard, entry?_shot he]

theorem bulk (h : s.Freed n e u v w) : (s.freeSlot n).link.bulk = u.link.bulk := by
  rw [h.same, h.void]
  refine (voidPlacement_bulk e v).trans ?_
  rw [h.left]
  exact (leaveTile_alone n u).bulk

theorem current (h : s.Freed n e u v w) : (s.freeSlot n).transfer.current ≠ some n := by
  have htransfer : (s.freeSlot n).transfer = v.transfer := by simp [h.freed, h.void]
  obtain ⟨hnone, -⟩ := h.gone
  rw [htransfer, h.left, leaveTile]
  split
  · exact fun hc => chooseTile_current (s := u.onTransfer fun t => { t with current := none }) rfl hc hnone
  next hc => exact hc

/-- The freed slot, in the words of the statements. -/
theorem freedAs (h : s.Freed n e u v w) (he : s.entry? n = some e) : s.freedAs n (s.freeSlot n) := by
  obtain ⟨-, -, -, -, hu, -⟩ := h.gone
  have htop : (s.freeSlot n).ring.top = s.ring.top := by
    have hshots := freeSlot_shots n s
    rw [if_neg (by simp [he])] at hshots
    exact congrArg Shots.top hshots
  refine ⟨h.entry?_gone, h.slot?_gone, htop, by simp, h.card_placements he, h.current, fun b g hb hg hn => ?_,
    by simp, by simp, by simp, by simp, by simp⟩
  rw [h.bulk, hu] at hb
  exact cancelBulk_cancels n _ hb hg hn

end Freed

end State

end Sys2Proof.Machine
end

section
/-! PROOF. The placement frames: Place, Commit and Unplace (R83-R88, R146, R153, R170). -/

namespace Sys2Proof.Machine

/-- What the Transfer Unit leaves of a roster entry: shot, members, and the station and the placement of each part. -/
structure Entry.SamePlacements (e f : Entry) : Prop where
  shot : f.shot = e.shot
  members : f.members = e.members
  parts : ∀ k, (f.part k).map (fun p => (p.station, p.placement)) = (e.part k).map fun p => (p.station, p.placement)

namespace Entry

variable {e : Entry}

theorem SamePlacements.refl (e : Entry) : e.SamePlacements e := ⟨rfl, rfl, fun _ => rfl⟩

theorem SamePlacements.trans {f g : Entry} (h : e.SamePlacements f) (h' : f.SamePlacements g) : e.SamePlacements g :=
  ⟨h'.shot.trans h.shot, h'.members.trans h.members, fun k => (h'.parts k).trans (h.parts k)⟩

theorem SamePlacements.placement? {f : Entry} (h : e.SamePlacements f) (k : Socket) : f.placement? k = e.placement? k := by
  have hp := congrArg (Option.map Prod.snd) (h.parts k)
  simpa [Entry.placement?, Function.comp_def] using hp

theorem SamePlacements.station {f : Entry} (h : e.SamePlacements f) (k : Socket) : (f.part k).map (·.station) = (e.part k).map (·.station) := by
  have hp := congrArg (Option.map Prod.fst) (h.parts k)
  simpa [Function.comp_def] using hp

/-! ## Parts -/

theorem part_updPart (k k' : Socket) (f : Part → Part) (e : Entry) :
    (e.updPart k f).part k' = (e.part k').map fun p => if k' = k then f p else p := by
  cases k <;> cases k' <;> simp [updPart, part]

theorem mem_parts (e : Entry) (p : Part) : p ∈ e.parts ↔ ∃ k, e.part k = some p := by
  simp only [parts, List.mem_append, Option.mem_toList]
  constructor
  · rintro (h | h)
    · exact ⟨.a, h⟩
    · exact ⟨.b, h⟩
  · rintro ⟨k, h⟩
    cases k
    · exact .inl h
    · exact .inr h

/-- An update of one part that keeps its station and its placement. -/
theorem updPart_samePlacements (k : Socket) {f : Part → Part} (hf : ∀ p, (f p).station = p.station ∧ (f p).placement = p.placement) (e : Entry) :
    e.SamePlacements (e.updPart k f) := by
  refine ⟨updPart_shot k f e, by cases k <;> rfl, fun k' => ?_⟩
  rw [part_updPart, Option.map_map]
  refine Option.map_congr fun p _ => ?_
  obtain ⟨hs, hp⟩ := hf p
  by_cases hk : k' = k <;> simp [hk, hs, hp]

theorem mapParts_samePlacements {f : Part → Part} (hf : ∀ p, (f p).station = p.station ∧ (f p).placement = p.placement) (e : Entry) :
    e.SamePlacements (e.mapParts f) := by
  refine ⟨rfl, rfl, fun k => ?_⟩
  cases k
  all_goals
    simp only [mapParts, part, Option.map_map]
    refine Option.map_congr fun p _ => ?_
    obtain ⟨hs, hp⟩ := hf p
    simp [hs, hp]

theorem startPass_samePlacements (e : Entry) : e.SamePlacements e.startPass := by
  obtain ⟨hs, hm, hp⟩ := mapParts_samePlacements
    (f := fun p => if p.isOpen && (p.transfer == .idle || p.transfer == .closed) then { p with transfer := .sending } else p)
    (fun p => by split <;> exact ⟨rfl, rfl⟩) e
  exact ⟨hs, hm, hp⟩

/-! ## The unmirrored flag (R86) -/

theorem settleUnmirrored_eq (mode : StorageMode) (e : Entry) :
    e.settleUnmirrored mode = { e with unmirrored := (e.settleUnmirrored mode).unmirrored } := by
  unfold settleUnmirrored
  repeat' split
  all_goals rfl

theorem settleUnmirrored_part (mode : StorageMode) (k : Socket) (e : Entry) : (e.settleUnmirrored mode).part k = e.part k := by
  rw [settleUnmirrored_eq]
  cases k <;> rfl

/-- The flag stands outside Mirror, and where a part is missing. -/
theorem settleUnmirrored_stands {mode : StorageMode} (h : mode ≠ .mirror ∨ ∃ k, e.part k = none) : e.settleUnmirrored mode = e := by
  unfold settleUnmirrored
  split
  next a b ha hb =>
    obtain h | ⟨k, hk⟩ := h
    · exact absurd rfl h
    · cases k
      · cases ha.symm.trans hk
      · cases hb.symm.trans hk
  · rfl

/-- In Mirror the flag is set where one part is lost and the other made, and cleared where both are made. -/
theorem settleUnmirrored_mirror {k k' : Socket} {q r : Part} (hk : k' ≠ k) (hq : e.part k = some q) (hr : e.part k' = some r) :
    (e.settleUnmirrored .mirror).unmirrored =
      if (q.placement.gone && r.placement.made) || (q.placement.made && r.placement.gone) then true
      else if q.placement.made && r.placement.made then false else e.unmirrored := by
  cases k <;> cases k'
  · exact absurd rfl hk
  · simp only [part] at hq hr
    simp only [settleUnmirrored, hq, hr]
    split
    · rfl
    · split <;> rfl
  · simp only [part] at hq hr
    simp only [settleUnmirrored, hq, hr]
    rw [Bool.or_comm, Bool.and_comm, Bool.and_comm (r.placement.gone), Bool.and_comm r.placement.made q.placement.made]
    split
    · rfl
    · split <;> rfl
  · exact absurd rfl hk

end Entry

/-- Every roster entry keeps what the Transfer Unit leaves. -/
structure State.SamePlacements (s t : State) : Prop where
  entry : ∀ m e, s.entry? m = some e → ∃ f, t.entry? m = some f ∧ e.SamePlacements f

namespace State

variable {s : State}

theorem SamePlacements.refl (s : State) : s.SamePlacements s := ⟨fun _ e h => ⟨e, h, .refl e⟩⟩

theorem SamePlacements.trans {t u : State} (h : s.SamePlacements t) (h' : t.SamePlacements u) : s.SamePlacements u where
  entry m e he := by
    obtain ⟨f, hf, hef⟩ := h.entry m e he
    obtain ⟨g, hg, hfg⟩ := h'.entry m f hf
    exact ⟨g, hg, hef.trans hfg⟩

theorem updEntry_samePlacements (n : Shot) {f : Entry → Entry} (hf : ∀ e : Entry, e.SamePlacements (f e)) (s : State) : s.SamePlacements (s.updEntry n f) where
  entry m e he := by
    refine ⟨if m = n then f e else e, ?_, ?_⟩
    · rw [updEntry_entry? n m f s fun e => (hf e).shot, he]
      rfl
    · split
      · exact hf e
      · exact .refl e

theorem claimSocket_samePlacements (n : Shot) (k : Socket) (s : State) : s.SamePlacements (s.claimSocket n k) := by
  unfold claimSocket
  split
  · exact .refl s
  · split
    · exact .refl s
    · split
      · have hclaiming := updEntry_samePlacements n
          (f := Entry.updPart k fun q => { q with transfer := .claiming }) (Entry.updPart_samePlacements k fun _ => ⟨rfl, rfl⟩) s
        exact ⟨hclaiming.entry⟩
      · exact .refl s

theorem beginPass_samePlacements (n : Shot) (s : State) : s.SamePlacements (s.beginPass n) := by
  have hstart := updEntry_samePlacements n (f := Entry.startPass) Entry.startPass_samePlacements s
  unfold beginPass claimTargets
  split
  · exact hstart.trans ((claimSocket_samePlacements _ _ _).trans (claimSocket_samePlacements _ _ _))
  · exact hstart

theorem chooseTile_samePlacements (s : State) : s.SamePlacements s.chooseTile := by
  unfold chooseTile
  split
  · exact .refl s
  · split
    · exact .refl s
    next n _ => exact ⟨(beginPass_samePlacements n (s.onTransfer fun t => { t with current := some n })).entry⟩

theorem endPassIfDone_samePlacements (n : Shot) (s : State) : s.SamePlacements (s.endPassIfDone n) := by
  have hstart := updEntry_samePlacements n (f := fun x => { x with cursor := 0 }) (fun _ => ⟨rfl, rfl, fun k => by cases k <;> rfl⟩) s
  unfold endPassIfDone
  split
  · exact .refl s
  · split
    · exact .refl s
    · split
      · split
        · exact beginPass_samePlacements n s
        · unfold leaveTile
          split
          · exact hstart.trans ⟨(chooseTile_samePlacements (State.onTransfer (fun t => { t with current := none })
              (s.updEntry n fun x => { x with cursor := 0 }))).entry⟩
          · exact hstart
      · exact hstart

theorem leaveSocket_samePlacements (n : Shot) (k : Socket) (tr : Transfer) (b : Bool) (s : State) : s.SamePlacements (s.leaveSocket n k tr b) := by
  have hleft := updEntry_samePlacements n
    (f := Entry.updPart k fun p => { p with transfer := tr, grants := 0 }) (Entry.updPart_samePlacements k fun _ => ⟨rfl, rfl⟩) s
  unfold leaveSocket
  dsimp only
  split
  · refine hleft.trans (SamePlacements.trans (t := State.doIf _ (State.cancelBulk (Msg.isSegmentOf n)) _) ?_ (endPassIfDone_samePlacements n _))
    exact doIf_ind (P := fun u => SamePlacements _ u) _ _ _ (.refl _) ⟨(SamePlacements.refl _).entry⟩
  · exact hleft

/-! ## Socket B in Overflow (R146) -/

/-- A reservation looks at an entry's shot and members alone. -/
theorem tryReserve_congr {e f : Entry} (hs : f.shot = e.shot) (hm : f.members = e.members) (s : State) : s.tryReserve f = s.tryReserve e := by
  have hreserve : ∀ r b, Card.reserve f r b = Card.reserve e r b := fun r b => by
    funext c
    simp [Card.reserve, newPlaced, hs, hm]
  have hreservation : s.reservation f = s.reservation e := by simp only [reservation, hm]
  simp only [tryReserve, hreservation, hreserve, hs, hm]

theorem Entry.unplaced_iff (k : Socket) (e : Entry) :
    e.unplaced k = true ↔ e.placement? k ≠ some .reserved ∧ e.placement? k ≠ some .committed := by
  unfold Entry.unplaced
  cases e.placement? k with
  | none => simp
  | some p => cases p <;> simp [Placement.made]

/-- The station of a part, asked for in two ways. -/
theorem Entry.partA_station (e : Entry) (source : Node) :
    (e.part .a).any (·.station == source) = true ↔ e.partA.map (·.station) = some source := by
  rw [Entry.part]
  cases e.partA <;> simp

/-- The condition of R146, with the station, the storage mode and the roster as they stand. -/
theorem overflowCondition_iff (source : Node) (k : Socket) (e : Entry) (s : State) :
    (s.cardStation && s.card.letter == some .b && s.settings.storageMode == .overflow && k == .a
      && (e.part .a).any (·.station == source) && e.unplaced .b) = true ↔ k = .a ∧ s.overflowsTo source e := by
  simp only [Bool.and_eq_true, beq_iff_eq, Entry.unplaced_iff, Entry.partA_station]
  tauto

theorem overflowDecide_takes {source : Node} {n : Shot} {k : Socket} {e : Entry} (he : s.entry? n = some e)
    (h : k = .a ∧ s.overflowsTo source e) : s.overflowDecide source n k = s.tryReserve e := by
  unfold overflowDecide
  rw [he]
  exact if_pos ((overflowCondition_iff source k e s).mpr h)

theorem overflowDecide_stays {source : Node} {n : Shot} {k : Socket} (h : ∀ e, s.entry? n = some e → ¬(k = .a ∧ s.overflowsTo source e)) :
    s.overflowDecide source n k = s := by
  unfold overflowDecide
  split
  · rfl
  next e he => exact if_neg ((overflowCondition_iff source k e s).not.mpr (h e he))

/-- The condition of R146 after the Transfer Unit. -/
theorem overflowsTo_congr {source : Node} {e f : Entry} {t : State} (hst : f.partA.map (·.station) = e.partA.map (·.station))
    (hb : f.placement? .b = e.placement? .b) (hm : t.member = s.member) (hc : t.card = s.card) :
    t.overflowsTo source f ↔ s.overflowsTo source e := by
  have hcs : t.cardStation = s.cardStation := by simp only [cardStation, hm]
  simp only [overflowsTo, hcs, hc, settings, hm, hst, hb]

end State

end Sys2Proof.Machine
end

section
/-! PROOF. What Place, Commit and Unplace make of the entry they name (R83-R88, R170). -/

namespace Sys2Proof.Machine

/-- What a Place, a Commit or an Unplace finds of its shot. -/
structure State.Concerns (n : Shot) (k : Socket) (e : Entry) (p : Part) (x : Slot) (s : State) : Prop where
  ok : s.ringOk
  entry : s.entry? n = some e
  part : e.part k = some p
  slot : s.slot? n = some x

namespace Entry

variable {k : Socket} {e : Entry} {p : Part} {mode : StorageMode}

theorem placement?_of_part (hp : e.part k = some p) : e.placement? k = some p.placement := by simp [placement?, hp]

theorem updPart_self {f : Part → Part} (hp : e.part k = some p) (hf : f p = p) : e.updPart k f = e := by
  cases k
  all_goals
    simp only [part] at hp
    rw [updPart, hp, Option.map_some, hf, ← hp]

theorem updPart_congr {f g : Part → Part} (hp : e.part k = some p) (hf : f p = g p) : e.updPart k f = e.updPart k g := by
  cases k
  all_goals
    simp only [part] at hp
    simp only [updPart, hp, Option.map_some, hf]

theorem updPart_updPart (k : Socket) (f g : Part → Part) (e : Entry) : (e.updPart k f).updPart k g = e.updPart k (g ∘ f) := by
  cases k <;> simp [updPart]

theorem updPart_unmirrored (k : Socket) (f : Part → Part) (e : Entry) : (e.updPart k f).unmirrored = e.unmirrored := by cases k <;> rfl

theorem updPart_eq (k : Socket) (f : Part → Part) (e : Entry) :
    e.updPart k f = { e with partA := (e.updPart k f).partA, partB := (e.updPart k f).partB } := by cases k <;> rfl

theorem updPart_part_same {f : Part → Part} (hp : e.part k = some p) : (e.updPart k f).part k = some (f p) := by
  rw [part_updPart, hp, Option.map_some, if_pos rfl]

theorem updPart_part_other {k' : Socket} (f : Part → Part) (e : Entry) (hk : k' ≠ k) : (e.updPart k f).part k' = e.part k' := by
  rw [part_updPart]
  simp [hk]

/-! ## Place (R83, R86) -/

theorem placeAt_settles {o : PlaceOutcome} (hp : e.part k = some p) (hne : (p.place o).placement ≠ p.placement) :
    e.placeAt mode k o = (e.updPart k (Part.place o)).settleUnmirrored mode := by
  refine if_neg ?_
  rw [placement?_of_part hp, placement?_of_part (updPart_part_same hp)]
  simpa using hne

theorem placeAt_stays {o : PlaceOutcome} (hp : e.part k = some p) (h : (p.place o).placement = p.placement) :
    e.placeAt mode k o = e := by
  refine if_pos ?_
  rw [placement?_of_part hp, placement?_of_part (updPart_part_same hp), h]

theorem place_eq (o : PlaceOutcome) (p : Part) : p.place o = { p with placement :=
    if p.placement = .reserved ∨ p.placement = .committed then p.placement
    else match o with | .reserved .. => .reserved | .refused _ => .refused } := by
  unfold Part.place
  cases hp : p.placement <;> cases o <;> simp [Placement.made, hp] <;> (cases p; simp_all)

theorem placeAt_part {o : PlaceOutcome} (hp : e.part k = some p) : (e.placeAt mode k o).part k = some (p.place o) := by
  by_cases h : (p.place o).placement = p.placement
  · have hsame : p.place o = p := by
      rw [place_eq] at h ⊢
      exact congrArg (fun pl => { p with placement := pl }) h
    rw [placeAt_stays hp h, hp, hsame]
  · rw [placeAt_settles hp h, settleUnmirrored_part, updPart_part_same hp]

theorem placeAt_part_other {o : PlaceOutcome} {k' : Socket} (hk : k' ≠ k) (e : Entry) : (e.placeAt mode k o).part k' = e.part k' := by
  unfold placeAt
  split
  · rfl
  · rw [settleUnmirrored_part, updPart_part_other _ e hk]

theorem placeAt_eq (mode : StorageMode) (k : Socket) (o : PlaceOutcome) (e : Entry) : e.placeAt mode k o =
    { e with partA := (e.placeAt mode k o).partA, partB := (e.placeAt mode k o).partB, unmirrored := (e.placeAt mode k o).unmirrored } := by
  unfold placeAt
  split
  · rfl
  · rw [settleUnmirrored_eq, updPart_eq]

/-- A change of one part, and the flag that follows it. -/
theorem changed_unmirrored_stands {f : Part → Part} (h : mode ≠ .mirror ∨ ∀ k', k' ≠ k → e.part k' = none) :
    ((e.updPart k f).settleUnmirrored mode).unmirrored = e.unmirrored := by
  rw [settleUnmirrored_stands, updPart_unmirrored]
  refine h.imp id fun hnone => ?_
  have hother : ∃ k', k' ≠ k := by
    cases k
    · exact ⟨.b, by decide⟩
    · exact ⟨.a, by decide⟩
  obtain ⟨k', hk⟩ := hother
  exact ⟨k', by rw [updPart_part_other _ e hk, hnone k' hk]⟩

theorem changed_unmirrored_mirror {f : Part → Part} {k' : Socket} {r : Part} (hp : e.part k = some p) (hk : k' ≠ k) (hr : e.part k' = some r) :
    ((e.updPart k f).settleUnmirrored .mirror).unmirrored =
      if ((f p).placement.gone && r.placement.made) || ((f p).placement.made && r.placement.gone) then true
      else if (f p).placement.made && r.placement.made then false else e.unmirrored := by
  rw [settleUnmirrored_mirror hk (updPart_part_same hp) ((updPart_part_other _ e hk).trans hr), updPart_unmirrored]

/-! ## Commit and Unplace (R84, R85) -/

theorem commitAt_eq (hp : e.part k = some p) :
    e.commitAt k = e.updPart k fun q => { q with placement := if q.placement = .reserved then .committed else q.placement } := by
  unfold commitAt
  rw [placement?_of_part hp]
  split
  next h =>
    have hr : p.placement = .reserved := by simpa using h
    exact updPart_congr hp (by simp [hr])
  next h =>
    have hr : p.placement ≠ .reserved := by simpa using h
    exact (updPart_self hp (by simp [hr])).symm

theorem unplaceAt_reserved (hp : e.part k = some p) (h : p.placement = .reserved) :
    e.unplaceAt mode k = (e.updPart k fun q => { q with placement := .void }).settleUnmirrored mode := by
  rw [unplaceAt, placement?_of_part hp, h, if_pos rfl]

theorem unplaceAt_stays (hp : e.part k = some p) (h : p.placement ≠ .reserved) : e.unplaceAt mode k = e := by
  rw [unplaceAt, placement?_of_part hp, if_neg (by simpa using h)]

theorem unplaceAt_part (hp : e.part k = some p) : (e.unplaceAt mode k).part k =
    some { p with placement := if p.placement = .reserved then .void else p.placement } := by
  by_cases h : p.placement = .reserved
  · rw [unplaceAt_reserved hp h, settleUnmirrored_part, updPart_part_same hp, if_pos h]
  · rw [unplaceAt_stays hp h, hp, if_neg h]

theorem unplaceAt_part_other {k' : Socket} (hk : k' ≠ k) (e : Entry) : (e.unplaceAt mode k).part k' = e.part k' := by
  unfold unplaceAt
  split
  · rw [settleUnmirrored_part, updPart_part_other _ e hk]
  · rfl

/-- The entry once an Unplace has been taken, but for the flag. -/
theorem unplaceAt_updPart (hp : e.part k = some p) (f : Part → Part) : (e.unplaceAt mode k).updPart k f =
    { e.updPart k (fun q => f { q with placement := if q.placement = .reserved then .void else q.placement }) with
      unmirrored := (e.unplaceAt mode k).unmirrored } := by
  by_cases h : p.placement = .reserved
  · rw [unplaceAt_reserved hp h, settleUnmirrored_eq]
    have hcongr : e.updPart k (fun q => f { q with placement := if q.placement = .reserved then .void else q.placement }) =
        e.updPart k (f ∘ fun q => { q with placement := .void }) := updPart_congr hp (by simp [h])
    rw [hcongr, ← updPart_updPart]
    cases k <;> rfl
  · rw [unplaceAt_stays hp h]
    have hcongr : e.updPart k (fun q => f { q with placement := if q.placement = .reserved then .void else q.placement }) = e.updPart k f :=
      updPart_congr hp (by simp [h])
    rw [hcongr]
    cases k <;> rfl

/-! ## The completion test (R88) -/

theorem finished_iff (hp : e.part k = some p) : e.finished = true ↔
    (p.placement ≠ .reserved ∧ ∀ k' q, k' ≠ k → e.part k' = some q → q.placement ≠ .reserved) ∧
    (p.placement = .committed ∨ ∃ k' q, k' ≠ k ∧ e.part k' = some q ∧ q.placement = .committed) := by
  simp only [finished, Bool.and_eq_true, List.all_eq_true, List.any_eq_true, mem_parts, bne_iff_ne, beq_iff_eq]
  refine and_congr ⟨fun h => ⟨h p ⟨k, hp⟩, fun k' q _ hq => h q ⟨k', hq⟩⟩, fun ⟨hk, ho⟩ q ⟨k', hq⟩ => ?_⟩
    ⟨fun ⟨q, ⟨k', hq⟩, hc⟩ => ?_, fun h => h.elim (fun hc => ⟨p, ⟨k, hp⟩, hc⟩) fun ⟨k', q, _, hq, hc⟩ => ⟨q, ⟨k', hq⟩, hc⟩⟩
  · by_cases hkk : k' = k
    · subst hkk
      cases hq.symm.trans hp
      exact hk
    · exact ho k' q hkk hq
  · by_cases hkk : k' = k
    · subst hkk
      cases hq.symm.trans hp
      exact .inl hc
    · exact .inr ⟨k', q, hkk, hq, hc⟩

end Entry

theorem Tag.settled_iff (t : Tag) : t.settled = true ↔ t = .raw ∨ t = .developing ∨ t = .held ∨ t = .developed := by
  cases t <;> decide

namespace State

variable {s : State} {n : Shot}

/-- Where the test passes, the slot is freed. -/
theorem completionTest_frees {e : Entry} {x : Slot} (he : s.entry? n = some e) (hx : s.slot? n = some x) (hf : e.finished = true)
    (ht : x.tag.settled = true) : s.completionTest n = s.freeSlot n := by
  rw [completionTest, he, hx]
  simp [hf, ht]

theorem completionTest_stays {e : Entry} {x : Slot} (he : s.entry? n = some e) (hx : s.slot? n = some x)
    (h : e.finished = false ∨ x.tag.settled = false) : s.completionTest n = s := by
  rw [completionTest, he, hx]
  obtain h | h := h <;> simp [h]

/-- The Transfer Unit has nothing to leave where the shot is gone. -/
theorem leaveSocket_gone (k : Socket) (tr : Transfer) (b : Bool) (he : s.entry? n = none) (hc : s.transfer.current ≠ some n) :
    s.leaveSocket n k tr b = s := by
  have hcur : (s.transfer.current == some n) = false := by simpa using hc
  unfold leaveSocket
  dsimp only
  rw [updEntry_absent n _ s he, he, hcur, doIf_false, endPassIfDone, he]
  split <;> rfl

end State

end Sys2Proof.Machine
end

section
/-! PROOF. The placement frames' obligations (O35, O36). -/

namespace Sys2Proof.Machine

namespace State

variable {s : State} {n : Shot} {k : Socket} {e : Entry} {p : Part} {source : Node}

/-! ## Place -/

theorem exec_placeTaken (ht : s.takesFrames) (hcalm : s.calm) (o : PlaceOutcome) :
    exec (.placeTaken source n k o) s = .next (s.blocksPlace source n k o) :=
  (event_of_calm _ s hcalm).trans (congrArg _ (take_takesFrames _ ht (by decide)))

theorem ringPlace_entry? (o : PlaceOutcome) (he : s.entry? n = some e) :
    (s.ringPlace n k o).entry? n = some (e.placeAt s.settings.storageMode k o) := by
  rw [ringPlace, updEntry_entry? n n _ s fun e => (InStep.Entry.placeAt_same _ k o e).1, he]
  simp

theorem ringPlace_nodup (o : PlaceOutcome) (h : s.ringOk) : ((s.ringPlace n k o).ring.roster.map (·.shot)).Nodup := by
  rw [ringPlace, updEntry_shots n _ s fun e => (InStep.Entry.placeAt_same _ k o e).1]
  exact rosterShots_nodup h

/-- An update that changes nothing of the entry it meets changes nothing. -/
theorem updEntry_id_of {f : Entry → Entry} (h : s.ringOk) (hf : ∀ e, s.entry? n = some e → f e = e) : s.updEntry n f = s := by
  have hroster : (s.ring.roster.map fun e => if e.shot = n then f e else e) = s.ring.roster := by
    refine (List.map_congr_left fun e he => ?_).trans (List.map_id _)
    split
    next hn => exact hf e (hn ▸ h.entry? he)
    · rfl
  unfold updEntry onRing Ring.updEntry
  rw [hroster]

/-- What a Place for socket A and the Transfer Unit leave of the entry for the table of R146. -/
theorem placedA_agrees (o : PlaceOutcome) (he : s.entry? n = some e) : ∃ f, (s.ringPlace n .a o).chooseTile.entry? n = some f ∧
    f.partA.map (·.station) = e.partA.map (·.station) ∧ f.placement? .b = e.placement? .b ∧ f.shot = e.shot ∧ f.members = e.members := by
  obtain ⟨f, hf, hgf⟩ := (chooseTile_samePlacements _).entry n _ (ringPlace_entry? (k := .a) o he)
  have hge := Entry.placeAt_eq s.settings.storageMode .a o e
  refine ⟨f, hf, (hgf.station .a).trans ?_, ?_, by rw [hgf.shot, hge], by rw [hgf.members, hge]⟩
  · cases hp : e.part .a with
    | none =>
      have hupd : (e.updPart .a (Part.place o)).part .a = none := by rw [Entry.part_updPart, hp, Option.map_none]
      have hsame : e.placeAt s.settings.storageMode .a o = e := if_pos (by simp only [Entry.placement?, hupd, hp])
      rw [hsame]
      rfl
    | some p =>
      rw [Entry.placeAt_part hp, Option.map_some, Entry.place_eq]
      exact (congrArg (Option.map (·.station)) hp).symm
  · rw [hgf.placement? .b, Entry.placement?, Entry.placeAt_part_other (by decide), Entry.placement?]

/-- Socket B takes over what the card station of socket A refuses (R146). -/
theorem blocksPlace_takes {r : PlaceReason} (he : s.entry? n = some e) (h : s.overflowsTo source e) :
    s.blocksPlace source n .a (.refused r) = (s.ringPlace n .a (.refused r)).chooseTile.tryReserve e := by
  obtain ⟨f, hf, hstation, hb, hshot, hmembers⟩ := placedA_agrees (.refused r) he
  have hover := (overflowsTo_congr (t := (s.ringPlace n .a (.refused r)).chooseTile) (source := source) hstation hb
    (by simp [ringPlace]) (by simp [ringPlace])).mpr h
  exact (overflowDecide_takes hf ⟨rfl, hover⟩).trans (tryReserve_congr hshot hmembers _)

/-- Every other Place is settled by the Ring Manager and the Transfer Unit alone. -/
theorem blocksPlace_stays {o : PlaceOutcome} (h : ∀ e, s.entry? n = some e → ¬(k = .a ∧ (∃ r, o = .refused r) ∧ s.overflowsTo source e)) :
    s.blocksPlace source n k o = (s.ringPlace n k o).chooseTile := by
  unfold blocksPlace
  cases o with
  | reserved a b => rfl
  | refused r =>
    refine overflowDecide_stays fun f hf => ?_
    rintro ⟨rfl, hover⟩
    cases he : s.entry? n with
    | none =>
      have hnone : (s.ringPlace n .a (.refused r)).chooseTile.shots = s.shots := by
        rw [chooseTile_shots, ringPlace, updEntry_shots' _ _ _ (InStep.Entry.placeAt_same _ _ _)]
      have hmem := mem_rosterShots.mpr (by rw [hf]; exact Option.some_ne_none f)
      rw [hnone, mem_rosterShots] at hmem
      exact hmem he
    | some e =>
      obtain ⟨f', hf', hstation, hb, -, -⟩ := placedA_agrees (.refused r) he
      cases hf.symm.trans hf'
      exact h e he ⟨rfl, ⟨r, rfl⟩, (overflowsTo_congr hstation hb (by simp [ringPlace]) (by simp [ringPlace])).mp hover⟩

end State

/-- Settles O35: the part by `Part.place`, the flag by the table of R86, and the Transfer Unit's choice. -/
theorem placeUpdatesItsPart : Obligations.PlaceUpdatesItsPart := by
  refine ⟨fun source n k o e p s ht hcalm hok he hp => ?_, fun source n k o s ht hcalm hok hnone => ?_⟩
  · refine ⟨s.ringPlace n k o, (s.ringPlace n k o).chooseTile, e.placeAt s.settings.storageMode k o, p.place o,
      ⟨fun ⟨hk, ⟨r, hr⟩, hover⟩ => ?_, fun h => ?_⟩, State.chooseTile_chosen _ (State.ringPlace_nodup o hok), rfl,
      State.updEntry_sameOther n _ s fun e => (State.InStep.Entry.placeAt_same _ k o e).1, State.ringPlace_entry? o he,
      Entry.placeAt_part hp, Entry.place_eq o p, fun k' hk => Entry.placeAt_part_other hk e, Entry.placeAt_eq _ k o e, fun h => ?_,
      fun k' r hk hr hm hne => ?_⟩
    · subst hk hr
      rw [State.exec_placeTaken ht hcalm, State.blocksPlace_takes he hover]
    · rw [State.exec_placeTaken ht hcalm, State.blocksPlace_stays fun e' he' => ?_]
      cases he.symm.trans he'
      exact h
    · by_cases hne : (p.place o).placement = p.placement
      · rw [Entry.placeAt_stays hp hne]
      · rw [Entry.placeAt_settles hp hne, Entry.changed_unmirrored_stands (h.imp id fun h => h.resolve_left hne)]
    · rw [hm, Entry.placeAt_settles hp hne, Entry.changed_unmirrored_mirror hp hk hr]
      refine ⟨?_, ?_, ?_⟩
      · rintro (⟨hq, hr | hr⟩ | ⟨hq, hr | hr⟩) <;> simp [hq, hr, Placement.gone, Placement.made]
      · rintro ⟨hq, hr | hr⟩ <;> simp [hq, hr, Placement.gone, Placement.made]
      · rintro (⟨hq, hr | hr⟩ | hr) <;> simp [*, Placement.gone, Placement.made]
  · have hstay : s.ringPlace n k o = s := State.updEntry_id_of hok fun e he => by
      have hupd : (e.updPart k (Part.place o)).part k = none := by rw [Entry.part_updPart, hnone e he, Option.map_none]
      exact if_pos (by simp only [Entry.placement?, hupd, hnone e he])
    refine ⟨s.chooseTile, State.chooseTile_chosen s (State.rosterShots_nodup hok), ?_⟩
    rw [State.exec_placeTaken ht hcalm, State.blocksPlace_stays fun e he => ?_, hstay]
    rintro ⟨rfl, -, hover⟩
    have hpart := hnone e he
    obtain ⟨-, -, -, hstation, -, -⟩ := hover
    rw [show e.partA = none from hpart] at hstation
    cases hstation

end Sys2Proof.Machine
end

section
/-! PROOF. Commit and Unplace settle their part (O36). -/

namespace Sys2Proof.Machine

/-- The change of a roster entry that a Commit or an Unplace makes first: shot and slot stand. -/
structure Entry.KeepsPlace (f : Entry → Entry) : Prop where
  same : ∀ e, (f e).shot = e.shot ∧ (f e).slot = e.slot

namespace State

variable {s : State} {n : Shot} {k : Socket} {e : Entry} {p : Part} {x : Slot} {f : Entry → Entry}

namespace Concerns

theorem updEntry_ok (h : s.Concerns n k e p x) (hf : Entry.KeepsPlace f) : (s.updEntry n f).ringOk :=
  h.ok.congr (updEntry_shots' s n f hf.same)

theorem updEntry_entry (h : s.Concerns n k e p x) (hf : Entry.KeepsPlace f) : (s.updEntry n f).entry? n = some (f e) := by
  rw [updEntry_entry? n n f s fun e => (hf.same e).1, h.entry]
  simp

theorem wasTarget (h : s.Concerns n k e p x) : (s.entry? n).any (Entry.targetAt k) = p.target := by
  rw [h.entry, Option.any_some, Entry.targetAt, h.part, Option.any_some]

theorem changed (h : s.Concerns n k e p x) : ((s.entry? n).any fun e => e.placement? k == some .reserved) = (p.placement == .reserved) := by
  rw [h.entry, Option.any_some, Entry.placement?_of_part h.part]
  cases p.placement <;> rfl

/-- Where the settled part leaves the shot finished, its slot is freed, and the Transfer Unit has nothing to leave. -/
theorem frees (h : s.Concerns n k e p x) (hf : Entry.KeepsPlace f) (hfin : (f e).finished = true) (ht : x.tag.settled = true)
    (tr : Transfer) (b : Bool) : ∃ t : State, (((s.updEntry n f).completionTest n).leaveSocket n k tr b) = t ∧ s.freedAs n t ∧ t.entry? n = none := by
  have hentry := h.updEntry_entry hf
  have hfreed := (h.updEntry_ok hf).freeSlot hentry
  have has := hfreed.freedAs hentry
  refine ⟨(s.updEntry n f).freeSlot n, ?_, has, hfreed.entry?_gone⟩
  rw [completionTest_frees hentry h.slot hfin ht, leaveSocket_gone k tr b hfreed.entry?_gone hfreed.current]

/-- Where it does not, the socket is left. -/
theorem leaves (h : s.Concerns n k e p x) (hf : Entry.KeepsPlace f) {b : Bool} (hstay : b = false ∨ (f e).finished = false ∨ x.tag.settled = false)
    (tr : Transfer) :
    s.socketLeft n p ((f e).updPart k fun q => { q with transfer := tr, grants := 0 })
      (((s.updEntry n f).doIf b (completionTest n)).leaveSocket n k tr p.target) := by
  have hentry := h.updEntry_entry hf
  have hdone : (s.updEntry n f).doIf b (completionTest n) = s.updEntry n f := by
    cases b with
    | false => rfl
    | true =>
      exact completionTest_stays hentry h.slot (hstay.resolve_left fun hb => nomatch hb)
  rw [hdone]
  exact leaveSocket_left n k tr p (f e) _ (s.updEntry n f) s (rosterShots_nodup (h.updEntry_ok hf)) hentry rfl
    (updEntry_sameOther n f s fun e => (hf.same e).1) rfl

end Concerns

/-! ## Commit -/

theorem exec_commitTaken {source : Node} {a b : Word16} (ht : s.takesFrames) (hcalm : s.calm) :
    exec (.commitTaken source n k a b) s = .next (s.blocksCommit n k) :=
  (event_of_calm _ s hcalm).trans (congrArg _ (take_takesFrames _ ht (by decide)))

theorem commitAt_keepsPlace (k : Socket) : Entry.KeepsPlace (Entry.commitAt k) := ⟨InStep.Entry.commitAt_same k⟩

theorem Concerns.blocksCommit (h : s.Concerns n k e p x) : s.blocksCommit n k =
    (((s.updEntry n (Entry.commitAt k)).doIf (p.placement == .reserved) (completionTest n)).leaveSocket n k .closed p.target).sleepTest := by
  unfold State.blocksCommit
  dsimp only
  rw [h.wasTarget, h.changed]

/-! ## Unplace -/

theorem exec_unplaceTaken {source : Node} {r : UnplaceReason} (ht : s.takesFrames) (hcalm : s.calm) :
    exec (.unplaceTaken source n k r) s = .next (s.blocksUnplace source n k) :=
  (event_of_calm _ s hcalm).trans (congrArg _ (take_takesFrames _ ht (by decide)))

theorem unplaceAt_keepsPlace (mode : StorageMode) (k : Socket) : Entry.KeepsPlace (Entry.unplaceAt mode k) := ⟨InStep.Entry.unplaceAt_same mode k⟩

/-- The station once Ring Manager and Transfer Unit have taken an Unplace. -/
def unplaced (n : Shot) (k : Socket) (p : Part) (s : State) : State :=
  ((s.updEntry n (Entry.unplaceAt s.settings.storageMode k)).doIf (p.placement == .reserved) (completionTest n)).leaveSocket n k .idle p.target

theorem Concerns.blocksUnplace (h : s.Concerns n k e p x) (source : Node) :
    s.blocksUnplace source n k = ((s.unplaced n k p).overflowDecide source n k).sleepTest := by
  unfold State.blocksUnplace
  dsimp only
  rw [h.wasTarget, h.changed]
  rfl

theorem unplaceAt_rest (mode : StorageMode) (k : Socket) (e : Entry) :
    (e.unplaceAt mode k).shot = e.shot ∧ (e.unplaceAt mode k).members = e.members := by
  unfold Entry.unplaceAt
  split
  · rw [Entry.settleUnmirrored_eq, Entry.updPart_eq]
    exact ⟨rfl, rfl⟩
  · exact ⟨rfl, rfl⟩

/-- An Unplace that frees nothing: what it leaves for the table of R146. -/
theorem Concerns.unplacedA_agrees (h : s.Concerns n .a e p x)
    (hstay : (p.placement == .reserved) = false ∨ (e.unplaceAt s.settings.storageMode .a).finished = false ∨ x.tag.settled = false) :
    (s.unplaced n .a p).member = s.member ∧ (s.unplaced n .a p).card = s.card ∧ ∃ f, (s.unplaced n .a p).entry? n = some f ∧
      f.partA.map (·.station) = e.partA.map (·.station) ∧ f.placement? .b = e.placement? .b ∧ f.shot = e.shot ∧ f.members = e.members := by
  have hentry := h.updEntry_entry (unplaceAt_keepsPlace s.settings.storageMode .a)
  have hdone : (s.updEntry n (Entry.unplaceAt s.settings.storageMode .a)).doIf (p.placement == .reserved) (completionTest n) =
      s.updEntry n (Entry.unplaceAt s.settings.storageMode .a) := by
    cases hb : p.placement == .reserved with
    | false => rfl
    | true => exact completionTest_stays hentry h.slot (hstay.resolve_left fun hf => by simp [hb] at hf)
  obtain ⟨hshot, hmembers⟩ := unplaceAt_rest s.settings.storageMode .a e
  rw [unplaced, hdone]
  obtain ⟨g, hg, hfg⟩ := (leaveSocket_samePlacements n .a .idle p.target _).entry n _ hentry
  refine ⟨by simp, by simp, g, hg, (hfg.station .a).trans ?_, ?_, hfg.shot.trans hshot, hfg.members.trans hmembers⟩
  · rw [Entry.unplaceAt_part h.part]
    exact (congrArg (Option.map (·.station)) h.part).symm
  · rw [hfg.placement? .b, Entry.placement?, Entry.unplaceAt_part_other (by decide), Entry.placement?]

/-- Socket B takes over what the card station of socket A has unplaced (R146). -/
theorem Concerns.unplaced_takes {source : Node} (h : s.Concerns n .a e p x)
    (hstay : (p.placement == .reserved) = false ∨ (e.unplaceAt s.settings.storageMode .a).finished = false ∨ x.tag.settled = false)
    (hover : s.overflowsTo source e) : (s.unplaced n .a p).overflowDecide source n .a = (s.unplaced n .a p).tryReserve e := by
  obtain ⟨hm, hc, f, hf, hstation, hb, hshot, hmembers⟩ := h.unplacedA_agrees hstay
  exact (overflowDecide_takes hf ⟨rfl, (overflowsTo_congr hstation hb hm hc).mpr hover⟩).trans (tryReserve_congr hshot hmembers _)

theorem Concerns.unplaced_stays {source : Node} (h : s.Concerns n k e p x)
    (hstay : (p.placement == .reserved) = false ∨ (e.unplaceAt s.settings.storageMode k).finished = false ∨ x.tag.settled = false)
    (hover : k = .b ∨ ¬s.overflowsTo source e) : (s.unplaced n k p).overflowDecide source n k = s.unplaced n k p := by
  refine overflowDecide_stays fun f hf => ?_
  rintro ⟨rfl, hto⟩
  obtain ⟨hm, hc, f', hf', hstation, hb, -, -⟩ := h.unplacedA_agrees hstay
  cases hf.symm.trans hf'
  exact hover.elim (fun hk => nomatch hk) fun hnot => hnot ((overflowsTo_congr hstation hb hm hc).mp hto)

end State

/-! ## Whether the shot is finished -/

theorem Entry.commitAt_finished {k : Socket} {e : Entry} {p : Part} (hp : e.part k = some p) (hr : p.placement = .reserved) :
    (e.commitAt k).finished = true ↔ ∀ k' q, k' ≠ k → e.part k' = some q → q.placement ≠ .reserved := by
  rw [Entry.commitAt_eq hp, Entry.finished_iff (Entry.updPart_part_same hp)]
  have hother : ∀ k', k' ≠ k → (e.updPart k fun q => { q with placement := if q.placement = .reserved then .committed else q.placement }).part k' =
      e.part k' := fun k' hk => Entry.updPart_part_other _ e hk
  simp only [hr, if_true]
  constructor
  · rintro ⟨⟨-, h⟩, -⟩ k' q hk hq
    exact h k' q hk ((hother k' hk).trans hq)
  · intro h
    exact ⟨⟨by decide, fun k' q hk hq => h k' q hk ((hother k' hk).symm.trans hq)⟩, .inl trivial⟩

theorem Entry.unplaceAt_finished {mode : StorageMode} {k : Socket} {e : Entry} {p : Part} (hp : e.part k = some p) (hr : p.placement = .reserved) :
    (e.unplaceAt mode k).finished = true ↔ (∀ k' q, k' ≠ k → e.part k' = some q → q.placement ≠ .reserved) ∧
      ∃ k' q, k' ≠ k ∧ e.part k' = some q ∧ q.placement = .committed := by
  have hother : ∀ k', k' ≠ k → (e.unplaceAt mode k).part k' = e.part k' := fun k' hk => Entry.unplaceAt_part_other hk e
  rw [Entry.finished_iff (Entry.unplaceAt_part hp)]
  simp only [hr, if_true]
  constructor
  · rintro ⟨⟨-, h⟩, hc | ⟨k', q, hk, hq, hc⟩⟩
    · cases hc
    · exact ⟨fun k' q hk hq => h k' q hk ((hother k' hk).trans hq), k', q, hk, (hother k' hk).symm.trans hq, hc⟩
  · rintro ⟨h, k', q, hk, hq, hc⟩
    exact ⟨⟨by decide, fun k' q hk hq => h k' q hk ((hother k' hk).symm.trans hq)⟩, .inr ⟨k', q, hk, (hother k' hk).trans hq, hc⟩⟩

theorem Socket.ne_iff {k k' : Socket} : k' ≠ k ↔ k' = match k with | .a => .b | .b => .a := by cases k <;> cases k' <;> decide

theorem Socket.eq_of_ne {k k' k'' : Socket} (h : k' ≠ k) (h' : k'' ≠ k) : k' = k'' := (Socket.ne_iff.mp h).trans (Socket.ne_iff.mp h').symm

theorem Tag.unsettled {t : Tag} (h : t = .exposing ∨ t = .reading) : t.settled = false := by
  obtain rfl | rfl := h <;> rfl

/-- Settles O36: the entry by its part, the completion test, and the socket that is left. -/
theorem commitAndUnplaceSettleTheirPart : Obligations.CommitAndUnplaceSettleTheirPart := by
  refine ⟨fun source n k a b e p x s ht hcalm hok he hp hx => ⟨fun hr hothers htag => ?_, fun hstay => ?_⟩,
    fun source n k reason e p x s ht hcalm hok he hp hx => ⟨fun hr hcommitted htag => ?_, fun hstay hover => ?_⟩⟩
  · have h : s.Concerns n k e p x := ⟨hok, he, hp, hx⟩
    obtain ⟨t, htt, has, -⟩ := h.frees (State.commitAt_keepsPlace k) ((Entry.commitAt_finished hp hr).mpr hothers) (x.tag.settled_iff.mpr htag)
      .closed p.target
    refine ⟨t, ?_, has⟩
    rw [State.exec_commitTaken ht hcalm, h.blocksCommit, hr, ← htt]
    rfl
  · have h : s.Concerns n k e p x := ⟨hok, he, hp, hx⟩
    refine ⟨_, by rw [State.exec_commitTaken ht hcalm, h.blocksCommit], ?_⟩
    have hleft := h.leaves (State.commitAt_keepsPlace k) (b := p.placement == .reserved) ?_ .closed
    · rw [Entry.commitAt_eq hp, Entry.updPart_updPart] at hleft
      exact hleft
    · by_cases hr : p.placement = .reserved
      · obtain hr' | ⟨k', q, hk, hq, hqr⟩ | htag := hstay
        · exact absurd hr hr'
        · refine .inr (.inl ?_)
          rw [Bool.eq_false_iff, ne_eq, Entry.commitAt_finished hp hr]
          exact fun hall => hall k' q hk hq hqr
        · exact .inr (.inr (Tag.unsettled htag))
      · exact .inl (by simpa using hr)
  · have h : s.Concerns n k e p x := ⟨hok, he, hp, hx⟩
    have hfin : (e.unplaceAt s.settings.storageMode k).finished = true := by
      obtain ⟨k', q, hk, hq, hc⟩ := hcommitted
      refine (Entry.unplaceAt_finished hp hr).mpr ⟨fun k'' q' hk' hq' hr' => ?_, k', q, hk, hq, hc⟩
      cases Socket.eq_of_ne hk hk'
      cases hq.symm.trans hq'
      simp [hc] at hr'
    obtain ⟨t, htt, has, hgone⟩ := h.frees (State.unplaceAt_keepsPlace s.settings.storageMode k) hfin (x.tag.settled_iff.mpr htag) .idle p.target
    have hunplaced : s.unplaced n k p = t := by
      rw [State.unplaced, hr]
      exact htt
    refine ⟨t, ?_, has⟩
    rw [State.exec_unplaceTaken ht hcalm, h.blocksUnplace, hunplaced, State.overflowDecide_stays fun f hf => by simp [hgone] at hf]
  · have h : s.Concerns n k e p x := ⟨hok, he, hp, hx⟩
    have hsettled : (p.placement == .reserved) = false ∨ (e.unplaceAt s.settings.storageMode k).finished = false ∨ x.tag.settled = false := by
      by_cases hr : p.placement = .reserved
      · obtain hr' | hnot | htag := hstay
        · exact absurd hr hr'
        · refine .inr (.inl ?_)
          rw [Bool.eq_false_iff, ne_eq, Entry.unplaceAt_finished hp hr]
          rintro ⟨-, k', q, hk, hq, hc⟩
          exact hnot k' q hk hq hc
        · exact .inr (.inr (Tag.unsettled htag))
      · exact .inl (by simpa using hr)
    have hleft := h.leaves (State.unplaceAt_keepsPlace s.settings.storageMode k) hsettled .idle
    refine ⟨s.unplaced n k p, (e.unplaceAt s.settings.storageMode k).updPart k fun q => { q with transfer := .idle, grants := 0 }, ?_,
      ?_, fun hm => ?_, fun k' r hk hr hm hreserved => ?_, hleft⟩
    · rw [State.exec_unplaceTaken ht hcalm, h.blocksUnplace, h.unplaced_stays hsettled hover]
    · rw [Entry.updPart_unmirrored, Entry.unplaceAt_updPart hp]
    · rw [Entry.updPart_unmirrored]
      by_cases hr : p.placement = .reserved
      · rw [Entry.unplaceAt_reserved hp hr, Entry.changed_unmirrored_stands (hm.imp id fun hm => hm.resolve_left fun hne => hne hr)]
      · rw [Entry.unplaceAt_stays hp hr]
    · rw [Entry.updPart_unmirrored, Entry.unplaceAt_reserved hp hreserved, hm, Entry.changed_unmirrored_mirror hp hk hr]
      refine ⟨?_, ?_⟩
      · rintro (hr | hr) <;> simp [hr, Placement.gone, Placement.made]
      · rintro (hr | hr | hr) <;> simp [hr, Placement.gone, Placement.made]

end Sys2Proof.Machine
end

section
/-! PROOF. Requests of the ring and the Defect Table (R89-R91, R109), and what a Request in force is answered. -/

namespace Sys2Proof.Machine

namespace State

variable {s u : State} {h : ReqHeader} {code : Byte} {act : Action} {r : Reply}

/-- A Request that R173 leaves to its own block, in force, and that no sleep test follows. -/
theorem event_answers (ha : act s = (u, r)) (hforce : s.inForce) (hcalm : s.calm) (hown : settleRequest s.member.state code true = none)
    (htest : s.testsSleep code r = false) : s.event (State.request h code act) = .next { u with link := u.linkAnswering h code r } := by
  rw [State.event_request_of_inForce h code act s hforce hcalm hown (by rwa [ha]), ha]
  rfl

/-- The codes that the rows of R173 leave to their blocks in Configuring and Ready, and whose answers no sleep test follows. -/
def plainCode (code : Byte) : Prop :=
  captureCodes.contains code = false ∧ code ≠ 0x01#8 ∧ code ≠ 0x02#8 ∧ code ≠ 0x21#8 ∧ code ≠ 0x32#8

theorem event_plain (ha : act s = (u, r)) (hcode : plainCode code) (hforce : s.inForce) (hcalm : s.calm) :
    s.event (State.request h code act) = .next { u with link := u.linkAnswering h code r } := by
  obtain ⟨hcap, hset, hbegin, hdiscard, hsleep⟩ := hcode
  exact event_answers ha hforce hcalm (settleRequest_of_running hforce.2 hcap hset hbegin) (State.testsSleep_false _ _ s hdiscard hsleep)

variable {n : Shot} {x : Slot}

theorem actKeep_notFound (he : s.entry? n = none) : actKeep n s = (s, .refused .notFound) := by
  simp [actKeep, he]

theorem actDiscard_notFound (he : s.entry? n = none) : actDiscard true n s = (s, .refused .notFound) := by
  simp [actDiscard, he]

theorem ringOk.entry_of_slot (h : s.ringOk) (hx : s.slot? n = some x) : ∃ e, s.entry? n = some e := by
  have hsome := h.slot?_isSome n
  rw [hx] at hsome
  exact Option.isSome_iff_exists.mp hsome.symm

theorem ringOk.actKeep_eq (h : s.ringOk) (hx : s.slot? n = some x) :
    actKeep n s = if x.tag = .held then ((s.updSlot n fun y => { y with tag := .developed }).chooseTile, .done) else (s, .refused .badState) := by
  obtain ⟨e, he⟩ := h.entry_of_slot hx
  simp [actKeep, he, hx]

theorem ringOk.actDiscard_eq (h : s.ringOk) (hx : s.slot? n = some x) :
    actDiscard true n s = if x.tag.settled then (s.freeSlot n, .done) else (s, .refused .busy) := by
  obtain ⟨e, he⟩ := h.entry_of_slot hx
  simp [actDiscard, he, hx]

/-- A Discard that frees a slot is answered, and the sleep test follows. -/
theorem event_discarded (ha : act s = (u, .done)) (hforce : s.inForce) (hcalm : s.calm) :
    s.event (State.request h 0x21#8 act) = .next (sleepTest { u with link := u.linkAnswering h 0x21#8 .done }) := by
  rw [State.event_of_calm _ s hcalm, State.request_running h _ act s hforce.1 hforce.2,
    State.settle_none h _ true act s (settleRequest_of_running hforce.2 (by decide) (by decide) (by decide)), ha]
  rfl

theorem any_developing : (s.ring.slots.any fun o => o.any (·.tag == .developing)) = true ↔
    ∃ x, some x ∈ s.ring.slots ∧ x.tag = .developing := by
  rw [List.any_eq_true]
  constructor
  · rintro ⟨o, ho, hany⟩
    obtain ⟨x, rfl, hx⟩ := (Option.any_eq_true _ _).mp hany
    exact ⟨x, ho, eq_of_beq hx⟩
  · rintro ⟨x, hx, htag⟩
    exact ⟨some x, hx, by simp [htag]⟩

theorem ringOk.developing_iff (h : s.ringOk) :
    (∃ x, some x ∈ s.ring.slots ∧ x.tag = .developing) ↔ ∃ m x, s.slot? m = some x ∧ x.tag = .developing :=
  ⟨fun ⟨x, hx, htag⟩ => ⟨x.shot, x, h.slot? hx, htag⟩, fun ⟨_, x, hx, htag⟩ => ⟨x, slot?_mem hx, htag⟩⟩

end State

/-- Settles O52: Discard by the parts of the freeing of a slot (`State.Freed`), ForgetHot by its one condition. -/
theorem keepDiscardAndForgetHot : Obligations.KeepDiscardAndForgetHot := by
  intro h n s hforce hcalm hok
  have keepCode : State.plainCode 0x20#8 := by unfold State.plainCode; decide
  have forgetHotCode : State.plainCode 0x22#8 := by unfold State.plainCode; decide
  refine ⟨fun he => ?_, fun x hx => ⟨fun htag => ?_, fun htag => ?_⟩, fun htoAll => ?_, fun htoAll => ⟨fun he => ?_, fun x hx => ⟨fun htag => ?_,
    fun htag => ?_⟩⟩, fun hbusy => ?_, fun hslots hdark => ?_⟩
  · exact State.event_plain (State.actKeep_notFound he) keepCode hforce hcalm
  · exact State.event_plain (by rw [hok.actKeep_eq hx, if_neg htag]) keepCode hforce hcalm
  · have ha : actKeep n s = ((s.updSlot n fun y => { y with tag := .developed }).chooseTile, .done) := by rw [hok.actKeep_eq hx, if_pos htag]
    have hnodup := State.rosterShots_nodup hok
    refine ⟨s.updSlot n fun y => { y with tag := .developed }, _, State.event_plain ha keepCode hforce hcalm, rfl, ?_, fun m hm => ?_, ?_⟩
    · rw [State.updSlot_slot? n n _ s fun _ => by rfl, hx]
      simp
    · rw [State.updSlot_slot? n m _ s fun _ => by rfl]
      simp [hm]
    · exact State.chooseTile_chosen _ hnodup
  · exact State.event_answers (by simp [actDiscard, htoAll]) hforce hcalm
      (settleRequest_of_running hforce.2 (by decide) (by decide) (by decide)) (State.testsSleep_refused _ _ s)
  · rw [← State.event_answers (h := h) (code := 0x21#8) (State.actDiscard_notFound he) hforce hcalm
      (settleRequest_of_running hforce.2 (by decide) (by decide) (by decide)) (State.testsSleep_refused _ _ s), ← htoAll]
    rfl
  · have ha : actDiscard true n s = (s, .refused .busy) := by
      rw [hok.actDiscard_eq hx]
      obtain htag | htag := htag <;> rw [htag] <;> rfl
    rw [← State.event_answers (h := h) (code := 0x21#8) ha hforce hcalm
      (settleRequest_of_running hforce.2 (by decide) (by decide) (by decide)) (State.testsSleep_refused _ _ s), ← htoAll]
    rfl
  · obtain ⟨e, he⟩ := hok.entry_of_slot hx
    have hf := hok.freeSlot he
    have ha : actDiscard true n s = (s.freeSlot n, .done) := by rw [hok.actDiscard_eq hx, if_pos (x.tag.settled_iff.mpr htag)]
    obtain ⟨-, -, htop, hnext, hplaced, -, -, hmember, hcapture, hdark, hsync, hpower⟩ := hf.freedAs he
    refine ⟨{ s.freeSlot n with link := (s.freeSlot n).linkAnswering h 0x21#8 .done }, _, _, _, ?_, hf.gone, hf.stays, hf.leaves, hf.unplaced,
      fun p e' hp he' => ?_, ?_, hf.entry?_gone, hf.slot?_gone, htop, hnext, hplaced, hcapture, hmember, hsync, hpower, hdark,
      fun m hm => ⟨hf.entry?_left m, ?_⟩, fun m y hm hy => ?_⟩
    · rw [← State.event_discarded (h := h) ha hforce hcalm, ← htoAll]
      rfl
    · cases Option.some.inj (he.symm.trans he')
      exact hf.voided p hp
    · rw [hf.freed, State.tryStartJob_eq]
      rfl
    · exact (congrArg Option.isSome (hf.entry?_left m)).trans (hf.entry?_other hm)
    · obtain ⟨z, hz, hsame, hnot, hraw⟩ := hf.slot?_other hok hm hy
      refine ⟨fun htag => ?_, fun htag => ?_⟩
      · rw [hnot htag] at hsame
        exact hz.trans (congrArg some hsame)
      · obtain ht | ht := hraw htag
        · rw [ht, ← htag] at hsame
          exact .inl (hz.trans (congrArg some hsame))
        · rw [ht] at hsame
          exact .inr (hz.trans (congrArg some hsame))
  · refine State.event_plain (u := s) (r := .refused .busy) ?_ forgetHotCode hforce hcalm
    rw [actForgetHot, if_pos]
    rw [Bool.or_eq_true, State.any_developing, hok.developing_iff]
    refine hbusy.imp id ?_
    rintro ⟨k, hk, hphase⟩
    simp [hk, hphase]
  · refine State.event_plain (r := .done) (u := s.onDark fun d => { d with defects := d.defects.filter (·.origin != .hot), overflow := 0 }) ?_
      forgetHotCode hforce hcalm
    rw [actForgetHot, if_neg]
    rw [Bool.or_eq_true, State.any_developing, hok.developing_iff]
    rintro (⟨m, x, hx, htag⟩ | hscan)
    · exact hslots m x hx htag
    · obtain ⟨k, hk, hphase⟩ := (Option.any_eq_true _ _).mp hscan
      exact hdark k hk (eq_of_beq hphase)

end Sys2Proof.Machine
end

section
/-! PROOF. The capture requests in Ready (R54, R55, R71, R106). -/

namespace Sys2Proof.Machine

theorem findSome?_mapAll_shot (m : Shot) (f : Slot → Slot) (hf : ∀ x, (f x).shot = x.shot) (l : List (Option Slot)) :
    (l.map fun o => o.map f).findSome? (fun o => o.filter (·.shot == m)) = (l.findSome? fun o => o.filter (·.shot == m)).map f := by
  induction l with
  | nil => rfl
  | cons o os ih =>
    rw [List.map_cons, List.findSome?_cons, List.findSome?_cons, ih]
    cases o with
    | none => rfl
    | some x => by_cases hm : x.shot = m <;> simp [Option.filter, hf, hm]

namespace State

variable {s : State} {h : ReqHeader}

/-- The slot records once the dark slot has become invalid. -/
theorem invalidateDark_slot? (n : Shot) (s : State) :
    s.invalidateDark.slot? n = (s.slot? n).map (Slot.loseDark (s.develop.job.any (·.phase == .base))) :=
  findSome?_mapAll_shot n _ (fun x => Slot.loseDark_shot _ x) s.ring.slots

theorem startDark_slot? (m n : Shot) (d : Nat) (s : State) : (s.startDark n d).slot? m = s.invalidateDark.slot? m :=
  slot?_congr rfl m

/-- In Ready the rows of R173 turn away none but Set and Begin. -/
theorem settleRequest_ready {code : Byte} (hset : code ≠ 0x01#8) (hbegin : code ≠ 0x02#8) : settleRequest .ready code true = none := by
  simp [settleRequest, hset, hbegin]

/-- A capture request in Ready, and what its action gives. -/
theorem event_ready {code : Byte} {act : Action} {u : State} {r : Reply} (ha : act s = (u, r))
    (hcode : code ≠ 0x01#8 ∧ code ≠ 0x02#8 ∧ code ≠ 0x21#8 ∧ code ≠ 0x32#8) (hcalm : s.calm) (hawake : s.power.state ≠ .sleep)
    (hready : s.member.state = .ready) : s.event (State.request h code act) = .next { u with link := u.linkAnswering h code r } := by
  obtain ⟨hset, hbegin, hdiscard, hsleep⟩ := hcode
  exact event_answers ha ⟨hawake, .inr hready⟩ hcalm (by rw [hready]; exact settleRequest_ready hset hbegin)
    (testsSleep_false _ _ s hdiscard hsleep)

theorem leaveDoze_eq (s : State) : s.leaveDoze = { s with power := s.powerAtArm } := by
  unfold leaveDoze powerAtArm
  by_cases hd : s.power.state = .doze
  · simp [hd, onPower]
  · simp [hd, doIf]

theorem actArm_refused (hh : s.capture.state = .halted ∨ s.capture.haltPending = true) : actArm s = (s, .refused .badState) := by
  rw [actArm, if_pos (by simpa [Capture.haltedOrPending] using hh)]

theorem haltedOrPending_eq_false (hh : s.capture.haltPending = false) (hs : s.capture.state ≠ .halted) : s.capture.haltedOrPending = false := by
  simp [Capture.haltedOrPending, hh, hs]

theorem actArm_disarmed (hh : s.capture.haltPending = false) (hs : s.capture.state = .disarmed) : actArm s = (s.leaveDoze.becomeArmed, .done) := by
  unfold actArm
  rw [haltedOrPending_eq_false hh (by simp [hs]), hs]
  rfl

theorem actArm_armed (hh : s.capture.haltPending = false) (hs : s.capture.state = .armed) : actArm s = (s.leaveDoze, .done) := by
  unfold actArm
  rw [haltedOrPending_eq_false hh (by simp [hs]), hs]
  rfl

theorem actArm_working (hh : s.capture.haltPending = false) (hw : s.capture.state.working = true) :
    actArm s = (s.leaveDoze.onCapture fun c => { c with disarmPending := false }, .done) := by
  have hs : s.capture.state ≠ .halted := fun hs => by simp [hs, CaptureState.working] at hw
  unfold actArm
  rw [haltedOrPending_eq_false hh hs]
  cases hc : s.capture.state with
  | disarmed | armed => simp [hc, CaptureState.working] at hw
  | exposing | reading | darkExposing | darkReading | halted => rfl

/-- A TakeDark that is taken: the dark slot becomes invalid, and the capture begins (R99, R106). -/
theorem startDark_eq (n : Shot) (d : Nat) (hd : 1 ≤ d) (s : State) : s.startDark n d = { s with
    capture := { s.capture with state := .darkExposing }
    dark := { s.dark with
      valid := false
      capture := some { phase := .exposing, shot := n, duration := d, captureEnd := none, scanned := 0 } }
    clock := { s.clock with timers := { s.clock.timers with
      dark := { s.clock.timers.dark with request := .load ((d + 9) / 10) } } }
    ring := { s.ring with slots := (s.startDark n d).ring.slots }
    develop := { s.develop with job := (s.startDark n d).develop.job } } := by
  have hne : (d + 9) / 10 ≠ 0 := by omega
  simp [startDark, loadTimer, onTimer, Timers.upd, Timer.load, hne, invalidateDark, updJob, onCapture, onDark, onRing, onDevelop, onClock]

theorem loseDark_dark (b : Bool) (x : Slot) : Slot.loseDark b x = { x with dark := (Slot.loseDark b x).dark } ∧
    (x.dark = some .used → x.tag = .raw → (Slot.loseDark b x).dark = some .none) ∧
    (x.dark ≠ some .used → (Slot.loseDark b x).dark = x.dark) := by
  unfold Slot.loseDark
  refine ⟨?_, fun hd ht => ?_, fun hd => ?_⟩
  · split <;> rfl
  · simp [hd, ht]
  · simp [hd]

end State

/-- Settles O51, request by request. -/
theorem captureRequestsFollowTheirTables : Obligations.CaptureRequestsFollowTheirTables := by
  refine ⟨fun h s hcalm hawake hready => ?_, fun h T v s hcalm hawake hready => ?_⟩
  · refine ⟨fun hh => ?_, fun hh => ⟨fun hs => ?_, fun hs => ?_, fun hw => ?_⟩, fun hw => ?_, fun hw => ?_, fun hs => ?_, fun hs hh => ?_,
      fun hs hh => ?_⟩
    · exact State.event_ready (State.actArm_refused hh) (by decide) hcalm hawake hready
    · have ha := State.actArm_disarmed hh hs
      rw [State.leaveDoze_eq] at ha
      exact State.event_ready ha (by decide) hcalm hawake hready
    · have ha := State.actArm_armed hh hs
      rw [State.leaveDoze_eq] at ha
      exact State.event_ready ha (by decide) hcalm hawake hready
    · have ha := State.actArm_working hh hw
      rw [State.leaveDoze_eq] at ha
      exact State.event_ready ha (by decide) hcalm hawake hready
    · refine (State.event_ready (code := 0x11#8) (act := actDisarm) rfl (by decide) hcalm hawake hready).trans ?_
      simp [State.cancelRelease, State.onCapture, State.onClock, hw]
      rfl
    · refine (State.event_ready (code := 0x11#8) (act := actDisarm) rfl (by decide) hcalm hawake hready).trans ?_
      simp [State.cancelRelease, State.onCapture, State.onClock, hw]
      rfl
    · exact State.event_ready (code := 0x12#8) (act := actResume) (by rw [actResume, if_pos hs]) (by decide) hcalm hawake hready
    · exact State.event_ready (code := 0x12#8) (act := actResume) (by rw [actResume, if_neg hs, if_pos hh]) (by decide) hcalm hawake hready
    · exact State.event_ready (code := 0x12#8) (act := actResume) (by rw [actResume, if_neg hs, if_neg (by simp [hh])]) (by decide) hcalm hawake hready
  · refine ⟨fun hr => ?_, fun hr => ⟨fun hs => ?_, fun hs => ⟨fun hlate => ?_, fun hpast => ?_, fun hahead hnear => ?_⟩⟩, fun hlow hhigh => ?_,
      fun hout => ?_, fun hs => ?_, fun hs => ⟨fun hout => ?_, fun hlow hhigh => ?_⟩⟩
    · exact State.event_ready (act := actRelease T) (by simp [actRelease, hr]) (by decide) hcalm hawake hready
    · exact State.event_ready (act := actRelease T) (by simp [actRelease, hr, hs]) (by decide) hcalm hawake hready
    · exact State.event_ready (act := actRelease T) (by simp [actRelease, hr, hs, Config.releaseAhead, hlate]) (by decide) hcalm hawake hready
    · have hnot : ¬s.clock.linkTime.toNat + 60000000 < T.toNat := by
        have := BitVec.le_def.mp hpast
        omega
      have ha : actRelease T s = (s.armRelease T, .doneWith [1#8]) := by
        simp [actRelease, hr, hs, Config.releaseAhead, hnot, hpast, flagByte]
      refine (State.event_ready (code := 0x13#8) ha (by decide) hcalm hawake hready).trans ?_
      simp [State.armRelease, State.testAlarm, Clock.alarmDue, State.onCapture, State.onClock, hpast, State.fireAlarm]
      rfl
    · have hnot : ¬T ≤ s.clock.linkTime := by
        have := BitVec.lt_def.mp hahead
        rw [BitVec.le_def]
        omega
      have ha : actRelease T s = (s.armRelease T, .doneWith [0#8]) := by
        simp [actRelease, hr, hs, Config.releaseAhead, Nat.not_lt.mpr hnear, hnot, flagByte]
      refine (State.event_ready (code := 0x13#8) ha (by decide) hcalm hawake hready).trans ?_
      simp [State.armRelease, State.testAlarm, Clock.alarmDue, State.onCapture, State.onClock, hnot, State.doIf]
      rfl
    · exact State.event_ready (code := 0x14#8) (act := actExposure v) (by rw [actExposure, if_pos ⟨hlow, hhigh⟩]) (by decide) hcalm hawake hready
    · exact State.event_ready (code := 0x14#8) (act := actExposure v) (by rw [actExposure, if_neg (by omega)]) (by decide) hcalm hawake hready
    · exact State.event_ready (act := actTakeDark v) (by simp [actTakeDark, hs]) (by decide) hcalm hawake hready
    · have hrange : v.toNat < 1 ∨ 3600000 < v.toNat := by
        obtain rfl | hv := hout
        · exact .inl (by decide)
        · exact .inr hv
      exact State.event_ready (act := actTakeDark v) (by rw [actTakeDark, if_neg (by simp [hs]), if_pos hrange]) (by decide) hcalm hawake hready
    · have hrange : ¬(v.toNat < 1 ∨ 3600000 < v.toNat) := by omega
      have ha : actTakeDark v s = (s.startDark 0#32 (v.toNat * 1000), .done) := by
        rw [actTakeDark, if_neg (by simp [hs]), if_neg hrange]
      have hticks : (v.toNat * 1000 + 9) / 10 = v.toNat * 100 := by omega
      have heq := State.startDark_eq 0#32 (v.toNat * 1000) (by omega) s
      refine ⟨_, State.event_ready ha (by decide) hcalm hawake hready, ?_, fun n x hx => ?_⟩
      · rw [hticks] at heq
        rw [heq]
        rfl
      · have hslot := State.startDark_slot? n 0#32 (v.toNat * 1000) s
        rw [State.invalidateDark_slot?, hx] at hslot
        obtain ⟨hsame, hused, hother⟩ := State.loseDark_dark (s.develop.job.any (·.phase == .base)) x
        exact ⟨_, hslot, hsame, hused, hother⟩

end Sys2Proof.Machine
end

section
/-! PROOF. A Request by the station state (R26, R172, R173). -/

namespace Sys2Proof.Machine

/-- A clock after work that does no more to it than stop the seam timer. -/
inductive Clock.SeamStopped (c : Clock) : Clock → Prop
  | same : Clock.SeamStopped c c
  | stopped : Clock.SeamStopped c { c with timers := { c.timers with seam := c.timers.seam.halt } }

namespace Clock.SeamStopped

variable {c d e : Clock}

theorem trans (h : c.SeamStopped d) (h' : d.SeamStopped e) : c.SeamStopped e := by
  cases h with
  | same => exact h'
  | stopped =>
    cases h' with
    | same => exact .stopped
    | stopped => exact .stopped

/-- No expiry comes or goes. -/
theorem due (h : c.SeamStopped d) (id : TimerId) : (d.timers.get id).due = (c.timers.get id).due := by
  cases h with
  | same => rfl
  | stopped => cases id <;> rfl

end Clock.SeamStopped

namespace State

variable {s t : State}

theorem freeSlot_clock (n : Shot) (s : State) : s.clock.SeamStopped (s.freeSlot n).clock := by
  have hout : s.clock.SeamStopped (s.shotOut n).clock := by
    have heq : (s.shotOut n).clock =
        (doIf (s.develop.job.any fun j => j.shot == n && j.waiting) (stopTimer .seam) (s.onRing (Ring.remove n))).clock := by
      rw [shotOut, developFreed_eq]
      simp [cancelBulk, onRing]
    rw [heq]
    cases s.develop.job.any fun j => j.shot == n && j.waiting with
    | false => exact .same
    | true => exact .stopped
  unfold freeSlot
  split
  · exact .same
  next e _ =>
    have heq : (((s.shotOut n).leaveTile n).voidPlacement e).tryStartJob.clock = (s.shotOut n).clock := by simp
    exact heq ▸ hout

theorem emptyRing_clock (s : State) : s.clock.SeamStopped s.emptyRing.clock := by
  unfold emptyRing
  generalize s.risingShots = ns
  induction ns generalizing s with
  | nil => exact .same
  | cons n ns ih => exact (freeSlot_clock n s).trans (ih _)

theorem endRollCall_clock (s : State) : s.clock.SeamStopped s.endRollCall.clock := by
  unfold endRollCall
  dsimp only
  split
  · simpa using .same
  · split
    · simpa using .same
    · split
      · have h := emptyRing_clock ((s.onRing fun r => { r with next := s.member.highest }).onMember fun m => { m with retainedValid := false })
        simpa using h
      · simpa using .same

/-! ## What comes before a Request -/

/-- Where an operation brings no expiry and takes none, and power stays, nothing new comes before an event. -/
theorem calm_of_due (h : s.calm) (hd : ∀ id, (t.timer id).due = (s.timer id).due) (hp : t.power = s.power) : t.calm :=
  h.imp (fun h => by rw [hp]; exact h) fun h id hid => by rw [hd]; exact h id hid

theorem endRollCall_calm (h : s.calm) : s.endRollCall.calm := calm_of_due h s.endRollCall_clock.due (by simp)

theorem exclude_eq (s : State) : s.exclude = s.excludedByFrame := rfl

theorem excludedByFrame_calm (h : s.calm) : s.excludedByFrame.calm := by
  refine calm_of_due h (fun id => ?_) rfl
  cases id <;> rfl

/-- A roll timer's expiry in a roll call is over once it has been delivered. -/
theorem expire_roll_due (h : s.member.state = .rolling) (hd : (s.timer .roll).due = true) : ((s.expire .roll).timer .roll).due = false := by
  rw [expire_due _ s hd]
  have hm : (s.onTimer .roll Timer.delivered).member = s.member := by simp
  have hdone : ((s.onTimer .roll Timer.delivered).timer .roll).due = false := rfl
  change ((State.rollExpiry (s.onTimer .roll Timer.delivered)).timer .roll).due = false
  unfold rollExpiry
  rw [hm, h]
  cases s.member.ownRollOut with
  | false => exact (congrArg (fun c : Clock => (c.timers.get .roll).due) (sendRoll_frame _).2.1).trans hdone
  | true => exact ((endRollCall_clock _).due .roll).trans hdone

theorem exec_rollRow (h : s.member.state = .rolling) : exec s.rollRow s = .next (s.expire .roll) := by
  unfold rollRow
  cases ho : s.member.ownRollOut with
  | false => exact congrArg Host.Outcome.next (by simp [rollingWith, h, ho])
  | true => exact congrArg Host.Outcome.next (by simp [rollingWith, h, ho])

theorem expire_power (id : TimerId) (s : State) : (s.expire id).power = s.power := by simp

/-- The expiries that an event finds begin with the roll timer's. -/
theorem expiriesFirst_roll (hp : s.power.state ≠ .sleep) (h : s.member.state = .rolling) (hd : (s.timer .roll).due = true) :
    s.expiriesFirst = (s.expire .roll).expiriesFirst := by
  have hagain : (s.expire .roll).expire .roll = s.expire .roll := expire_not_due _ _ (expire_roll_due h hd)
  have hp' : (s.expire .roll).power.state ≠ .sleep := by rwa [expire_power]
  rw [expiriesFirst, if_neg hp, expiriesFirst, if_neg hp']
  conv_rhs => rw [TimerId.all, List.foldl_cons, hagain]
  rfl

end State

/-! ## The commands of Requests -/

/-- A Request whose code is listed, with arguments of its length. -/
def Req.readable : Req → Bool
  | .unreadable => false
  | _ => true

theorem Req.readable_iff (r : Req) : r.readable = true ↔ r ≠ .unreadable := by cases r <;> simp [Req.readable]

/-- The code of a Request that can be read. -/
def Req.code : Req → Option Byte
  | .setItem .. => some 0x01#8
  | .beginConf => some 0x02#8
  | .arm => some 0x10#8
  | .disarm => some 0x11#8
  | .resume => some 0x12#8
  | .release .. => some 0x13#8
  | .exposure .. => some 0x14#8
  | .takeDark .. => some 0x15#8
  | .keep .. => some 0x20#8
  | .discard .. => some 0x21#8
  | .forgetHot => some 0x22#8
  | .histogram .. => some 0x23#8
  | .format .. => some 0x24#8
  | .eject .. => some 0x25#8
  | .status => some 0x30#8
  | .dumpWake => some 0x31#8
  | .sleep => some 0x32#8
  | .unreadable => none

theorem Req.code_ite (p : Prop) [Decidable p] (a b : Req) (c : Option Byte) (ha : p → a.code = none ∨ a.code = c) (hb : ¬p → b.code = none ∨ b.code = c) :
    (if p then a else b).code = none ∨ (if p then a else b).code = c := by
  split
  next h => exact ha h
  next h => exact hb h

theorem Req.read_code (code : Byte) (args : List Byte) : (Req.read code args).code = none ∨ (Req.read code args).code = some code := by
  unfold Req.read
  dsimp only
  repeat' (intros; apply Req.code_ite)
  all_goals
    intros
    simp [Req.code, *]

/-- The command of a Request with its code is its row of R173, then its block's action. -/
theorem exec_command (h : ReqHeader) (code : Byte) (args : List Byte) (s : State) :
    exec ((Req.read code args).command h code) s = s.event fun t => t.take .request
      (State.settle h code (Req.read code args).readable (Req.action h.toAll (Req.read code args))) := by
  have hcode := Req.read_code code args
  cases hr : Req.read code args with
  | unreadable => rfl
  | setItem | beginConf | arm | disarm | resume | release | exposure | takeDark | keep | discard | forgetHot | histogram | format | eject
      | status | dumpWake | sleep =>
    rw [hr] at hcode
    obtain hnone | hsome := hcode
    · cases hnone
    · cases Option.some.inj hsome
      rfl

/-- The rows of R173, as a station that takes the Request meets them. -/
theorem State.exec_settled {h : ReqHeader} {code : Byte} {args : List Byte} {s : State} {r : Reason} (hcalm : s.calm)
    (htake : ∀ handle, s.take .request handle = handle s)
    (hrow : settleRequest s.member.state code (Req.read code args).readable = some r) :
    exec ((Req.read code args).command h code) s = .next { s with link := s.linkAnswering h code (.refused r) } := by
  rw [exec_command, State.event_of_calm _ s hcalm, htake, State.settle_some _ _ _ _ _ _ hrow]
  rfl

/-- Settles O49: the exclusion and the roll call's end by what `take` makes of a Request, the rest by the rows of `settleRequest`. -/
theorem requestsAreSettledByTheStationState : Obligations.RequestsAreSettledByTheStationState := by
  rintro h code args c s rfl hawake
  refine ⟨fun hroll hrejoin => ⟨fun hdue u hu => ?_, fun hcalm hout => ?_, fun hcalm hown hothers => ?_⟩, fun hcalm hst => ?_,
    fun hcalm hst hcode => ?_, fun hcalm hst hread => ?_, fun hcalm hroll hrejoin hread hcode => ?_, fun hcalm hst hread hcode => ?_,
    fun hcalm hst hread hcode => ?_⟩
  · rw [State.exec_rollRow hroll] at hu
    cases hu
    rw [exec_command, exec_command, State.event, State.event, State.expiriesFirst_roll hawake hroll hdue]
  · rw [exec_command, exec_command, State.event_of_calm _ s hcalm, State.event_of_calm _ _ (State.excludedByFrame_calm hcalm),
      State.take_excludes _ _ s hawake hroll hrejoin (hout.imp id fun hself => ?_), State.take_excluded _ _ s.excludedByFrame hawake rfl]
    · rfl
    · simpa [State.hearsOthers] using hself
  · have hhears : s.hearsOthers = true := by simpa [State.hearsOthers] using hothers
    rw [exec_command, exec_command, State.event_of_calm _ s hcalm, State.event_of_calm _ _ (State.endRollCall_calm hcalm),
      State.take_ends _ _ s hawake hroll hrejoin hown hhears]
  · exact State.exec_settled hcalm (fun handle => by rw [State.take_excluded _ _ s hawake hst, if_pos (.inr rfl)])
      (by simp [settleRequest, hst])
  · exact State.exec_settled hcalm (fun handle => by rw [State.take_duplicate _ _ s hawake hst, if_pos (.inr rfl)])
      (by simp [settleRequest, hst, statusCode, hcode])
  · have hno : (Req.read code args).readable = false := by rw [hread]; rfl
    refine State.exec_settled hcalm (fun handle => ?_) ?_
    · obtain ⟨hm, hr⟩ | hm | hm | ⟨hm, -⟩ := hst
      · rw [State.take_rejoining _ _ s hawake hm hr, if_neg (by decide)]
      · exact State.take_configuring _ _ s hawake hm
      · exact State.take_ready _ _ s hawake hm
      · rw [State.take_duplicate _ _ s hawake hm, if_pos (.inr rfl)]
    · obtain ⟨hm, -⟩ | hm | hm | ⟨hm, hc⟩ := hst
      · simp [settleRequest, hm, hno]
      · simp [settleRequest, hm, hno]
      · simp [settleRequest, hm, hno]
      · rw [settleRequest, hm, hno]
        simp [statusCode, hc]
  · have hyes := (Req.readable_iff _).mpr hread
    exact State.exec_settled hcalm (fun handle => by rw [State.take_rejoining _ _ s hawake hroll hrejoin, if_neg (by decide)])
      (by simp [settleRequest, hroll, hyes, statusCode, hcode])
  · have hyes := (Req.readable_iff _).mpr hread
    have hcapture : captureCodes.contains code = true := List.contains_iff_mem.mpr hcode
    exact State.exec_settled hcalm (fun handle => State.take_configuring _ _ s hawake hst)
      (by rw [settleRequest, hst, hyes, hcapture]; simp)
  · have hyes := (Req.readable_iff _).mpr hread
    have hconf : code = 0x01#8 ∨ code = 0x02#8 := by simpa using hcode
    exact State.exec_settled hcalm (fun handle => State.take_ready _ _ s hawake hst) (by rw [settleRequest, hst, hyes]; simp [hconf])

end Sys2Proof.Machine
end

section
/-! PROOF. The items of R33: the values that each takes, and the setting that it sets. -/

namespace Sys2Proof.Machine

theorem guardValue_inRange (low high stride v : Nat) (st : Settings) :
    guardValue (inRange low high stride v) st = if low ≤ v ∧ v ≤ high ∧ v % stride = 0 then some st else none := by
  simp [guardValue, inRange, and_assoc]

theorem put_gridShape (st : Settings) (v : Nat) : st.put 0x01#8 v = if 1 ≤ v ∧ v ≤ 3 ∧ v % 1 = 0 then
    some { st with gridShape := some (if v = 1 then .g2x1 else if v = 2 then .g2x2 else .g3x2) } else none := by
  by_cases h : 1 ≤ v ∧ v ≤ 3
  · obtain rfl | rfl | rfl : v = 1 ∨ v = 2 ∨ v = 3 := by omega
    · rfl
    · rfl
    · rfl
  · rw [if_neg (by omega)]
    change (if v = 1 then _ else if v = 2 then _ else if v = 3 then _ else none) = none
    rw [if_neg (by omega), if_neg (by omega), if_neg (by omega)]

theorem put_storageMode (st : Settings) (v : Nat) : st.put 0x14#8 v = if 0 ≤ v ∧ v ≤ 2 ∧ v % 1 = 0 then
    some { st with storageMode := if v = 0 then .single else if v = 1 then .overflow else .mirror } else none := by
  by_cases h : v ≤ 2
  · obtain rfl | rfl | rfl : v = 0 ∨ v = 1 ∨ v = 2 := by omega
    · rfl
    · rfl
    · rfl
  · rw [if_neg (by omega)]
    change (if v = 0 then _ else if v = 1 then _ else if v = 2 then _ else none) = none
    rw [if_neg (by omega), if_neg (by omega), if_neg (by omega)]

/-- The items with two values. -/
def twoValued : List Byte :=
  [0x04#8, 0x05#8, 0x0F#8, 0x10#8, 0x11#8, 0x15#8, 0x20#8, 0x21#8, 0x22#8, 0x23#8, 0x24#8, 0x25#8, 0x26#8]

theorem put_twoValued (st : Settings) (item : Byte) (v : Nat) {f : Nat → Settings} (hitem : item ∈ twoValued) (h0 : st.put item 0 = some (f 0))
    (h1 : st.put item 1 = some (f 1)) : st.put item v = if 0 ≤ v ∧ v ≤ 1 ∧ v % 1 = 0 then some (f v) else none := by
  by_cases h : v ≤ 1
  · obtain rfl | rfl : v = 0 ∨ v = 1 := by omega
    · exact h0
    · exact h1
  · have hbit : bitValue? v = none := by simp [bitValue?, show v ≠ 0 by omega, show v ≠ 1 by omega]
    have hpolicy : policyValue? v = none := by simp [policyValue?, show v ≠ 0 by omega, show v ≠ 1 by omega]
    rw [if_neg (by omega)]
    simp only [twoValued, List.mem_cons, List.not_mem_nil, or_false] at hitem
    rcases hitem with rfl | rfl | rfl | rfl | rfl | rfl | rfl | rfl | rfl | rfl | rfl | rfl | rfl
    all_goals simp [Settings.put, hbit, hpolicy]

/-- DarkThreshold: Off, or a value of its range. -/
theorem put_darkThreshold (st : Settings) (v : Nat) : st.put 0x09#8 v = if v = 0 then some { st with darkThreshold := none }
    else if 500 ≤ v ∧ v ≤ 60000 then some { st with darkThreshold := some v } else none := by
  change (if v = 0 then _ else guardValue (inRange 500 60000 1 v) _) = _
  rw [guardValue_inRange]
  simp [Nat.mod_one]

/-- The notice levels, by class. -/
theorem put_noticeLevel (st : Settings) (v : Nat) {k : Nat} (hk : k < 11) : st.put (BitVec.ofNat 8 (0x30 + k)) v =
    if v ≤ 3 then some { st with noticeLevels := st.noticeLevels.set k v } else none := by
  have hitem : (BitVec.ofNat 8 (0x30 + k)).toNat = 0x30 + k := by
    rw [BitVec.toNat_ofNat]
    omega
  have hput : st.put (BitVec.ofNat 8 (0x30 + k)) v = guardValue (inRange 0 3 1 v) { st with noticeLevels := st.noticeLevels.set k v } := by
    unfold Settings.put
    dsimp only
    rw [hitem]
    repeat rw [if_neg (by omega)]
    rw [if_pos (by omega), Nat.add_sub_cancel_left]
  rw [hput, guardValue_inRange]
  simp [Nat.mod_one]

/-- A byte that is no item of a setting value. -/
theorem put_unknown (st : Settings) (v : Nat) {item : Byte} (h : item = 0x00#8 ∨ item = 0x0E#8 ∨ (0x15 < item.toNat ∧ item.toNat < 0x20) ∨
    (0x26 < item.toNat ∧ item.toNat < 0x30) ∨ 0x3A < item.toNat) : st.put item v = none := by
  have hn : item.toNat = 0 ∨ item.toNat = 0x0E ∨ (0x15 < item.toNat ∧ item.toNat < 0x20) ∨
      (0x26 < item.toNat ∧ item.toNat < 0x30) ∨ 0x3A < item.toNat := by
    refine h.imp (fun h => by rw [h]; rfl) (Or.imp_left fun h => by rw [h]; rfl)
  unfold Settings.put
  dsimp only
  generalize item.toNat = i at hn
  repeat rw [if_neg (by omega)]

end Sys2Proof.Machine
end

section
/-! PROOF. A ring emptied outside Ready, where no job starts (R34, R94). -/

namespace Sys2Proof.Machine

/-- What the freeing of some shots leaves of a station that is not Ready. -/
structure State.Emptied (ns : List Shot) (s t : State) : Prop where
  ring : t.ring = { s.ring with slots := t.ring.slots, roster := t.ring.roster }
  gone : ∀ m, t.entry? m ≠ none ↔ s.entry? m ≠ none ∧ m ∉ ns
  ok : t.ringOk
  job : ∀ j, t.develop.job = some j → s.develop.job = some j ∧ (j.shot ∈ ns → s.entry? j.shot = none)
  once : (s.card.placements.map (·.shot)).Nodup → (t.card.placements.map (·.shot)).Nodup
  placements : (s.card.placements.map (·.shot)).Nodup → ∀ q, q ∈ t.card.placements ↔
    q ∈ s.card.placements ∧ (q.shot ∈ ns → s.entry? q.shot = none)

/-- In a list with one element of each shot, what is left when a shot's is taken out. -/
theorem mem_eraseP_shot {n : Shot} {l : List Placed} (hl : (l.map (·.shot)).Nodup) (q : Placed) :
    q ∈ l.eraseP (·.shot == n) ↔ q ∈ l ∧ q.shot ≠ n := by
  induction l with
  | nil => simp
  | cons p ps ih =>
    rw [List.map_cons, List.nodup_cons] at hl
    obtain ⟨hp, hps⟩ := hl
    by_cases hn : p.shot = n
    · rw [List.eraseP_cons_of_pos (by simp [hn])]
      refine ⟨fun hq => ⟨List.mem_cons_of_mem _ hq, fun h => hp ?_⟩, fun ⟨hq, hne⟩ => ?_⟩
      · rw [hn, ← h]
        exact List.mem_map_of_mem hq
      · obtain rfl | hq := List.mem_cons.mp hq
        · exact absurd hn hne
        · exact hq
    · rw [List.eraseP_cons_of_neg (by simp [hn]), List.mem_cons, List.mem_cons, ih hps]
      refine ⟨?_, ?_⟩
      · rintro (rfl | ⟨hq, hne⟩)
        · exact ⟨.inl rfl, hn⟩
        · exact ⟨.inr hq, hne⟩
      · rintro ⟨rfl | hq, hne⟩
        · exact .inl rfl
        · exact .inr ⟨hq, hne⟩

namespace State

variable {s t : State} {n : Shot} {ns : List Shot}

theorem freeSlot_none (h : s.entry? n = none) : s.freeSlot n = s := by
  unfold freeSlot
  rw [h]

theorem freeSlot_entry? (n m : Shot) (s : State) : (s.freeSlot n).entry? m ≠ none ↔ s.entry? m ≠ none ∧ m ≠ n := by
  rw [← mem_rosterShots, ← mem_rosterShots, freeSlot_shots]
  split
  next h =>
    refine ⟨fun hm => ⟨hm, ?_⟩, And.left⟩
    rintro rfl
    exact mem_rosterShots.mp hm h
  · constructor
    · intro hm
      obtain ⟨p, hp, rfl⟩ := List.mem_map.mp hm
      obtain ⟨hp, hne⟩ := List.mem_filter.mp hp
      exact ⟨List.mem_map_of_mem hp, by simpa using hne⟩
    · rintro ⟨hm, hne⟩
      obtain ⟨p, hp, rfl⟩ := List.mem_map.mp hm
      exact List.mem_map_of_mem (List.mem_filter.mpr ⟨hp, by simpa using hne⟩)

theorem ringOk.freeSlot_ok (h : s.ringOk) (n : Shot) : (s.freeSlot n).ringOk := by
  rw [ringOk_iff, freeSlot_shots]
  split
  · exact s.ringOk_iff.mp h
  · exact (s.ringOk_iff.mp h).without n

theorem ringOk.freed_emptied (h : s.ringOk) (hm : s.member.state ≠ .ready) (n : Shot) : s.Emptied [n] (s.freeSlot n) := by
  cases he : s.entry? n with
  | none =>
    rw [freeSlot_none he]
    refine ⟨rfl, fun m => ⟨fun hm => ⟨hm, fun hn => ?_⟩, And.left⟩, h, fun j hj => ⟨hj, fun hn => ?_⟩, id, fun _ q => ⟨fun hq => ⟨hq, fun hn => ?_⟩, And.left⟩⟩
    · rw [List.mem_singleton.mp hn] at hm
      exact hm he
    · rw [List.mem_singleton.mp hn, he]
    · rw [List.mem_singleton.mp hn, he]
  | some e =>
    have hf := h.freeSlot he
    obtain ⟨-, -, -, -, hu, -⟩ := hf.gone
    have hw : s.freeSlot n = ((s.shotOut n).leaveTile n).voidPlacement e := by
      rw [hf.freed, tryStartJob_waits _ (by simpa [State.shotOut] using hm)]
    have hplacements := hf.card_placements he
    refine ⟨?_, fun m => ?_, h.freeSlot_ok n, fun j hj => ?_, fun hnodup => ?_, fun hnodup q => ?_⟩
    · have hleft : ((s.shotOut n).leaveTile n).ring = { s.ring with slots := ((s.shotOut n).leaveTile n).ring.slots, roster := ((s.shotOut n).leaveTile n).ring.roster } := by
        rw [leaveTile]
        split
        · rw [chooseTile_ring, onTransfer_ring, hu]
        · rw [hu]
      rw [hw, hf.voidedRing]
      exact hleft
    · rw [freeSlot_entry?, List.mem_singleton]
    · rw [hw] at hj
      simp only [voidPlacement_frame, leaveTile_frame] at hj
      rw [hu] at hj
      obtain ⟨hj, hne⟩ := Option.filter_eq_some_iff.mp hj
      refine ⟨hj, fun hn => ?_⟩
      simp [List.mem_singleton.mp hn] at hne
    · rw [hplacements, placements_eraseP]
      exact hnodup.erase n
    · rw [hplacements, mem_eraseP_shot hnodup, List.mem_singleton]
      refine and_congr_right fun _ => ⟨fun hne hn => absurd hn hne, fun himp hn => ?_⟩
      have := himp hn
      rw [hn, he] at this
      cases this

theorem Emptied.trans {ms : List Shot} {u : State} (h : s.Emptied ns t) (h' : t.Emptied ms u) : s.Emptied (ns ++ ms) u where
  ring := by
    rw [h'.ring, h.ring]
  gone m := by
    rw [h'.gone, h.gone, List.mem_append, not_or, and_assoc]
  ok := h'.ok
  job j hj := by
    obtain ⟨hj, hms⟩ := h'.job j hj
    obtain ⟨hj, hns⟩ := h.job j hj
    refine ⟨hj, fun hm => ?_⟩
    by_contra hne
    obtain hm | hm := List.mem_append.mp hm
    · exact hne (hns hm)
    · exact (h.gone j.shot).mpr ⟨hne, fun hn => hne (hns hn)⟩ (hms hm)
  once hnodup := h'.once (h.once hnodup)
  placements hnodup q := by
    rw [h'.placements (h.once hnodup), h.placements hnodup, and_assoc]
    refine and_congr_right fun _ => ⟨fun ⟨hns, hms⟩ hm => ?_, fun himp => ⟨fun hn => himp (List.mem_append_left _ hn), fun hn => ?_⟩⟩
    · by_contra hne
      obtain hm | hm := List.mem_append.mp hm
      · exact hne (hns hm)
      · exact (h.gone q.shot).mpr ⟨hne, fun hn => hne (hns hn)⟩ (hms hm)
    · by_contra hne
      exact ((h.gone q.shot).mp hne).1 (himp (List.mem_append_right _ hn))

theorem Emptied.nothing (h : s.ringOk) : s.Emptied [] s :=
  ⟨rfl, fun m => by simp, h, fun j hj => ⟨hj, fun hn => nomatch hn⟩, id, fun _ q => by simp⟩

theorem ringOk.freeAll (h : s.ringOk) (hm : s.member.state ≠ .ready) (ns : List Shot) : s.Emptied ns (ns.foldl (fun t n => t.freeSlot n) s) := by
  induction ns generalizing s with
  | nil => exact .nothing h
  | cons n ns ih =>
    have hfreed := h.freed_emptied hm n
    exact hfreed.trans (ih hfreed.ok (by simpa using hm))

theorem mem_risingShots {m : Shot} : m ∈ s.risingShots ↔ s.entry? m ≠ none := by
  have hins : ∀ (a b : Shot) (l : List Shot), a ∈ insertShot b l ↔ a = b ∨ a ∈ l := by
    intro a b l
    induction l with
    | nil => simp [insertShot]
    | cons c cs ih =>
      unfold insertShot
      split
      · simp
      · rw [List.mem_cons, ih, List.mem_cons, or_left_comm]
  have hfold : ∀ l : List Shot, m ∈ l.foldr insertShot [] ↔ m ∈ l := by
    intro l
    induction l with
    | nil => rfl
    | cons a as ih => rw [List.foldr_cons, hins, ih, List.mem_cons]
  rw [risingShots, hfold, ← mem_rosterShots, shots_rosterShots]

/-- A ring emptied outside Ready. -/
theorem ringOk.emptied (h : s.ringOk) (hm : s.member.state ≠ .ready) : s.Emptied s.risingShots s.emptyRing := h.freeAll hm _

theorem ringOk.emptyRing_ring (h : s.ringOk) (hm : s.member.state ≠ .ready) :
    s.emptyRing.ring = { s.ring with slots := List.replicate 8 none, roster := [] } := by
  have hemp := h.emptied hm
  have hroster : s.emptyRing.ring.roster = [] := by
    refine List.eq_nil_iff_forall_not_mem.mpr fun e he => ?_
    have hne : s.emptyRing.entry? e.shot ≠ none := by rw [hemp.ok.entry? he]; exact Option.some_ne_none e
    obtain ⟨hs, hn⟩ := (hemp.gone e.shot).mp hne
    exact hn (mem_risingShots.mpr hs)
  have hslots : s.emptyRing.ring.slots = List.replicate 8 none := by
    obtain ⟨height, -, hentry, -⟩ := hemp.ok
    refine List.eq_replicate_iff.mpr ⟨height, fun o ho => ?_⟩
    cases o with
    | none => rfl
    | some x =>
      obtain ⟨i, hi⟩ := List.getElem?_of_mem ho
      obtain ⟨e, he, -⟩ := hentry i x hi
      rw [hroster] at he
      cases he
  rw [hemp.ring, hslots, hroster]

/-- With no roster there is nothing to free. -/
theorem emptyRing_empty (h : s.ring.roster = []) : s.emptyRing = s := by
  rw [emptyRing, risingShots, h]
  rfl

/-- With no slot taken and no job in hand, the dark slot's loss touches nothing else. -/
theorem invalidateDark_idle (hslots : ∀ o ∈ s.ring.slots, o = none) (hjob : s.develop.job = none) :
    s.invalidateDark = { s with dark := { s.dark with valid := false } } := by
  have hmap : ∀ f : Slot → Slot, (s.ring.slots.map fun o => o.map f) = s.ring.slots := by
    intro f
    refine (List.map_congr_left fun o ho => ?_).trans (List.map_id _)
    rw [hslots o ho]
    rfl
  have hsame : s.develop.job.map Job.loseDark = s.develop.job := by
    rw [hjob]
    rfl
  simp [invalidateDark, updJob, onDevelop, onRing, onDark, hsame, hmap]

end State

end Sys2Proof.Machine
end

section
/-! PROOF. Set and Begin in Configuring (R32-R35). -/

namespace Sys2Proof.Machine

/-- The first check of R35 that fails. -/
structure Membership.FailsFirst (m : Membership) (k : Nat) : Prop where
  low : 1 ≤ k
  high : k ≤ 6
  fails : ¬m.passes k
  before : ∀ j, 1 ≤ j → j < k → m.passes j

theorem Membership.FailsFirst.unique {m : Membership} {i k : Nat} (h : m.FailsFirst i) (h' : m.FailsFirst k) : i = k := by
  obtain hlt | heq | hgt := Nat.lt_trichotomy i k
  · exact absurd (h'.before i h.low hlt) h.fails
  · exact heq
  · exact absurd (h.before k h'.low hgt) h'.fails

/-- Where the stations are numbered from 0 in the table's order. -/
theorem Membership.passes_three (m : Membership) : m.passes 3 ↔ m.table.map (·.number.toNat) = List.range m.table.length := by
  unfold passes
  constructor
  · intro h
    refine List.ext_getElem (by simp) fun i hi hi' => ?_
    rw [List.getElem_map, List.getElem_range]
    exact h i _ (List.getElem?_eq_getElem (by simpa using hi))
  · intro h i e he
    have hmap : (m.table.map (·.number.toNat))[i]? = some e.number.toNat := by rw [List.getElem?_map, he]; rfl
    rw [h] at hmap
    obtain ⟨hi, heq⟩ := List.getElem?_eq_some_iff.mp hmap
    rw [List.getElem_range] at heq
    exact heq.symm

theorem Membership.passes_two {m : Membership} {g : GridShape} (hg : m.settings.gridShape = some g) :
    m.passes 2 ↔ m.table.length = g.members := by
  unfold passes
  rw [hg]
  cases g <;> simp [GridShape.members, GridShape.columns, GridShape.rows]

/-- A verdict on the checks of R35: the first that fails, or that all pass. -/
def Membership.Verdict (m : Membership) : Option Nat → Prop
  | some k => m.FailsFirst k
  | none => ∀ i, 1 ≤ i → i ≤ 6 → m.passes i

/-- Begin names the first check that fails. -/
theorem beginFailure_verdict (m : Membership) : m.Verdict (beginFailure m) := by
  unfold beginFailure
  dsimp only
  cases hg : m.settings.gridShape with
  | none => exact ⟨by omega, by omega, fun h => h hg, fun j hj hlt => by omega⟩
  | some g =>
    have h1 : m.passes 1 := by simp [Membership.passes, hg]
    dsimp only
    split
    next h =>
      refine ⟨by omega, by omega, fun h2 => h ((Membership.passes_two hg).mp h2), fun j hj hlt => ?_⟩
      obtain rfl : j = 1 := by omega
      exact h1
    next h =>
      have h2 : m.passes 2 := (Membership.passes_two hg).mpr (not_not.mp h)
      split
      next h =>
        refine ⟨by omega, by omega, fun h3 => h ((Membership.passes_three m).mp h3), fun j hj hlt => ?_⟩
        obtain rfl | rfl : j = 1 ∨ j = 2 := by omega
        · exact h1
        · exact h2
      next h =>
        have h3 : m.passes 3 := (Membership.passes_three m).mpr (not_not.mp h)
        split
        next h =>
          refine ⟨by omega, by omega, fun ⟨hlow, hhigh⟩ => by omega, fun j hj hlt => ?_⟩
          obtain rfl | rfl | rfl : j = 1 ∨ j = 2 ∨ j = 3 := by omega
          · exact h1
          · exact h2
          · exact h3
        next h =>
          have h4 : m.passes 4 := ⟨by omega, by omega⟩
          split
          next h =>
            refine ⟨by omega, by omega, fun h5 => h5.elim h.1 h.2, fun j hj hlt => ?_⟩
            obtain rfl | rfl | rfl | rfl : j = 1 ∨ j = 2 ∨ j = 3 ∨ j = 4 := by omega
            · exact h1
            · exact h2
            · exact h3
            · exact h4
          next h =>
            have h5 : m.passes 5 := by
              rw [not_and_or, not_not, not_not] at h
              exact h
            have hfive : ∀ j, 1 ≤ j → j < 6 → m.passes j := by
              intro j hj hlt
              obtain rfl | rfl | rfl | rfl | rfl : j = 1 ∨ j = 2 ∨ j = 3 ∨ j = 4 ∨ j = 5 := by omega
              · exact h1
              · exact h2
              · exact h3
              · exact h4
              · exact h5
            split
            next h => exact ⟨by omega, by omega, fun h6 => absurd h (Nat.not_lt.mpr h6), hfive⟩
            next h =>
              intro j hj hle
              by_cases hlt : j < 6
              · exact hfive j hj hlt
              · obtain rfl : j = 6 := by omega
                exact Nat.not_lt.mp h

theorem beginFailure_some {m : Membership} {k : Nat} (h : m.FailsFirst k) : beginFailure m = some k := by
  have hv := beginFailure_verdict m
  cases hb : beginFailure m with
  | none =>
    rw [hb] at hv
    exact absurd (hv k h.low h.high) h.fails
  | some i =>
    rw [hb] at hv
    rw [Membership.FailsFirst.unique hv h]

theorem beginFailure_none {m : Membership} (h : ∀ i, 1 ≤ i → i ≤ 6 → m.passes i) : beginFailure m = none := by
  have hv := beginFailure_verdict m
  cases hb : beginFailure m with
  | none => rfl
  | some i =>
    rw [hb] at hv
    exact absurd (h i hv.low hv.high) hv.fails

namespace State

variable {s : State} {h : ReqHeader}

/-- In Configuring the rows of R173 leave a readable Set or Begin to its own rule. -/
theorem event_configuring {code : Byte} {act : Action} {u : State} {r : Reply} (ha : act s = (u, r)) (hcode : code = 0x01#8 ∨ code = 0x02#8)
    (hcalm : s.calm) (hawake : s.power.state ≠ .sleep) (hconf : s.member.state = .configuring) :
    s.event (State.request h code act) = .next { u with link := u.linkAnswering h code r } := by
  refine event_answers ha ⟨hawake, .inl hconf⟩ hcalm ?_ (testsSleep_false _ _ s ?_ ?_)
  · rw [hconf]
    obtain rfl | rfl := hcode <;> decide
  · obtain rfl | rfl := hcode <;> decide
  · obtain rfl | rfl := hcode <;> decide

/-! ## Set -/

/-- A Set of a value that the item does not take. -/
theorem actSet_unknown (toAll : Bool) {item : Byte} {value : Word32} (hitem : item ≠ 0x0E#8) (hput : s.settings.put item value.toNat = none) :
    actSet toAll item value s = (s, .refused .badValue) := by
  unfold actSet
  rw [if_neg (show ¬item = defectItem from hitem), hput]

/-- A Set of a value that the item takes. -/
theorem actSet_value (toAll : Bool) {item : Byte} {value : Word32} {st : Settings} (hitem : item ≠ 0x0E#8)
    (hput : s.settings.put item value.toNat = some st) : actSet toAll item value s =
      if !toAll && !stationScope item then (s, .refused .badValue)
      else if sizeItem item && !s.dark.inside st then (s, .refused .badValue)
      else (((s.onMember fun m => { m with settings := st }).reconfigured).doIf (!sameSize s.settings st) State.resized, .done) := by
  unfold actSet
  rw [if_neg (show ¬item = defectItem from hitem), hput]

theorem stationScope_of_ne {item : Byte} (h : item ≠ 0x0E#8) : stationScope item = decide (item = 0x0D#8) := by
  unfold stationScope defectItem
  rw [beq_false_of_ne h, Bool.or_false]
  rfl

theorem sizeItem_iff (item : Byte) : sizeItem item = true ↔ item = 0x02#8 ∨ item = 0x03#8 := by simp [sizeItem]

theorem inside_iff (st : Settings) (d : Dark) : d.inside st = true ↔ ∀ e ∈ d.defects, e.row < st.tileRows ∧ e.column < st.tileColumns := by
  simp [Dark.inside]

theorem sameSize_iff (a b : Settings) : sameSize a b = true ↔ b.tileRows = a.tileRows ∧ b.tileColumns = a.tileColumns := by
  rw [sameSize, Bool.and_eq_true, beq_iff_eq, beq_iff_eq, eq_comm, @eq_comm _ a.tileColumns]

/-- A Set of a value that nothing in R32 or R34 refuses. -/
theorem actSet_taken {toAll : Bool} {item : Byte} {value : Word32} {st : Settings} (hitem : item ≠ 0x0E#8)
    (hput : s.settings.put item value.toNat = some st) (hscope : toAll = true ∨ item = 0x0D#8)
    (hinside : item = 0x02#8 ∨ item = 0x03#8 → ∀ e ∈ s.dark.defects, e.row < st.tileRows ∧ e.column < st.tileColumns) :
    actSet toAll item value s =
      (((s.onMember fun m => { m with settings := st }).reconfigured).doIf (!sameSize s.settings st) State.resized, .done) := by
  have hno : (sizeItem item && !s.dark.inside st) = false := by
    cases hs : sizeItem item with
    | false => rfl
    | true => rw [(inside_iff st s.dark).mpr (hinside ((sizeItem_iff item).mp hs))]; rfl
  have hall : (!toAll && !stationScope item) = false := by
    rw [stationScope_of_ne hitem]
    obtain h | h := hscope <;> simp [h]
  rw [actSet_value _ hitem hput, hall, if_neg (by decide), hno, if_neg (by decide)]

/-- Settings that an item may give all have the tile size of the settings in force. -/
def keepsSize (st : Settings) (o : Option Settings) : Prop := ∀ u, o = some u → sameSize st u = true

theorem keepsSize_ite (st : Settings) (p : Prop) [Decidable p] (a b : Option Settings) :
    keepsSize st (if p then a else b) ↔ (p → keepsSize st a) ∧ (¬p → keepsSize st b) := by
  by_cases hp : p <;> simp [hp]

theorem keepsSize_some (st u : Settings) : keepsSize st (some u) ↔ sameSize st u = true := by simp [keepsSize]

theorem keepsSize_none (st : Settings) : keepsSize st none := fun _ h => nomatch h

theorem keepsSize_guard (st u : Settings) (ok : Bool) (h : sameSize st u = true) : keepsSize st (guardValue ok u) := by
  unfold guardValue
  rw [keepsSize_ite]
  exact ⟨fun _ => (keepsSize_some st u).mpr h, fun _ => keepsSize_none st⟩

theorem keepsSize_map {α : Type} (st : Settings) (o : Option α) (f : α → Settings) (h : ∀ b, sameSize st (f b) = true) : keepsSize st (o.map f) := by
  intro u hu
  obtain ⟨b, -, rfl⟩ := Option.map_eq_some_iff.mp hu
  exact h b

/-- An item that is no tile size leaves it. -/
theorem put_sameSize {st u : Settings} {item : Byte} {v : Nat} (hput : st.put item v = some u) (hcol : item ≠ 0x02#8) (hrow : item ≠ 0x03#8) :
    sameSize st u = true := by
  have hcol' : item.toNat ≠ 2 := fun h => hcol (BitVec.eq_of_toNat_eq h)
  have hrow' : item.toNat ≠ 3 := fun h => hrow (BitVec.eq_of_toNat_eq h)
  have hkeeps : keepsSize st (st.put item v) := by
    unfold Settings.put
    simp [keepsSize_ite, keepsSize_some, keepsSize_none, keepsSize_guard, keepsSize_map, hcol', hrow', sameSize]
  exact hkeeps u hput

theorem setDefect_eq (value : Word32) (s : State) : setDefect value s =
    if s.settings.tileRows ≤ value.toNat / 65536 ∨ s.settings.tileColumns ≤ value.toNat % 65536 then (s, .refused .badValue)
    else if !s.dark.holds (value.toNat / 65536) (value.toNat % 65536) && s.dark.full then (s, .refused .full)
    else ((s.onDark (Dark.insert (value.toNat / 65536) (value.toNat % 65536) .fixed)).reconfigured, .done) := rfl

theorem actSet_defect {toAll : Bool} {item : Byte} {value : Word32} (hitem : item = 0x0E#8) : actSet toAll item value s = setDefect value s := by
  rw [hitem]
  rfl

theorem holds_iff (row column : Nat) (d : Dark) : d.holds row column = true ↔ ∃ e ∈ d.defects, e.row = row ∧ e.column = column := by
  simp [Dark.holds]

theorem holds_eq_false {row column : Nat} {d : Dark} (h : ∀ e ∈ d.defects, ¬(e.row = row ∧ e.column = column)) : d.holds row column = false := by
  rw [Bool.eq_false_iff, ne_eq, holds_iff]
  rintro ⟨e, he, hrc⟩
  exact h e he hrc

/-- A defect that the table has room for is inserted. -/
theorem insert_room {row column : Nat} {d : Dark} (origin : Origin) (h : ∀ e ∈ d.defects, ¬(e.row = row ∧ e.column = column))
    (hroom : d.defects.length < 1024) :
    d.insert row column origin = { d with defects := insertDefect { row := row, column := column, origin := origin } d.defects } := by
  have hfull : d.full = false := decide_eq_false (Nat.not_le.mpr hroom)
  unfold Dark.insert
  rw [holds_eq_false h, if_neg (by decide), hfull, if_neg (by decide)]

/-! ## Begin -/

theorem rePlace_empty (hr : s.ring.roster = []) : s.rePlace = s := by
  unfold rePlace
  rw [hr]
  split
  · rfl
  · simp

theorem tryStartJob_noRaw (h : ∀ o ∈ s.ring.slots, o = none) : s.tryStartJob = s := by
  obtain he | ⟨x, hx, -⟩ := s.tryStartJob_cases
  · exact he
  · exact absurd (h _ (slot?_mem hx)) (Option.some_ne_none x)

theorem chooseTile_empty (hr : s.ring.roster = []) : s.chooseTile = s := by
  unfold chooseTile
  split
  · rfl
  · rw [hr]
    rfl

/-- With nothing in the ring the entry into Ready begins nothing. -/
theorem enterReady_empty (hr : s.ring.roster = []) (h : ∀ o ∈ s.ring.slots, o = none) : s.enterReady = s := by
  rw [enterReady, rePlace_empty hr, tryStartJob_noRaw h, chooseTile_empty hr]

end State

end Sys2Proof.Machine
end

section
/-! PROOF. The obligation on Set and Begin (R32-R35). -/

namespace Sys2Proof.Machine

namespace State

variable {s : State} {h : ReqHeader} {item : Byte} {value : Word32} {st : Settings}

/-- The station once settings have been recorded. -/
def withSettings (st : Settings) (s : State) : State := { s with member := { s.member with settings := st, retainedValid := false } }

/-- A Set of a value that nothing refuses, as the station takes it. -/
theorem exec_set_taken (hcalm : s.calm) (hawake : s.power.state ≠ .sleep) (hconf : s.member.state = .configuring) (hitem : item ≠ 0x0E#8)
    (hput : s.settings.put item value.toNat = some st) (hscope : h.toAll = true ∨ item = 0x0D#8)
    (hinside : item = 0x02#8 ∨ item = 0x03#8 → ∀ e ∈ s.dark.defects, e.row < st.tileRows ∧ e.column < st.tileColumns) :
    exec (.setItem h item value) s = .next { doIf (!sameSize s.settings st) resized (s.withSettings st) with
      link := (doIf (!sameSize s.settings st) resized (s.withSettings st)).linkAnswering h 0x01#8 .done } :=
  event_configuring (actSet_taken hitem hput hscope hinside) (.inl rfl) hcalm hawake hconf

theorem exec_set_sameSize (hcalm : s.calm) (hawake : s.power.state ≠ .sleep) (hconf : s.member.state = .configuring) (hitem : item ≠ 0x0E#8)
    (hput : s.settings.put item value.toNat = some st) (hscope : h.toAll = true ∨ item = 0x0D#8)
    (hinside : item = 0x02#8 ∨ item = 0x03#8 → ∀ e ∈ s.dark.defects, e.row < st.tileRows ∧ e.column < st.tileColumns)
    (hsame : sameSize s.settings st = true) :
    exec (.setItem h item value) s = .next
      { s with member := { s.member with settings := st, retainedValid := false }, link := s.linkAnswering h 0x01#8 .done } := by
  rw [exec_set_taken hcalm hawake hconf hitem hput hscope hinside, hsame]
  rfl

/-- A change of the tile size frees every slot (R34). -/
theorem ringOk.resized_parts (hok : s.ringOk) (hm : s.member.state ≠ .ready) :
    s.resized.ring = { s.ring with roster := [], slots := List.replicate 8 none } ∧
    (∀ k, s.develop.job = some k → (∃ e ∈ s.ring.roster, e.shot = k.shot) → s.resized.develop.job = none) ∧
    ((s.card.placements.map (·.shot)).Nodup →
      ∀ q, q ∈ s.resized.card.placements ↔ q ∈ s.card.placements ∧ ∀ e ∈ s.ring.roster, e.shot ≠ q.shot) := by
  have hok' : s.invalidateDark.ringOk := hok.congr s.invalidateDark_shots
  have hemp := hok'.emptied hm
  have hroster : ∀ n, s.invalidateDark.entry? n = s.entry? n := fun n => entry?_congr rfl n
  refine ⟨?_, fun k hk ⟨e, he, hek⟩ => ?_, fun hnodup q => ?_⟩
  · exact (hok'.emptyRing_ring hm).trans rfl
  · by_contra hne
    obtain ⟨j, hj⟩ := Option.ne_none_iff_exists'.mp hne
    obtain ⟨hj, hgone⟩ := hemp.job j hj
    have hjk : j.shot = k.shot := by
      obtain ⟨i, hi, rfl⟩ := Option.map_eq_some_iff.mp (show s.develop.job.map Job.loseDark = some j from hj)
      cases Option.some.inj (hk.symm.trans hi)
      unfold Job.loseDark
      split <;> rfl
    have hin : s.entry? j.shot ≠ none := by
      rw [hjk, ← hek, hok.entry? he]
      exact Option.some_ne_none e
    exact hin ((hroster _).symm.trans (hgone (mem_risingShots.mpr (by rwa [hroster]))))
  · rw [show s.resized = s.invalidateDark.emptyRing from rfl, hemp.placements hnodup q]
    refine and_congr_right fun _ => ?_
    rw [mem_risingShots, hroster, ← entry?_eq_none]
    exact ⟨fun himp => by_contra fun hne => hne (himp hne), fun hnone _ => hnone⟩

end State

/-- Settles O50: the items by `Settings.put`'s branches, the tile size by what the emptying of the ring leaves, Begin by the verdict
on its checks. -/
theorem setAndBeginConfigureTheStation : Obligations.SetAndBeginConfigureTheStation := by
  refine ⟨⟨fun st item low high stride v f hmem => ?_, fun st v => ⟨put_darkThreshold st v, fun k => put_noticeLevel st v,
    fun item => put_unknown st v⟩, fun h item value s hcalm hawake hconf => ⟨fun hitem => ⟨fun hput => ?_, fun st hput => ⟨fun hone hgain => ?_,
      fun hsize hout => ?_, fun hscope hcol hrow => ?_, fun hall hsize hin hroster hjob hslots => ?_, fun hall hsize hin => ⟨fun hrows hcols => ?_,
        fun hdiff hok => ?_⟩⟩⟩, fun hitem => ⟨fun hout => ?_, fun hrow hcol => ⟨fun hnew hfull => ?_, fun hheld => ?_, fun hnew hroom => ?_⟩⟩⟩⟩,
    fun h s hcalm hawake hconf => ⟨fun i hlow hhigh hfails hbefore => ?_, fun hpass => ?_⟩⟩
  · simp only [List.mem_cons, Prod.mk.injEq, List.not_mem_nil, or_false] at hmem
    rcases hmem with h | h | h | h | h | h | h | h | h | h | h | h | h | h | h | h | h | h | h | h | h | h | h | h | h | h
    all_goals obtain ⟨rfl, rfl, rfl, rfl, hf⟩ := h
    · exact hf ▸ put_gridShape st v
    · exact hf ▸ guardValue_inRange _ _ _ _ _
    · exact hf ▸ guardValue_inRange _ _ _ _ _
    · exact put_twoValued st 0x04#8 v (by decide) (by rw [hf]; rfl) (by rw [hf]; rfl)
    · exact put_twoValued st 0x05#8 v (by decide) (by rw [hf]; rfl) (by rw [hf]; rfl)
    · exact hf ▸ guardValue_inRange _ _ _ _ _
    · exact hf ▸ guardValue_inRange _ _ _ _ _
    · exact hf ▸ guardValue_inRange _ _ _ _ _
    · exact hf ▸ guardValue_inRange _ _ _ _ _
    · exact hf ▸ guardValue_inRange _ _ _ _ _
    · exact hf ▸ guardValue_inRange _ _ _ _ _
    · exact hf ▸ guardValue_inRange _ _ _ _ _
    · exact put_twoValued st 0x0F#8 v (by decide) (by rw [hf]; rfl) (by rw [hf]; rfl)
    · exact put_twoValued st 0x10#8 v (by decide) (by rw [hf]; rfl) (by rw [hf]; rfl)
    · exact put_twoValued st 0x11#8 v (by decide) (by rw [hf]; rfl) (by rw [hf]; rfl)
    · exact hf ▸ guardValue_inRange _ _ _ _ _
    · exact hf ▸ guardValue_inRange _ _ _ _ _
    · exact hf ▸ put_storageMode st v
    · exact put_twoValued st 0x15#8 v (by decide) (by rw [hf]; rfl) (by rw [hf]; rfl)
    · exact put_twoValued st 0x20#8 v (by decide) (by rw [hf]; rfl) (by rw [hf]; rfl)
    · exact put_twoValued st 0x21#8 v (by decide) (by rw [hf]; rfl) (by rw [hf]; rfl)
    · exact put_twoValued st 0x22#8 v (by decide) (by rw [hf]; rfl) (by rw [hf]; rfl)
    · exact put_twoValued st 0x23#8 v (by decide) (by rw [hf]; rfl) (by rw [hf]; rfl)
    · exact put_twoValued st 0x24#8 v (by decide) (by rw [hf]; rfl) (by rw [hf]; rfl)
    · exact put_twoValued st 0x25#8 v (by decide) (by rw [hf]; rfl) (by rw [hf]; rfl)
    · exact put_twoValued st 0x26#8 v (by decide) (by rw [hf]; rfl) (by rw [hf]; rfl)
  · exact State.event_configuring (State.actSet_unknown _ hitem hput) (.inl rfl) hcalm hawake hconf
  · refine State.event_configuring ?_ (.inl rfl) hcalm hawake hconf
    rw [State.actSet_value _ hitem hput, State.stationScope_of_ne hitem]
    simp [hone, hgain]
  · have hno : s.dark.inside st = false := by
      rw [Bool.eq_false_iff, ne_eq, State.inside_iff]
      obtain ⟨d, hd, hrc⟩ := hout
      intro hall
      have := hall d hd
      omega
    refine State.event_configuring ?_ (.inl rfl) hcalm hawake hconf
    rw [State.actSet_value _ hitem hput, (State.sizeItem_iff item).mpr hsize, hno]
    simp
  · exact State.exec_set_sameSize hcalm hawake hconf hitem hput hscope (fun hsize => absurd hsize (not_or.mpr ⟨hcol, hrow⟩))
      (State.put_sameSize hput hcol hrow)
  · have htaken := State.exec_set_taken (h := h) hcalm hawake hconf hitem hput (.inl hall) fun _ => hin
    cases hsame : sameSize s.settings st with
    | true =>
      obtain ⟨hrows, hcols⟩ := (State.sameSize_iff _ _).mp hsame
      rw [htaken, hsame, hrows, hcols]
      simp [State.withSettings]
      rfl
    | false =>
      have hvalid : (decide (st.tileRows = s.settings.tileRows) && decide (st.tileColumns = s.settings.tileColumns)) = false := by
        rw [← Bool.not_eq_true, Bool.and_eq_true, decide_eq_true_iff, decide_eq_true_iff, ← State.sameSize_iff, hsame]
        decide
      have hresized : (s.withSettings st).resized = { s.withSettings st with dark := { s.dark with valid := false } } := by
        rw [State.resized, State.invalidateDark_idle (s := s.withSettings st) hslots hjob, State.emptyRing_empty]
        · rfl
        · exact hroster
      rw [htaken, hsame, hvalid, Bool.and_false]
      exact congrArg (fun t : State => Host.Outcome.next { t with link := t.linkAnswering h 0x01#8 .done }) hresized
  · exact State.exec_set_sameSize hcalm hawake hconf hitem hput (.inl hall) (fun _ => hin) ((State.sameSize_iff _ _).mpr ⟨hrows, hcols⟩)
  · have hsame : sameSize s.settings st = false := by
      rw [Bool.eq_false_iff, ne_eq, State.sameSize_iff]
      exact hdiff
    have htaken := State.exec_set_taken (h := h) hcalm hawake hconf hitem hput (.inl hall) fun _ => hin
    rw [hsame] at htaken
    have hnot : (s.withSettings st).member.state ≠ .ready := by
      change s.member.state ≠ .ready
      rw [hconf]
      decide
    obtain ⟨hring, hjob, hplaced⟩ := State.ringOk.resized_parts (s := s.withSettings st) hok hnot
    refine ⟨_, htaken, ?_, hring, ?_, hjob, hplaced, ?_, ?_, ?_, ?_⟩
    · exact (State.emptyRing_frame _).1
    · exact (State.emptyRing_frame _).2.2.2.1
    · exact (State.emptyRing_frame _).2.2.1
    · exact (State.emptyRing_frame _).2.1
    · exact (State.emptyRing_frame _).2.2.2.2.1
    · exact (State.emptyRing_frame _).2.2.2.2.2.2.1
  · exact State.event_configuring (by rw [State.actSet_defect hitem, State.setDefect_eq, if_pos hout]) (.inl rfl) hcalm hawake hconf
  · have hdefect : ∀ r, (if s.settings.tileRows ≤ value.toNat / 65536 ∨ s.settings.tileColumns ≤ value.toNat % 65536 then
        (s, Reply.refused .badValue) else r) = r := fun r => if_neg (by omega)
    refine State.event_configuring ?_ (.inl rfl) hcalm hawake hconf
    rw [State.actSet_defect hitem, State.setDefect_eq, hdefect, State.holds_eq_false hnew, show s.dark.full = true from decide_eq_true hfull]
    rfl
  · have hdefect : ∀ r, (if s.settings.tileRows ≤ value.toNat / 65536 ∨ s.settings.tileColumns ≤ value.toNat % 65536 then
        (s, Reply.refused .badValue) else r) = r := fun r => if_neg (by omega)
    have hholds := (State.holds_iff _ _ _).mpr hheld
    have ha : actSet h.toAll item value s = (s.reconfigured, .done) := by
      rw [State.actSet_defect hitem, State.setDefect_eq, hdefect, hholds]
      simp [State.onDark, Dark.insert_present _ _ _ _ hholds]
    exact State.event_configuring ha (.inl rfl) hcalm hawake hconf
  · have hdefect : ∀ r, (if s.settings.tileRows ≤ value.toNat / 65536 ∨ s.settings.tileColumns ≤ value.toNat % 65536 then
        (s, Reply.refused .badValue) else r) = r := fun r => if_neg (by omega)
    have hfull : s.dark.full = false := decide_eq_false (Nat.not_le.mpr hroom)
    have ha : actSet h.toAll item value s =
        ((s.onDark fun d => { d with defects := insertDefect { row := value.toNat / 65536, column := value.toNat % 65536, origin := .fixed } d.defects }).reconfigured, .done) := by
      rw [State.actSet_defect hitem, State.setDefect_eq, hdefect, hfull, Bool.and_false, if_neg (by decide)]
      simp [State.onDark, State.insert_room .fixed hnew hroom]
    refine ⟨_, State.event_configuring ha (.inl rfl) hcalm hawake hconf, rfl, fun a => ?_⟩
    exact (insertDefect_mem _ a s.dark.defects).trans or_comm
  · exact State.event_configuring (act := actBegin) (by rw [actBegin, beginFailure_some ⟨hlow, hhigh, hfails, hbefore⟩]) (.inr rfl) hcalm hawake hconf
  · have ha : actBegin s = (((s.onMember Membership.begin).onCapture fun c => { c with state := .disarmed }).enterReady, .done) := by
      rw [actBegin, beginFailure_none hpass]
    have hbegun := State.enterReady_frame ((s.onMember Membership.begin).onCapture fun c => { c with state := .disarmed })
    obtain ⟨hmember, hclock, hsync, hcapture, hdark, hpower, -, -, hnext⟩ := hbegun
    have htop : ((s.onMember Membership.begin).onCapture fun c => { c with state := .disarmed }).enterReady.ring.top = s.ring.top := by
      rw [State.enterReady, State.chooseTile_ring, State.tryStartJob_eq, (State.rePlace_frame _).2.2.2.2.1]
      rfl
    refine ⟨_, State.event_configuring ha (.inr rfl) hcalm hawake hconf, hmember, hcapture, hclock, hsync, hdark, hpower, hnext, htop,
      fun hroster hslots => ?_⟩
    rw [State.enterReady_empty (s := (s.onMember Membership.begin).onCapture fun c => { c with state := .disarmed }) hroster hslots]
    have hlink : s.member.begin.place { dst := 7#4, msg := .answer h.tag 0x02#8 .done none [] } s.link = s.linkAnswering h 0x02#8 .done := by
      unfold State.linkAnswering State.linkAfter Membership.place
      rw [hconf]
      rfl
    exact congrArg (fun l => { s with member := s.member.begin, capture := { s.capture with state := .disarmed }, link := l }) hlink

end Sys2Proof.Machine
end

section
/-! PROOF. The Status report's layout, and Histogram and Status (R130, R175, R176, R195). -/

namespace Sys2Proof.Machine

/-! ## Bytes of a body that is put together from parts -/

/-- A body of parts of known lengths: the bytes from an offset inside one of its parts. -/
theorem drop_flatten_part {parts : List (List Byte)} {lens : List Nat} (hl : parts.map List.length = lens) {i : Nat} {p : List Byte}
    (hp : parts[i]? = some p) {off k : Nat} (ho : (lens.take i).sum = off) (hk : k ≤ p.length) :
    parts.flatten.drop (off + k) = p.drop k ++ (parts.drop (i + 1)).flatten := by
  obtain ⟨hi, rfl⟩ := List.getElem?_eq_some_iff.mp hp
  have hsplit : parts.flatten = (parts.take i).flatten ++ (parts[i] ++ (parts.drop (i + 1)).flatten) := by
    rw [← List.flatten_cons, ← List.drop_eq_getElem_cons hi, ← List.flatten_append, List.take_append_drop]
  have hlen : (parts.take i).flatten.length = off := by rw [List.length_flatten, List.map_take, hl, ho]
  rw [hsplit, ← hlen, List.drop_append, List.drop_eq_nil_of_le (by omega), List.nil_append, Nat.add_sub_cancel_left,
    List.drop_append_of_le_length hk]

theorem field_part {parts : List (List Byte)} {lens : List Nat} (hl : parts.map List.length = lens) (i : Nat) {p : List Byte} (off k n : Nat)
    (hp : parts[i]? = some p) (ho : (lens.take i).sum = off) (hk : k + n ≤ p.length) : field parts.flatten (off + k) n = field p k n := by
  rw [field, drop_flatten_part hl hp ho (by omega), List.take_append_of_le_length (by rw [List.length_drop]; omega)]
  rfl

theorem getD_part {parts : List (List Byte)} {lens : List Nat} (hl : parts.map List.length = lens) (i : Nat) {p : List Byte} (off k : Nat)
    (hp : parts[i]? = some p) (ho : (lens.take i).sum = off) (hk : k < p.length) : parts.flatten.getD (off + k) 0#8 = p.getD k 0#8 := by
  have h := congrArg (fun l : List Byte => l[0]?) (drop_flatten_part hl hp ho hk.le)
  simp only [List.getElem?_drop, Nat.add_zero] at h
  rw [List.getD_eq_getElem?_getD, h, List.getElem?_append_left (by rw [List.length_drop]; omega), List.getElem?_drop, Nat.add_zero,
    List.getD_eq_getElem?_getD]

/-- A part that is one number. -/
theorem field_number {parts : List (List Byte)} {lens : List Nat} (hl : parts.map List.length = lens) (i : Nat) (off n v : Nat)
    (hp : parts[i]? = some (beBytes n v)) (ho : (lens.take i).sum = off) : field parts.flatten off n = v % 256 ^ n := by
  have h := field_part hl i off 0 n hp ho (by simp [beBytes_length])
  rw [Nat.add_zero] at h
  rw [h, field, List.drop_zero, List.take_of_length_le (by simp [beBytes_length]), fromBE_beBytes]

/-- A part that is one byte. -/
theorem getD_byte {parts : List (List Byte)} {lens : List Nat} (hl : parts.map List.length = lens) (i : Nat) (off : Nat) (b : Byte)
    (hp : parts[i]? = some [b]) (ho : (lens.take i).sum = off) : parts.flatten.getD off 0#8 = b :=
  getD_part hl i off 0 hp ho Nat.one_pos

/-- Numbers of one length after each other. -/
theorem field_flatMap (l : List Nat) (n i : Nat) (hi : i < l.length) : field (l.flatMap (beBytes n)) (n * i) n = l.getD i 0 % 256 ^ n := by
  have hl : (l.map (beBytes n)).map List.length = l.map fun _ => n := by
    rw [List.map_map]
    exact List.map_congr_left fun v _ => beBytes_length n v
  have hp : (l.map (beBytes n))[i]? = some (beBytes n (l.getD i 0)) := by
    rw [List.getElem?_map, List.getElem?_eq_getElem hi, List.getD_eq_getElem _ _ hi]
    rfl
  have ho : ((l.map fun _ => n).take i).sum = n * i := by
    rw [← List.map_take, List.map_const', List.sum_replicate, List.length_take, Nat.min_eq_left hi.le, smul_eq_mul, Nat.mul_comm]
  exact field_number hl i (n * i) n _ hp ho

/-! ## Flags -/

/-- A sum of distinct powers of two has their bits. -/
theorem testBit_sum_pow (p : Nat → Bool) (n i : Nat) : ((List.range n).map fun j => if p j then 2 ^ j else 0).sum < 2 ^ n ∧
    (((List.range n).map fun j => if p j then 2 ^ j else 0).sum).testBit i = (decide (i < n) && p i) := by
  induction n generalizing i with
  | zero => simp
  | succ n ih =>
    obtain ⟨hlt, -⟩ := ih 0
    have hbit := (ih i).2
    rw [List.range_succ, List.map_append, List.sum_append, List.map_singleton, List.sum_singleton]
    cases hp : p n with
    | false =>
      refine ⟨by simp only [Bool.false_eq_true, if_false]; omega, ?_⟩
      simp only [Bool.false_eq_true, if_false, Nat.add_zero, hbit]
      by_cases hi : i = n
      · simp [hi, hp]
      · simp [show i < n + 1 ↔ i < n by omega]
    | true =>
      refine ⟨by simp only [if_true]; omega, ?_⟩
      rw [if_pos rfl, Nat.add_comm]
      obtain hi | rfl | hi := Nat.lt_trichotomy i n
      · rw [Nat.testBit_two_pow_add_gt hi, hbit]
        simp [hi, show i < n + 1 by omega]
      · rw [Nat.testBit_two_pow_add_eq, Nat.testBit_lt_two_pow hlt]
        simp [hp]
      · rw [Nat.testBit_lt_two_pow]
        · simp [show ¬i < n + 1 by omega]
        · have := Nat.pow_le_pow_right (n := 2) (by decide) hi
          omega

theorem mask_bit : ∀ m n : Node, (1#8 <<< m.toNat).getLsbD n.toNat = decide (n = m) := by decide

/-- A mask has the bits of the nodes that it names. -/
theorem maskOf_getLsbD (nodes : List Node) (n : Node) : (maskOf nodes).getLsbD n.toNat = decide (n ∈ nodes) := by
  have hfold : ∀ (l : List Node) (acc : Byte), (l.foldl (fun m n => m ||| (1#8 <<< n.toNat)) acc).getLsbD n.toNat =
      (acc.getLsbD n.toNat || decide (n ∈ l)) := by
    intro l
    induction l with
    | nil => simp
    | cons m ms ih =>
      intro acc
      rw [List.foldl_cons, ih, BitVec.getLsbD_or, mask_bit, Bool.or_assoc]
      simp [List.mem_cons]
  rw [maskOf, hfold]
  simp

/-! ## The parts of the report -/

namespace State

variable {s : State}

/-- The identity and the cursors that a report gives. -/
def cardReported (s : State) : Word32 × Nat × Nat := if s.cardStation then s.card.reported else (0#32, 0, 0)

/-- The parts of the report, in order. -/
def reportParts (s : State) : List (List Byte) :=
  [[s.self.setWidth 8], beBytes 4 s.member.serial.toNat, [fittedByte s.member.straps.fitted], [stationStateCode s.member.state],
    [optSocketCode s.card.letter], [flagByte s.link.detached], beBytes 4 s.link.spoiled, beBytes 4 s.link.retries,
    beBytes 4 s.link.malformed, [powerStateCode s.power.state], [flagByte s.power.sleepPending], [captureStateCode s.capture.state],
    [flagByte s.capture.disarmPending], [flagByte s.capture.haltPending], beBytes 4 s.capture.current.toNat,
    beBytes 8 (s.capture.pendingRelease.getD 0#64).toNat, s.ring.slots.map fun o => tagCode (o.map (·.tag)), [BitVec.ofNat 8 s.ring.top],
    beBytes 4 s.ring.next.toNat, [BitVec.ofNat 8 s.ring.roster.length], s.rosterShots.flatMap (beBytes 4), [flagByte s.dark.valid],
    beBytes 4 (s.dark.duration.getD 0), beBytes 8 (s.dark.captureEnd.getD 0#64).toNat, beBytes 2 s.dark.defects.length,
    beBytes 2 s.dark.overflow, beBytes 2 s.develop.late, beBytes 2 s.develop.overrun, [cardStateCode s.card.state],
    beBytes 4 s.cardReported.1.toNat, beBytes 2 s.cardReported.2.1, beBytes 4 s.cardReported.2.2, beBytes 2 s.quietFlags,
    [maskOf s.memberNumbers]]

/-- The lengths of the parts. -/
def reportLengths : List Nat :=
  [1, 4, 1, 1, 1, 1, 4, 4, 4, 1, 1, 1, 1, 1, 4, 8, 8, 1, 4, 1, 32, 1, 4, 8, 2, 2, 2, 2, 1, 4, 2, 4, 2, 1]

theorem report_eq (s : State) : s.report = s.reportParts.flatten := by
  unfold report reportParts
  dsimp only
  rw [← cardReported]
  simp only [List.flatten_cons, List.flatten_nil, List.append_assoc, List.append_nil, List.cons_append, List.nil_append]

theorem rosterShots_length (s : State) : s.rosterShots.length = 8 := by
  simp [rosterShots]

theorem reportParts_lengths (h : s.ring.slots.length = 8) : s.reportParts.map List.length = reportLengths := by
  have hroster : (s.rosterShots.flatMap (beBytes 4)).length = 32 := by
    rw [List.length_flatMap]
    simp [beBytes_length, rosterShots_length]
  simp only [reportParts, List.map_cons, List.map_nil, beBytes_length, List.length_map, h, hroster, List.length_singleton]
  rfl

/-- A number of the report. -/
theorem report_number (h : s.ring.slots.length = 8) (i off n v : Nat) (hp : s.reportParts[i]? = some (beBytes n v))
    (ho : (reportLengths.take i).sum = off) : field s.report off n = v % 256 ^ n := by
  rw [report_eq]
  exact field_number (reportParts_lengths h) i off n v hp ho

/-- A byte of the report. -/
theorem report_byte (h : s.ring.slots.length = 8) (i off : Nat) (b : Byte) (hp : s.reportParts[i]? = some [b])
    (ho : (reportLengths.take i).sum = off) : s.report.getD off 0#8 = b := by
  rw [report_eq]
  exact getD_byte (reportParts_lengths h) i off b hp ho

theorem report_length (h : s.ring.slots.length = 8) : s.report.length = 119 := by
  rw [report_eq, List.length_flatten, reportParts_lengths h]
  rfl

theorem report_tag (h : s.ring.slots.length = 8) (i : Nat) (hi : i < 8) :
    s.report.getD (38 + i) 0#8 = tagCode ((s.ring.slots.getD i none).map (·.tag)) := by
  have hlen : i < s.ring.slots.length := by omega
  rw [report_eq, getD_part (reportParts_lengths h) 16 38 i rfl rfl (by rw [List.length_map]; exact hlen), List.getD_eq_getElem _ _ (by simpa using hlen),
    List.getElem_map, List.getD_eq_getElem _ _ hlen]

theorem report_shot (h : s.ring.slots.length = 8) (i : Nat) (hi : i < 8) :
    field s.report (52 + 4 * i) 4 = (s.ring.inOrder.map fun x => x.shot.toNat).getD i 0 := by
  have hlen : (s.rosterShots.flatMap (beBytes 4)).length = 32 := by
    rw [List.length_flatMap]
    simp [beBytes_length, rosterShots_length]
  rw [report_eq, field_part (reportParts_lengths h) 20 52 (4 * i) 4 rfl rfl (by rw [hlen]; omega),
    field_flatMap _ _ _ (by rw [rosterShots_length]; exact hi)]
  have hget : s.rosterShots.getD i 0 = (s.ring.inOrder.map fun x => x.shot.toNat).getD i 0 := by
    rw [rosterShots, List.getD_eq_getElem?_getD, List.getElem?_take_of_lt hi, List.getD_eq_getElem?_getD]
    by_cases hin : i < (s.ring.inOrder.map fun x => x.shot.toNat).length
    · rw [List.getElem?_append_left hin]
    · rw [List.getElem?_append_right (by omega), List.getElem?_eq_none (l := s.ring.inOrder.map _) (by omega), List.getElem?_replicate]
      split <;> rfl
  have hlt : (s.ring.inOrder.map fun x => x.shot.toNat).getD i 0 < 256 ^ 4 := by
    rw [List.getD_eq_getElem?_getD, List.getElem?_map]
    cases s.ring.inOrder[i]? with
    | none => exact Nat.pow_pos (by decide)
    | some x => exact x.shot.isLt
  rw [hget, Nat.mod_eq_of_lt hlt]

theorem quietFlags_testBit (s : State) (i : Nat) (hi : i < 16) : (s.quietFlags % 256 ^ 2).testBit i =
    (decide (i < 11) && (s.notices.records.getD i none).isSome && decide (s.settings.noticeLevels.getD i 0 = 0)) := by
  rw [show 256 ^ 2 = 2 ^ 16 from rfl, Nat.testBit_mod_two_pow, decide_eq_true hi, Bool.true_and, quietFlags, (testBit_sum_pow _ 11 i).2, Bool.and_assoc]
  rfl

theorem fittedByte_toNat (f : Fitted) : (fittedByte f).toNat =
    (if f.card then 1 else 0) + (if f.release then 2 else 0) + (if f.sync then 4 else 0) := by
  obtain ⟨card, release, sync⟩ := f
  cases card <;> cases release <;> cases sync <;> rfl

theorem cardReported_present {r : Roll} (hs : s.cardStation = true) (hr : s.card.roll = some r)
    (hc : s.card.state = .ready ∨ s.card.state = .ejecting ∨ s.card.state = .formatting) :
    s.cardReported = (if s.card.state = .formatting then 0#32 else r.identity, r.index, r.write) := by
  unfold cardReported Card.reported
  rw [if_pos hs, hr]
  obtain hc | hc | hc := hc <;> rw [hc] <;> rfl

theorem cardReported_absent (h : s.cardStation = false ∨ s.card.roll = none ∨
    (s.card.state ≠ .ready ∧ s.card.state ≠ .ejecting ∧ s.card.state ≠ .formatting)) : s.cardReported = (0#32, 0, 0) := by
  unfold cardReported Card.reported
  cases hs : s.cardStation with
  | false => rfl
  | true =>
    rw [if_pos rfl]
    obtain hno | hr | ⟨hready, heject, hformat⟩ := h
    · rw [hs] at hno
      cases hno
    · split
      next hroll => exact nomatch hr.symm.trans hroll
      next hroll => exact nomatch hr.symm.trans hroll
      next hroll => exact nomatch hr.symm.trans hroll
      next => rfl
    · split
      next hc _ => exact absurd hc hready
      next hc _ => exact absurd hc heject
      next hc _ => exact absurd hc hformat
      next => rfl

/-- The report has the layout of R195. -/
theorem report_layout (h : s.ring.slots.length = 8) : s.reportedAs s.report := by
  have hword : ∀ w : Word32, w.toNat % 256 ^ 4 = w.toNat := fun w => Nat.mod_eq_of_lt w.isLt
  have htime : ∀ w : Time, w.toNat % 256 ^ 8 = w.toNat := fun w => Nat.mod_eq_of_lt w.isLt
  refine ⟨report_length h, report_byte h 0 0 _ rfl rfl, (report_number h 1 1 4 _ rfl rfl).trans (hword _), ?_, ?_, ?_,
    report_byte h 5 8 _ rfl rfl, report_number h 6 9 4 _ rfl rfl, report_number h 7 13 4 _ rfl rfl, report_number h 8 17 4 _ rfl rfl, ?_,
    report_byte h 10 22 _ rfl rfl, ?_, report_byte h 12 24 _ rfl rfl, report_byte h 13 25 _ rfl rfl,
    (report_number h 14 26 4 _ rfl rfl).trans (hword _), ?_, fun i hi => ?_, report_byte h 17 46 _ rfl rfl,
    (report_number h 18 47 4 _ rfl rfl).trans (hword _), report_byte h 19 51 _ rfl rfl, fun i hi => report_shot h i hi,
    report_byte h 21 84 _ rfl rfl, ?_, ?_, report_number h 24 97 2 _ rfl rfl, report_number h 25 99 2 _ rfl rfl,
    report_number h 26 101 2 _ rfl rfl, report_number h 27 103 2 _ rfl rfl, ?_, fun r hs hr hc => ?_, fun habsent => ?_, fun i hi => ?_, fun n => ?_⟩
  · rw [report_byte h 2 5 _ rfl rfl, fittedByte_toNat]
  · rw [report_byte h 3 6 _ rfl rfl]
    cases s.member.state <;> rfl
  · rw [report_byte h 4 7 _ rfl rfl]
    cases s.card.letter with
    | none => rfl
    | some k => cases k <;> rfl
  · rw [report_byte h 9 21 _ rfl rfl]
    cases s.power.state <;> rfl
  · rw [report_byte h 11 23 _ rfl rfl]
    cases s.capture.state <;> rfl
  · rw [report_number h 15 30 8 _ rfl rfl, htime]
    cases s.capture.pendingRelease <;> rfl
  · rw [report_tag h i hi]
    cases s.ring.slots.getD i none with
    | none => rfl
    | some x =>
      obtain ⟨_, tag, _⟩ := x
      cases tag <;> rfl
  · rw [report_number h 22 85 4 _ rfl rfl]
    cases s.dark.duration <;> rfl
  · rw [report_number h 23 89 8 _ rfl rfl, htime]
    cases s.dark.captureEnd <;> rfl
  · rw [report_byte h 28 105 _ rfl rfl]
    cases s.card.state <;> rfl
  · have hrep := cardReported_present hs hr hc
    rw [report_number h 29 106 4 _ rfl rfl, report_number h 30 110 2 _ rfl rfl, report_number h 31 112 4 _ rfl rfl, hword, hrep]
    refine ⟨?_, rfl, rfl⟩
    split <;> rfl
  · rw [report_number h 29 106 4 _ rfl rfl, report_number h 30 110 2 _ rfl rfl, report_number h 31 112 4 _ rfl rfl, cardReported_absent habsent]
    exact ⟨rfl, rfl, rfl⟩
  · rw [report_number h 32 116 2 _ rfl rfl]
    exact quietFlags_testBit s i hi
  · rw [report_byte h 33 118 _ rfl rfl]
    exact maskOf_getLsbD _ n

end State

/-! ## Histogram and Status -/

/-- The records after a Status: those of the classes at level 0 are cleared. -/
theorem clearQuiet_getD (levels : List Nat) (n : Notices) (i : Nat) (hn : n.records.length = 11) (hl : levels.length = 11) (hi : i < 11) :
    (n.clearQuiet levels).records.getD i none = if levels.getD i 0 = 0 then none else n.records.getD i none := by
  have hr : i < n.records.length := by omega
  have hlv : i < levels.length := by omega
  rw [Notices.clearQuiet, List.getD_eq_getElem _ _ (by simp; omega), List.getElem_zipWith, List.getD_eq_getElem _ _ hlv,
    List.getD_eq_getElem _ _ hr]

theorem actHistogram_held {n : Shot} {bins : List Nat} {s : State} (h : s.develop.stats = .histogram n bins) (hn : n ≠ 0#32) :
    actHistogram n s = (s, .report (beBytes 4 n.toNat ++ bins.flatMap (beBytes 4))) := by
  simp [actHistogram, h, hn]

theorem actHistogram_none {n : Shot} {s : State} (h : n = 0#32 ∨ ∀ bins, s.develop.stats ≠ .histogram n bins) :
    actHistogram n s = (s, .refused .noData) := by
  unfold actHistogram
  split
  next m bins hm =>
    rw [if_neg]
    rintro ⟨rfl, hn⟩
    exact h.elim hn fun hno => hno bins hm
  · rfl

/-- Status is settled by its own rule wherever a Request is handled, but in Excluded. -/
theorem State.take_status {s : State} (handle : State → State) (hawake : s.power.state ≠ .sleep)
    (h : s.inForce ∨ s.member.state = .duplicate ∨ (s.member.state = .rolling ∧ s.member.rejoin = true)) :
    s.take .request handle = handle s ∧ settleRequest s.member.state statusCode true = none := by
  obtain ⟨-, hm | hm⟩ | hm | ⟨hm, hr⟩ := h
  · exact ⟨State.take_configuring _ _ s hawake hm, by rw [hm]; decide⟩
  · exact ⟨State.take_ready _ _ s hawake hm, by rw [hm]; decide⟩
  · exact ⟨by rw [State.take_duplicate _ _ s hawake hm, if_pos (.inr rfl)], by rw [hm]; decide⟩
  · exact ⟨by rw [State.take_rejoining _ _ s hawake hm hr, if_neg (by decide)], by rw [hm]; decide⟩

/-- Settles O53: Histogram by what the statistics area holds, Status by its action and the parts of its report. -/
theorem histogramAndStatusReport : Obligations.HistogramAndStatusReport := by
  refine fun h n s hcalm hawake => ⟨fun hforce => ⟨fun bins hbins hn => ?_, fun hno => ?_⟩, fun hst hrecords hlevels => ?_, State.report_layout⟩
  · rw [exec_histogram_of_inForce h n s hforce hcalm, actHistogram_held hbins hn]
    rfl
  · rw [exec_histogram_of_inForce h n s hforce hcalm, actHistogram_none hno]
    rfl
  · obtain ⟨htake, hown⟩ := State.take_status (State.settle h statusCode true actStatus) hawake hst
    refine ⟨_, (State.event_of_calm _ s hcalm).trans (congrArg _ (htake.trans (State.settle_answer h _ true actStatus s hown
      (State.testsSleep_false _ _ s (by decide) (by decide))))), rfl, ?_, fun i hi => clearQuiet_getD _ _ i hrecords hlevels hi⟩
    change (List.zipWith _ s.notices.records s.settings.noticeLevels).length = 11
    rw [List.length_zipWith, hrecords]
    exact Nat.min_eq_left hlevels.ge

end Sys2Proof.Machine
end

section
/-! PROOF. A dark capture abandoned, and the way through Doze into Sleep (R104, R105, R182-R184). -/

namespace Sys2Proof.Machine

namespace State

variable {s : State} {h : ReqHeader}

/-! ## A dark capture abandoned -/

/-- The timers once a dark capture has been abandoned: the dark timer is stopped where it exposed. -/
def timersLeft (k : DarkCapture) (s : State) : Timers :=
  if k.phase = .exposing then { s.clock.timers with dark := s.clock.timers.dark.halt } else s.clock.timers

/-- The station once a dark capture has been abandoned, before the test of R112. -/
def darkLeft (k : DarkCapture) (s : State) : State := { s with
  clock := { s.clock with timers := s.timersLeft k }
  ring := (s.doIf (k.shot != 0#32) (settleAwaiting k.shot .none)).ring
  dark := { s.dark with capture := none }
  capture := { s.capture with exposure := none } }

theorem abandonDark_eq {k : DarkCapture} (hk : s.dark.capture = some k) : s.abandonDark = (s.darkLeft k).tryStartJob := by
  unfold abandonDark darkLeft timersLeft
  rw [hk]
  refine congrArg tryStartJob ?_
  by_cases hp : k.phase = .exposing
  · rw [show (k.phase == .exposing) = true by simpa using hp, if_pos hp]
    cases k.shot != 0#32 <;> rfl
  · rw [show (k.phase == .exposing) = false by simpa using hp, if_neg hp]
    cases k.shot != 0#32 <;> rfl

theorem abandonDark_nothing (hk : s.dark.capture = none) : s.abandonDark = s := by
  unfold abandonDark
  rw [hk]

/-- With no slot taken the abandoned dark capture touches neither ring nor development. -/
theorem abandonDark_idle (hslots : ∀ o ∈ s.ring.slots, o = none) : s.abandonDark = { s with
    clock := { s.clock with timers := s.abandonDark.clock.timers }
    dark := { s.dark with capture := none }
    capture := { s.capture with exposure := s.abandonDark.capture.exposure } } := by
  cases hk : s.dark.capture with
  | none =>
    rw [abandonDark_nothing hk, ← hk]
  | some k =>
    have hfree : s.slot? k.shot = none := by
      rw [slot?_eq_none]
      exact fun x hx => absurd (hslots _ hx) (Option.some_ne_none x)
    have hsettled : s.settleAwaiting k.shot .none = s := updSlot_absent _ _ _ hfree
    have hring : (s.darkLeft k).ring = s.ring := by
      unfold darkLeft
      cases k.shot != 0#32 with
      | false => rfl
      | true => exact (congrArg State.ring hsettled :)
    rw [abandonDark_eq hk, tryStartJob_noRaw (by rwa [hring])]
    have hsame : s.darkLeft k = { s.darkLeft k with ring := s.ring } := by rw [← hring]
    rw [hsame]
    rfl

/-! ## Doze and Sleep -/

theorem captureDoze_eq (s : State) : s.captureDoze = { s with capture := s.captureDoze.capture, clock := s.captureDoze.clock } := by
  unfold captureDoze
  cases s.capture.state.forced <;> rfl

theorem captureDoze_capture (s : State) : s.captureDoze.capture = { s.capture with
    pendingRelease := none, haltPending := false
    state := if s.capture.state.working then s.capture.state else .disarmed
    disarmPending := if s.capture.state.working then true else s.capture.disarmPending } := by
  have hcapture : s.captureDoze.capture = if s.capture.state.working then
      { s.capture with pendingRelease := none, disarmPending := true, haltPending := false }
      else { s.capture with pendingRelease := none, state := .disarmed, haltPending := false } := by
    unfold captureDoze
    cases s.capture.state.forced <;> rfl
  rw [hcapture]
  cases s.capture.state.working <;> rfl

theorem captureDoze_clock (s : State) : s.captureDoze.clock.alarm = none ∧ s.captureDoze.clock.linkTime = s.clock.linkTime ∧
    s.captureDoze.clock.pulse = s.clock.pulse := by
  unfold captureDoze
  cases s.capture.state.forced <;> exact ⟨rfl, rfl, rfl⟩

theorem drained_iff (l : Link) : l.drained = true ↔
    l.detached = true ∨ (l.urgent = [] ∧ l.control = [] ∧ l.urgentHeld = [] ∧ l.controlHeld = []) := by
  simp [Link.drained, and_assoc]

theorem maySleep_iff (s : State) : s.maySleep = true ↔
    (∀ o ∈ s.ring.slots, o = none) ∧ s.card.placements = [] ∧ s.develop.job = none ∧ s.link.drained = true := by
  simp [maySleep, and_assoc]

theorem cardSleep_card (s : State) : s.cardSleep.card = { letter := s.card.letter, medium := s.card.medium } := by
  unfold cardSleep
  by_cases hc : s.card.state = .empty
  · simp [hc, onCard]
  · simp [hc, onCard, doIf, changeCard, raiseCardState, raise, onNotices]

theorem cardSleep_eq (s : State) : s.cardSleep = { s with card := s.cardSleep.card, notices := s.cardSleep.notices } := by
  unfold cardSleep
  cases s.card.state != .empty <;> rfl

/-- What entry into Sleep leaves where nothing is in the ring and no job is in hand. -/
theorem captureSleep_idle (hslots : ∀ o ∈ s.ring.slots, o = none) (hjob : s.develop.job = none) : s.captureSleep = { s with
    clock := { s.clock with alarm := none, timers := s.captureSleep.clock.timers }
    dark := { s.dark with valid := false, capture := none }
    capture := { s.capture with
      state := .disarmed, disarmPending := false, haltPending := false, exposure := none, quiet := [], pendingRelease := none } } := by
  have hidle := abandonDark_idle (s := { s with dark := { s.dark with valid := false } }) hslots
  unfold captureSleep
  rw [invalidateDark_idle hslots hjob, hidle]
  rfl

/-- Entry into Sleep with nothing in the ring and no job in hand. -/
theorem enterSleep_idle (hslots : ∀ o ∈ s.ring.slots, o = none) (hjob : s.develop.job = none) :
    s.enterSleep.power = { state := .sleep, sleepPending := false, wakeCause := none, candidate := none, latched := s.latchLevel } ∧
    s.enterSleep.clock = { s.clock with
      alarm := none, pulse := none
      timers := { roll := {}, mark := {}, attribution := {}, pulse := {}, exposureLimit := {}, dark := {}, quiet := {}, seam := {} } } ∧
    s.enterSleep.capture = { s.capture with
      state := .disarmed, disarmPending := false, haltPending := false, exposure := none, quiet := [], pendingRelease := none } ∧
    s.enterSleep.dark = { s.dark with valid := false, capture := none, samples := [] } ∧
    s.enterSleep.card = { letter := s.card.letter, medium := s.card.medium } ∧ s.enterSleep.notices.records = List.replicate 11 none ∧
    s.enterSleep.ring = { s.ring with areas := List.replicate 8 {} } ∧ s.enterSleep.member = s.member ∧ s.enterSleep.develop = s.develop ∧
    s.enterSleep.link = s.link ∧ s.enterSleep.transfer.current = none ∧ s.enterSleep.sync = { s.sync with candidate := none } ∧
    s.enterSleep.pending = s.pending := by
  have hcapture := captureSleep_idle (s := s.onPower fun p =>
    { p with state := .sleep, sleepPending := false, latched := s.latchLevel, wakeCause := none, candidate := none }) hslots hjob
  unfold enterSleep dropTileMemory
  dsimp only
  rw [cardSleep_eq, hcapture]
  refine ⟨rfl, rfl, rfl, rfl, ?_, rfl, rfl, rfl, rfl, rfl, rfl, rfl, rfl⟩
  exact cardSleep_card _

end State

/-- Settles O55: the entry into Doze, and the sleep test by its conditions. -/
theorem sleepPassesThroughDoze : Obligations.SleepPassesThroughDoze := by
  intro h s hcalm
  have htest : exec .sleepEntry s = .next s.sleepTest := State.event_of_calm _ s hcalm
  have hsleep : s.member.state = .ready → s.power.state ≠ .sleep → exec (.sleep h) s =
      .next ((State.answer h 0x32#8 (actSleep s)).doIf (s.testsSleep 0x32#8 (actSleep s).2) State.sleepTest) := by
    intro hready hawake
    refine (State.event_of_calm _ s hcalm).trans ?_
    rw [State.request_running h _ actSleep s hawake (.inr hready), State.settle_none]
    rw [hready]
    exact State.settleRequest_ready (by decide) (by decide)
  refine ⟨htest, fun hready hdoze => ?_, fun hready hactive => ?_, fun hheld => ?_, fun hdoze hslots hplaced hjob hdrained => ?_⟩
  · rw [hsleep hready (by simp [hdoze])]
    have hno : s.testsSleep 0x32#8 (actSleep s).2 = false := by simp [State.testsSleep, actSleep, hdoze, Reply.done]
    have hact : actSleep s = (s, .done) := by
      rw [actSleep, hdoze]
      rfl
    rw [hno, hact]
    rfl
  · have hyes : s.testsSleep 0x32#8 (actSleep s).2 = true := by simp [State.testsSleep, actSleep, hactive, Reply.done]
    have hact : actSleep s = (s.enterDoze, .done) := by simp [actSleep, hactive]
    obtain ⟨halarm, htime, hpulse⟩ := State.captureDoze_clock (s.onPower fun p => { p with state := .doze, sleepPending := true })
    refine ⟨State.answer h 0x32#8 (s.enterDoze, .done), ?_, ?_, halarm, htime, hpulse, State.captureDoze_capture _⟩
    · rw [hsleep hready (by simp [hactive]), hyes, hact]
      rfl
    · have heq := State.captureDoze_eq (s.onPower fun p => { p with state := .doze, sleepPending := true })
      rw [State.enterDoze, heq]
      rfl
  · rw [htest]
    refine congrArg _ ?_
    obtain hdoze | hheld := hheld
    · exact State.sleepTest_awake s hdoze
    · refine State.sleepTest_held s ?_
      rw [Bool.eq_false_iff, ne_eq, State.maySleep_iff, State.drained_iff]
      rintro ⟨hslots, hplaced, hjob, hdrained⟩
      obtain ⟨o, ho, hne⟩ | hne | hne | ⟨hlink, hne⟩ := hheld
      · exact hne (hslots o ho)
      · exact hne hplaced
      · exact hne hjob
      · obtain hdet | ⟨hu, hc, huh, hch⟩ := hdrained
        · rw [hlink] at hdet
          cases hdet
        · simp [hu, hc, huh, hch] at hne
  · refine ⟨_, htest.trans (congrArg _ (State.sleepTest_enters s hdoze ?_)), State.enterSleep_idle hslots hjob⟩
    exact (State.maySleep_iff s).mpr ⟨hslots, hplaced, hjob, (State.drained_iff _).mpr hdrained⟩

end Sys2Proof.Machine
end

section
/-! PROOF. Wakes (R185-R187). -/

namespace Sys2Proof.Machine

/-- What an operation leaves that produces none but control frames. -/
structure Link.ControlOnly (l k : Link) : Prop where
  urgent : k.urgent = l.urgent
  bulk : k.bulk = l.bulk
  detached : k.detached = l.detached

theorem Link.ControlOnly.refl (l : Link) : l.ControlOnly l := ⟨rfl, rfl, rfl⟩

theorem Link.ControlOnly.trans {l k m : Link} (h : l.ControlOnly k) (h' : k.ControlOnly m) : l.ControlOnly m :=
  ⟨h'.urgent.trans h.urgent, h'.bulk.trans h.bulk, h'.detached.trans h.detached⟩

theorem Link.give_controlOnly {f : Frame} (l : Link) (hq : f.msg.queue = .control) : l.ControlOnly (l.give f) := by
  unfold Link.give
  rw [hq]
  dsimp only
  split <;> exact ⟨rfl, rfl, rfl⟩

theorem Membership.place_controlOnly (m : Membership) {f : Frame} (l : Link) (hq : f.msg.queue = .control) : l.ControlOnly (m.place f l) := by
  have hgive := Link.give_controlOnly l hq
  have hite : ∀ (b : Bool) (k : Link), l.ControlOnly k → l.ControlOnly (if b then l.give f else k) := by
    intro b k hk
    cases b
    · exact hk
    · exact hgive
  unfold Membership.place
  split
  · exact .refl l
  · split
    · exact hgive
    · exact hgive
    · exact hite _ _ ⟨rfl, rfl, rfl⟩
    · exact hite _ _ (.refl l)
    · exact hite _ _ (.refl l)

namespace State

variable {s : State}

/-- The member table and its flags at the beginning of a roll call (R23). -/
def memberRolling (rejoin : Bool) (s : State) : Membership :=
  { s.member with state := .rolling, table := [], highest := s.ring.next, ownRollOut := false, rejoin := rejoin }

theorem setupRollCall_member (rejoin : Bool) (s : State) : (s.setupRollCall rejoin).member = s.memberRolling rejoin :=
  (startWait_frame _).1

/-- A station numbered 0 has its Roll out of the wait at once. -/
theorem setupRollCall_zero (rejoin : Bool) (h : s.self = 0#3) : s.setupRollCall rejoin = { s with
    member := s.memberRolling rejoin
    clock := { s.clock with timers := { s.clock.timers with roll := { s.clock.timers.roll with request := .stop, due := false } } }
    link := s.link.give { dst := 15#4, msg := s.ownRoll rejoin } } := by
  have hnum : s.member.straps.number = 0#3 := h
  simp [setupRollCall, startWait, loadTimer, onTimer, onMember, onClock, doIf, onExpiry, self, hnum, Timer.load, Timers.upd, timer,
    Timers.get, Timer.delivered, sendRoll, broadcast, queue, onLink, ownRoll, Membership.place, Msg.queuedInRolling, memberRolling]

/-- Another station waits its number of milliseconds. -/
theorem setupRollCall_waits (rejoin : Bool) (h : s.self ≠ 0#3) : s.setupRollCall rejoin = { s with
    member := s.memberRolling rejoin
    clock := { s.clock with timers := { s.clock.timers with roll := { s.clock.timers.roll with request := .load s.self.toNat } } } } := by
  have hnum : s.member.straps.number ≠ 0#3 := h
  have hn : s.member.straps.number.toNat ≠ 0 := fun h => hnum (BitVec.eq_of_toNat_eq (by simpa using h))
  simp [setupRollCall, startWait, loadTimer, onTimer, onMember, onClock, doIf, self, hnum, hn, Timer.load, Timers.upd, memberRolling]

theorem setupRollCall_controlOnly (rejoin : Bool) (s : State) : s.link.ControlOnly (s.setupRollCall rejoin).link := by
  by_cases h : s.self = 0#3
  · rw [setupRollCall_zero rejoin h]
    exact Link.give_controlOnly (f := { dst := 15#4, msg := s.ownRoll rejoin }) s.link rfl
  · rw [setupRollCall_waits rejoin h]
    exact ⟨rfl, rfl, rfl⟩

/-- The control queue at the beginning of a roll call, with room in it. -/
theorem setupRollCall_control (rejoin : Bool) (hroom : s.link.control.length < 32) (hheld : s.link.controlHeld = []) :
    (s.setupRollCall rejoin).link.control = s.link.control ++ s.rollAtEntry rejoin := by
  unfold rollAtEntry
  by_cases h : s.self = 0#3
  · rw [setupRollCall_zero rejoin h, if_pos h]
    have hqueue : (s.ownRoll rejoin).queue = .control := rfl
    unfold Link.give
    rw [hqueue]
    dsimp only
    have hgiven : (([] : List Frame).isEmpty && decide (s.link.control.length < Config.controlCapacity)) = true := decide_eq_true hroom
    rw [hheld, if_pos hgiven, ownRoll, h]
    rfl
  · rw [setupRollCall_waits rejoin h, if_neg h, List.append_nil]

/-! ## The wake itself -/

/-- The station before its card is mounted and the roll call of its wake is set up. -/
def stirred (cause : WakeCause) (source : Byte) (body : List Byte) (s : State) : State :=
  ((((((s.onPower fun p =>
        { p with state := .active, sleepPending := false, latched := none, wakeCause := some cause, candidate := none }).onDevelop
      fun d => { d with stats := .wakeRecord (wakeRecordBytes cause source body.length s.clock.linkTime body) }).onLink Link.wake).onNotices
    fun n => { n with records := List.replicate 11 none }).announceWake cause).loadTimer .mark Config.markInterval).onSync
      (fun y => { y with accepted := none, candidate := none })

/-- The station before the roll call of its wake is set up. -/
def waking (cause : WakeCause) (source : Byte) (body : List Byte) (s : State) : State := (s.stirred cause source body).mountIfPresent

theorem stirred_eq (cause : WakeCause) (source : Byte) (body : List Byte) (s : State) : s.stirred cause source body = { s with
    power := { state := .active, sleepPending := false, latched := none, wakeCause := some cause, candidate := none }
    develop := { s.develop with stats := .wakeRecord (wakeRecordBytes cause source body.length s.clock.linkTime body) }
    link := (s.stirred cause source body).link
    clock := { s.clock with timers := { s.clock.timers with mark := { s.clock.timers.mark with request := .load 100 } } }
    notices := { s.notices with records := List.replicate 11 none }
    sync := { s.sync with accepted := none, candidate := none } } := by
  cases cause <;> rfl

theorem mountIfPresent_eq (s : State) : s.mountIfPresent = { s with card := s.mountIfPresent.card, notices := s.mountIfPresent.notices } := by
  unfold mountIfPresent
  cases s.cardStation && s.card.medium.isSome <;> rfl

theorem waking_eq (cause : WakeCause) (source : Byte) (body : List Byte) (s : State) : s.waking cause source body = { s with
    power := { state := .active, sleepPending := false, latched := none, wakeCause := some cause, candidate := none }
    develop := { s.develop with stats := .wakeRecord (wakeRecordBytes cause source body.length s.clock.linkTime body) }
    link := (s.stirred cause source body).link
    clock := { s.clock with timers := { s.clock.timers with mark := { s.clock.timers.mark with request := .load 100 } } }
    sync := { s.sync with accepted := none, candidate := none }
    card := (s.waking cause source body).card
    notices := (s.waking cause source body).notices } := by
  rw [waking, mountIfPresent_eq, stirred_eq]

theorem wakeUp_eq (cause : WakeCause) (source : Byte) (body : List Byte) (s : State) :
    s.wakeUp cause source body = ((s.waking cause source body).setupRollCall true).raise (.woke cause s.clock.linkTime) := rfl

theorem stirred_controlOnly (cause : WakeCause) (source : Byte) (body : List Byte) (s : State) :
    s.link.wake.ControlOnly (s.stirred cause source body).link := by
  cases cause with
  | frame => exact .refl _
  | sync => exact s.member.place_controlOnly (f := { dst := 15#4, msg := .wake 0x3F#8 .sync }) _ rfl
  | card => exact s.member.place_controlOnly (f := { dst := 15#4, msg := .wake 0x3F#8 .card }) _ rfl

theorem setupRollCall_mark (rejoin : Bool) (s : State) : (s.setupRollCall rejoin).timer .mark = s.timer .mark := by
  by_cases h : s.self = 0#3
  · rw [setupRollCall_zero rejoin h]
    rfl
  · rw [setupRollCall_waits rejoin h]
    rfl

theorem mountIfPresent_mounts (hs : s.cardStation = true) (hm : s.card.medium ≠ none) : s.mountIfPresent = s.beginMount := by
  have hyes : (s.cardStation && s.card.medium.isSome) = true := by
    rw [hs, Bool.true_and, Option.isSome_iff_ne_none]
    exact hm
  rw [mountIfPresent, hyes]
  rfl

theorem mountIfPresent_stays (h : s.cardStation = false ∨ s.card.medium = none) : s.mountIfPresent = s := by
  have hno : (s.cardStation && s.card.medium.isSome) = false := by
    obtain hs | hm := h
    · rw [hs, Bool.false_and]
    · rw [hm, Option.isSome_none, Bool.and_false]
  rw [mountIfPresent, hno]
  rfl

/-- The card and its notice before the roll call of a wake is set up, where a card is in the socket. -/
theorem waking_mounts (cause : WakeCause) (source : Byte) (body : List Byte) (hs : s.cardStation = true) (hm : s.card.medium ≠ none) :
    (s.waking cause source body).card = { s.card with state := .mounting, roll := none } ∧
    (s.waking cause source body).notices.records =
      (List.replicate 11 none).set 5 (some { data := .cardState s.card.letter .mounting 0#32 0#16 0#32, count := 1 }) := by
  have hcard : (s.stirred cause source body).card = s.card := by rw [stirred_eq]
  rw [waking, mountIfPresent_mounts (s := s.stirred cause source body) (by rw [stirred_eq]; exact hs) (by rwa [hcard]), stirred_eq]
  exact ⟨rfl, rfl⟩

/-- The card and the notices before the roll call of a wake is set up, where no card is mounted. -/
theorem waking_stays (cause : WakeCause) (source : Byte) (body : List Byte) (h : s.cardStation = false ∨ s.card.medium = none) :
    (s.waking cause source body).card = s.card ∧ (s.waking cause source body).notices.records = List.replicate 11 none := by
  rw [waking, mountIfPresent_stays (s := s.stirred cause source body) (by rw [stirred_eq]; exact h), stirred_eq]
  exact ⟨rfl, rfl⟩

theorem waking_notices (cause : WakeCause) (source : Byte) (body : List Byte) (s : State) :
    (s.waking cause source body).notices.records[9]? = some none := by
  by_cases h : s.cardStation = true ∧ s.card.medium ≠ none
  · rw [(waking_mounts cause source body h.1 h.2).2]
    rfl
  · rw [(waking_stays cause source body (by simpa [imp_iff_not_or] using h)).2]
    rfl

theorem wakeUp_notices (cause : WakeCause) (source : Byte) (body : List Byte) (s : State) : (s.wakeUp cause source body).notices =
    (s.waking cause source body).notices.raise (.woke cause s.clock.linkTime) := by
  rw [wakeUp_eq]
  exact congrArg (Notices.raise _) (setupRollCall_frame true _).2.2.2.2.2.2.2.1

/-- What every wake leaves (R187). -/
theorem wakeUp_woken (cause : WakeCause) (source : Byte) (body : List Byte) (s : State) :
    s.wokenAs cause (wakeRecordBytes cause source body.length s.clock.linkTime body) (s.wakeUp cause source body) := by
  have hw := waking_eq cause source body s
  have hmember : (s.waking cause source body).member = s.member := (congrArg State.member hw :)
  have hring : (s.waking cause source body).ring = s.ring := (congrArg State.ring hw :)
  have hlink : (s.waking cause source body).link = (s.stirred cause source body).link := (congrArg State.link hw :)
  have hcontrol := (stirred_controlOnly cause source body s).trans (hlink ▸ setupRollCall_controlOnly true (s.waking cause source body))
  have hrecord : (s.wakeUp cause source body).notices.records[9]? = some (some { data := .woke cause s.clock.linkTime, count := 1 }) := by
    rw [wakeUp_notices]
    exact Notices.raise_clear _ _ (waking_notices cause source body s)
  have hrolling : (s.waking cause source body).memberRolling true = s.memberRolling true := by rw [memberRolling, hmember, hring, memberRolling]
  obtain ⟨hsync, hcapture, hrings, hdark, hdevelop, htransfer, -, -, hpower, hpending, htime, -⟩ :=
    setupRollCall_frame true (s.waking cause source body)
  refine ⟨hpower.trans ((congrArg State.power hw :)), hdevelop.trans ((congrArg State.develop hw :)),
    (setupRollCall_member true _).trans hrolling, hcontrol.urgent, hcontrol.bulk, hcontrol.detached,
    congrArg Timer.request ((setupRollCall_mark true _).trans ((congrArg (fun t : State => t.timer .mark) hw :))), fun hne => ?_,
    htime.trans ((congrArg (fun t : State => t.clock.linkTime) hw :)), hsync.trans ((congrArg State.sync hw :)), ?_,
    hrings.trans hring, hdark.trans ((congrArg State.dark hw :)), hcapture.trans ((congrArg State.capture hw :)),
    htransfer.trans ((congrArg State.transfer hw :)), hpending.trans ((congrArg State.pending hw :))⟩
  · have hself : (s.waking cause source body).self = s.self := congrArg (·.straps.number) hmember
    have hwaits := setupRollCall_waits (s := s.waking cause source body) true fun h => hne (by rw [← hself, h]; rfl)
    rw [wakeUp_eq, hwaits, hself]
    rfl
  · rw [List.getD_eq_getElem?_getD, hrecord]
    rfl

theorem wakeUp_card (cause : WakeCause) (source : Byte) (body : List Byte) (s : State) :
    (s.wakeUp cause source body).card = (s.waking cause source body).card := by
  rw [wakeUp_eq]
  exact (setupRollCall_frame true _).2.2.2.2.2.2.1

theorem wakeUp_cardNotice (cause : WakeCause) (source : Byte) (body : List Byte) (s : State) :
    (s.wakeUp cause source body).notices.records.getD 5 none = (s.waking cause source body).notices.records.getD 5 none := by
  rw [wakeUp_notices, List.getD_eq_getElem?_getD, Notices.raise_other _ _ _ (show (5 : Nat) ≠ 9 by decide), List.getD_eq_getElem?_getD]

/-- The mount of the card that is in the socket at a wake (R151). -/
theorem wakeUp_mounts (cause : WakeCause) (source : Byte) (body : List Byte) (s : State) : s.mountsAtWake (s.wakeUp cause source body) := by
  refine ⟨fun hs hm => ?_, fun hno => ?_⟩
  · obtain ⟨hcard, hnotice⟩ := waking_mounts cause source body hs hm
    rw [wakeUp_card, wakeUp_cardNotice, hcard, hnotice]
    exact ⟨rfl, rfl⟩
  · obtain ⟨hcard, hnotice⟩ := waking_stays cause source body hno
    rw [wakeUp_card, wakeUp_cardNotice, hcard, hnotice]
    exact ⟨rfl, rfl⟩

/-- The control queue after a wake, with what its beginning has queued. -/
theorem wakeUp_control (cause : WakeCause) (source : Byte) (body : List Byte) {q : List Queued}
    (hq : (s.stirred cause source body).link.control = q) (hroom : q.length < 32) (hheld : (s.stirred cause source body).link.controlHeld = []) :
    (s.wakeUp cause source body).link.control = q ++ s.rollAtEntry true := by
  have hw := waking_eq cause source body s
  have hlink : (s.waking cause source body).link = (s.stirred cause source body).link := (congrArg State.link hw :)
  have hentry : (s.waking cause source body).rollAtEntry true = s.rollAtEntry true := by
    have hmember : (s.waking cause source body).member = s.member := (congrArg State.member hw :)
    have hring : (s.waking cause source body).ring = s.ring := (congrArg State.ring hw :)
    rw [rollAtEntry, rollAtEntry, self, hmember, hring]
    rfl
  rw [wakeUp_eq]
  refine (setupRollCall_control true (by rwa [hlink, hq]) (by rwa [hlink])).trans ?_
  rw [hlink, hq, hentry]

/-- The Wake that a station of the row queues. -/
theorem place_wake {m : Membership} (c : WakeFrameCause) (l : Link) (hready : m.state = .ready) (h6 : m.straps.number ≠ 6#3) (h7 : m.straps.number ≠ 7#3) :
    (m.place { dst := 15#4, msg := .wake 0x3F#8 c } l.wake).control =
      [{ frame := { dst := 15#4, msg := .wake 0x3F#8 c }, spoils := 0 }] ∧
    (m.place { dst := 15#4, msg := .wake 0x3F#8 c } l.wake).controlHeld = [] := by
  unfold Membership.place
  rw [if_neg (by simp [h6, h7]), hready]
  exact ⟨rfl, rfl⟩

theorem wakeLocal_sync_queued (s : State) : s.wakeQueued .sync (s.wakeLocal .sync) := by
  intro hready h6 h7
  obtain ⟨hcontrol, hheld⟩ := place_wake .sync s.link hready h6 h7
  exact wakeUp_control .sync 15#8 [] hcontrol (by decide) hheld

theorem wakeLocal_card_queued (s : State) : s.wakeQueued .card (s.wakeLocal .card) := by
  intro hready h6 h7
  obtain ⟨hcontrol, hheld⟩ := place_wake .card s.link hready h6 h7
  exact wakeUp_control .card 15#8 [] hcontrol (by decide) hheld

/-! ## The events that wake -/

theorem sample_asleep (level : Level) (hf : s.member.straps.fitted.sync = true) (hp : s.power.state = .sleep) :
    s.sample level = s.sampleAsleep level := by
  simp [sample, hf, hp]

/-- A sleeping station's sample of the latched level. -/
theorem sampleAsleep_latched {a : Level} (hw : s.settings.wakeOnSync = true) (ha : s.power.latched = some a) :
    s.sampleAsleep a = { s with power := { s.power with candidate := none } } := by
  simp [sampleAsleep, hw, ha, onPower]

/-- A sleeping station's sample of the other level begins a test. -/
theorem sampleAsleep_first {a : Level} (hw : s.settings.wakeOnSync = true) (ha : s.power.latched = some a) (hc : s.power.candidate = none) :
    s.sampleAsleep (Level.other a) = { s with power := { s.power with
      candidate := some { since := s.clock.linkTime, samples := 1, interval := s.settings.debounce } } } := by
  simp [sampleAsleep, hw, ha, hc, onPower, newCandidate, (Level.ne_other a).symm]

/-- A sleeping station's further sample of the other level counts, or wakes it. -/
theorem sampleAsleep_further {a : Level} {c : Candidate} (hw : s.settings.wakeOnSync = true) (ha : s.power.latched = some a)
    (hc : s.power.candidate = some c) : s.sampleAsleep (Level.other a) = if c.interval ≤ c.samples * 10 then s.wakeLocal .sync
      else { s with power := { s.power with candidate := some { c with samples := c.samples + 1 } } } := by
  simp [sampleAsleep, hw, ha, hc, onPower, Candidate.mature, (Level.ne_other a).symm]

theorem wakeSample_eq {a : Level} {c : Candidate} (hp : s.power.state = .sleep) (hw : s.settings.wakeOnSync = true)
    (ha : s.power.latched = some a) (hc : s.power.candidate = some c) (hm : c.interval ≤ c.samples * 10) :
    s.wakeSample = s.sample (Level.other a) := by
  have hother : (a != Level.other a) = true := bne_iff_ne.mpr (Level.ne_other a)
  simp [wakeSample, wakesAt, hp, hw, ha, hc, hm, Candidate.mature, hother]

end State

/-- Settles O56: each event's wake is `wakeUp`, and a sleeping station's samples go by `sampleAsleep`. -/
theorem wakesEnterTheRejoinRollCall : Obligations.WakesEnterTheRejoinRollCall := by
  refine ⟨fun source mask cause s hcalm => ⟨fun hno => ?_, fun hnames hdoze => ?_, fun hnames hsleep => ?_,
    fun a c hsleep hfitted hwakes ha hc hmature => ?_, fun m hsleep hstation hempty => ?_⟩,
    fun a s hsleep hfitted hwakes ha => ⟨?_, fun hc => ?_, fun c hc hshort => ?_, fun c hc hmature => ?_⟩⟩
  · refine (State.event_of_calm _ s hcalm).trans (congrArg _ ?_)
    unfold State.takeWake namesStation
    obtain hno | hactive := hno
    · rw [hno]
      rfl
    · rw [hactive]
      split <;> rfl
  · refine (State.event_of_calm _ s hcalm).trans (congrArg _ ?_)
    unfold State.takeWake namesStation
    rw [hnames, hdoze, if_pos rfl]
    simp [State.leaveDoze, hdoze, State.onPower]
  · refine ⟨s.wakeUp .frame (source.setWidth 8) (Msg.wake mask cause).body, (State.event_of_calm _ s hcalm).trans (congrArg _ ?_),
      State.wakeUp_woken .frame _ _ s, State.wakeUp_mounts _ _ _ s, State.wakeUp_control (q := []) .frame _ _ rfl (by decide) rfl⟩
    unfold State.takeWake namesStation
    rw [hnames, hsleep, if_pos rfl]
  · refine ⟨s.wakeLocal .sync, (State.event_of_calm _ s hcalm).trans (congrArg _ ?_), State.wakeUp_woken .sync _ _ s,
      State.wakeUp_mounts _ _ _ s, s.wakeLocal_sync_queued⟩
    rw [State.wakeSample_eq hsleep hwakes ha hc hmature, State.sample_asleep _ hfitted hsleep, State.sampleAsleep_further hwakes ha hc, if_pos hmature]
  · have hcard := State.wakeUp_mounts .card 15#8 [] (s.onCard fun c => { c with medium := some m })
    obtain ⟨hmounts, -⟩ := hcard
    obtain ⟨hmounted, hnotice⟩ := hmounts hstation (Option.some_ne_none m)
    refine ⟨(s.onCard fun c => { c with medium := some m }).wakeLocal .card, (State.event_of_calm _ s hcalm).trans (congrArg _ ?_),
      State.wakeUp_woken .card _ _ (s.onCard fun c => { c with medium := some m }), hmounted, hnotice,
      (s.onCard fun c => { c with medium := some m }).wakeLocal_card_queued⟩
    simp [State.insertCard, hstation, hempty, hsleep]
  · refine (State.event_of_calm _ s (.inl hsleep)).trans (congrArg _ ?_)
    rw [State.sample_asleep _ hfitted hsleep, State.sampleAsleep_latched hwakes ha]
  · refine (State.event_of_calm _ s (.inl hsleep)).trans (congrArg _ ?_)
    rw [State.sample_asleep _ hfitted hsleep, State.sampleAsleep_first hwakes ha hc]
  · refine (State.event_of_calm _ s (.inl hsleep)).trans (congrArg _ ?_)
    rw [State.sample_asleep _ hfitted hsleep, State.sampleAsleep_further hwakes ha hc, if_neg (Nat.not_le.mpr hshort)]
  · refine (State.event_of_calm _ s (.inl hsleep)).trans ((congrArg _ ?_).trans (State.event_of_calm _ s (.inl hsleep)).symm)
    exact (State.wakeSample_eq hsleep hwakes ha hc hmature).symm

end Sys2Proof.Machine
end

section
/-! PROOF. Frames as they are sent and as they are read (R1, R2, R193, R194). -/

namespace Sys2Proof.Machine

/-! ## Numbers and codes -/

theorem word_be {n k : Nat} (w : BitVec n) (hk : 256 ^ k = 2 ^ n) : BitVec.ofNat n (fromBE (beBytes k w.toNat)) = w := by
  rw [fromBE_beBytes, hk, Nat.mod_eq_of_lt w.isLt, BitVec.ofNat_toNat, BitVec.setWidth_eq]

theorem word16_be (w : Word16) : BitVec.ofNat 16 (fromBE (beBytes 2 w.toNat)) = w := word_be w rfl

theorem word32_be (w : Word32) : BitVec.ofNat 32 (fromBE (beBytes 4 w.toNat)) = w := word_be w rfl

theorem word64_be (w : BitVec 64) : BitVec.ofNat 64 (fromBE (beBytes 8 w.toNat)) = w := word_be w rfl

theorem flagOf_flagByte (b : Bool) : flagOf? (flagByte b) = some b := by cases b <;> rfl

theorem socketOf_socketCode (k : Socket) : socketOf? (socketCode k) = some k := by cases k <;> rfl

theorem refuseReasonOf_code (r : RefuseReason) : refuseReasonOf? (refuseReasonCode r) = some r := by cases r <;> rfl

theorem policyOf_code (p : Policy) : policyOf? (policyCode p) = some p := by cases p <;> rfl

theorem readKindOf_code (k : ReadKind) : readKindOf? (readKindCode k) = some k := by cases k <;> rfl

theorem placeReasonOf_code (r : PlaceReason) : placeReasonOf? (placeReasonCode r) = some r := by cases r <;> rfl

theorem unplaceReasonOf_code (r : UnplaceReason) : unplaceReasonOf? (unplaceReasonCode r) = some r := by cases r <;> rfl

theorem redoReasonOf_code (r : RedoReason) : redoReasonOf? (redoReasonCode r) = some r := by cases r <;> rfl

theorem syncOutcomeOf_code (o : SyncOutcome) : syncOutcomeOf? (syncOutcomeCode o) = some o := by cases o <;> rfl

theorem wakeFrameCauseOf_code (c : WakeFrameCause) : wakeFrameCauseOf? (wakeFrameCauseCode c) = some c := by cases c <;> rfl

theorem directionOf_code (d : Direction) : directionOf? (directionCode d) = some d := by cases d <;> rfl

theorem fittedOf_byte (f : Fitted) : fittedOf (fittedByte f) = f := by
  obtain ⟨card, release, sync⟩ := f
  cases card <;> cases release <;> cases sync <;> rfl

theorem flagsOf_byte (f : OutcomeFlags) : flagsOf (flagsByte f false) = f := by
  obtain ⟨clipped, floored, noDark, skewed, seamMissing, defectOverflow, limitReached⟩ := f
  revert clipped floored noDark skewed seamMissing defectOverflow limitReached
  decide

theorem wordsOf_bytes (band : List Word16) : wordsOf (band.flatMap fun w => beBytes 2 w.toNat) = band := by
  induction band with
  | nil => rfl
  | cons w ws ih =>
    change (BitVec.ofNat 8 (w.toNat / 256 ^ 1) ++ BitVec.ofNat 8 (w.toNat / 256 ^ 0)) :: wordsOf (ws.flatMap fun w => beBytes 2 w.toNat) = w :: ws
    rw [ih]
    have hw := w.isLt
    refine congrArg (· :: ws) (BitVec.eq_of_toNat_eq ?_)
    rw [BitVec.toNat_append, BitVec.toNat_ofNat, BitVec.toNat_ofNat, ← Nat.shiftLeft_add_eq_or_of_lt (Nat.mod_lt _ (by decide)), Nat.shiftLeft_eq]
    omega

/-! ## Bodies read back -/

theorem segment_flags (o c : Bool) : (BitVec.ofNat 8 (o.toNat + 2 * c.toNat)).getLsbD 0 = o ∧ (BitVec.ofNat 8 (o.toNat + 2 * c.toNat)).getLsbD 1 = c := by
  cases o <;> cases c <;> exact ⟨rfl, rfl⟩

theorem parseSegment_bytes (b : SegmentBody) : parseSegment b.bytes = some b := by
  obtain ⟨shot, tile, offset, sum, openFlag, close, payload⟩ := b
  cases close with
  | none =>
    obtain ⟨hopen, hclose⟩ := segment_flags openFlag false
    change (if (BitVec.ofNat 8 (openFlag.toNat + 2 * false.toNat)).getLsbD 1 then _ else
      some ({
        shot := BitVec.ofNat 32 (fromBE (beBytes 4 shot.toNat)), tile := tile
        offset := BitVec.ofNat 32 (fromBE (beBytes 4 offset.toNat)), sum := BitVec.ofNat 16 (fromBE (beBytes 2 sum.toNat))
        openFlag := (BitVec.ofNat 8 (openFlag.toNat + 2 * false.toNat)).getLsbD 0, close := none, payload := payload } : SegmentBody)) = _
    rw [hopen, hclose, if_neg (by decide), word32_be, word32_be, word16_be]
  | some c =>
    obtain ⟨tileSum, flags, outcome, skew⟩ := c
    obtain ⟨hopen, hclose⟩ := segment_flags openFlag true
    change (if (BitVec.ofNat 8 (openFlag.toNat + 2 * true.toNat)).getLsbD 1 then (syncOutcomeOf? (syncOutcomeCode outcome)).map fun o => ({
        shot := BitVec.ofNat 32 (fromBE (beBytes 4 shot.toNat)), tile := tile
        offset := BitVec.ofNat 32 (fromBE (beBytes 4 offset.toNat)), sum := BitVec.ofNat 16 (fromBE (beBytes 2 sum.toNat))
        openFlag := (BitVec.ofNat 8 (openFlag.toNat + 2 * true.toNat)).getLsbD 0
        close := some {
          tileSum := BitVec.ofNat 16 (fromBE (beBytes 2 tileSum.toNat)), flags := flagsOf (flagsByte flags false), outcome := o
          skew := BitVec.ofNat 32 (fromBE (beBytes 4 skew.toNat)) }
        payload := payload } : SegmentBody) else _) = _
    rw [hopen, hclose, if_pos rfl, word32_be, word32_be, word16_be, word16_be, word32_be, flagsOf_byte, syncOutcomeOf_code]
    rfl

theorem parsePlace_body (n : Shot) (k : Socket) (o : PlaceOutcome) : parsePlace (Msg.place n k o).body = some o := by
  cases o with
  | reserved r b =>
    change some (PlaceOutcome.reserved (BitVec.ofNat 16 (fromBE (beBytes 2 r.toNat))) (BitVec.ofNat 32 (fromBE (beBytes 4 b.toNat)))) = _
    rw [word16_be, word32_be]
  | refused r =>
    change (placeReasonOf? (placeReasonCode r)).map PlaceOutcome.refused = _
    rw [placeReasonOf_code]
    rfl

/-- The shot number that stands first in a body. -/
theorem parse_place (n : Shot) (k : Socket) (o : PlaceOutcome) : Msg.parse 0x20#8 (Msg.place n k o).body = some (.place n k o) := by
  have hhead : (Msg.place n k o).body.getD 4 0#8 = socketCode k ∧
      BitVec.ofNat 32 (field (Msg.place n k o).body 0 4) = BitVec.ofNat 32 (fromBE (beBytes 4 n.toNat)) := by
    cases o <;> exact ⟨rfl, rfl⟩
  change ((socketOf? ((Msg.place n k o).body.getD 4 0#8)).bind fun k' => (parsePlace (Msg.place n k o).body).map fun o' =>
    Msg.place (BitVec.ofNat 32 (field (Msg.place n k o).body 0 4)) k' o') = _
  rw [hhead.1, hhead.2, word32_be, parsePlace_body, socketOf_socketCode]
  rfl

/-- A frame that a station may take reads back as it was sent. -/
theorem parse_body (m : Msg) (h : takenBody m = true) : Msg.parse m.kind m.body = some m := by
  cases m with
  | roll s u f n r =>
    change (flagOf? (flagByte r)).map (fun r => Msg.roll s (BitVec.ofNat 32 (fromBE (beBytes 4 u.toNat))) (fittedOf (fittedByte f))
      (BitVec.ofNat 32 (fromBE (beBytes 4 n.toNat))) r) = _
    rw [flagOf_flagByte, word32_be, word32_be, fittedOf_byte]
    rfl
  | mark t =>
    change some (Msg.mark (BitVec.ofNat 64 (fromBE (beBytes 8 t.toNat)))) = _
    rw [word64_be]
  | openShot n t =>
    change some (Msg.openShot (BitVec.ofNat 32 (fromBE (beBytes 4 n.toNat))) (BitVec.ofNat 64 (fromBE (beBytes 8 t.toNat)))) = _
    rw [word32_be, word64_be]
  | closeShot n t l =>
    change (flagOf? (flagByte l)).map (Msg.closeShot (BitVec.ofNat 32 (fromBE (beBytes 4 n.toNat))) (BitVec.ofNat 64 (fromBE (beBytes 8 t.toNat)))) = _
    rw [flagOf_flagByte, word32_be, word64_be]
    rfl
  | refuse n r p =>
    change ((refuseReasonOf? (refuseReasonCode r)).bind fun r => (policyOf? (policyCode p)).map fun p =>
      Msg.refuse (BitVec.ofNat 32 (fromBE (beBytes 4 n.toNat))) r p) = _
    rw [refuseReasonOf_code, policyOf_code, word32_be]
    rfl
  | readDone n k d =>
    change ((readKindOf? (readKindCode k)).bind fun k => (flagOf? (flagByte d)).map fun d =>
      Msg.readDone (BitVec.ofNat 32 (fromBE (beBytes 4 n.toNat))) k d) = _
    rw [readKindOf_code, flagOf_flagByte, word32_be]
    rfl
  | place n k o => exact parse_place n k o
  | unplace n k r =>
    change ((socketOf? (socketCode k)).bind fun k => (unplaceReasonOf? (unplaceReasonCode r)).map fun r =>
      Msg.unplace (BitVec.ofNat 32 (fromBE (beBytes 4 n.toNat))) k r) = _
    rw [socketOf_socketCode, unplaceReasonOf_code, word32_be]
    rfl
  | claim k n c =>
    change some (Msg.claim k (BitVec.ofNat 32 (fromBE (beBytes 4 n.toNat))) c) = _
    rw [word32_be]
  | grant m k n c r =>
    change (flagOf? (flagByte r)).map (fun r => Msg.grant m k (BitVec.ofNat 32 (fromBE (beBytes 4 n.toNat))) c r) = _
    rw [flagOf_flagByte, word32_be]
    rfl
  | redo n m k r =>
    change ((socketOf? (socketCode k)).bind fun k => (redoReasonOf? (redoReasonCode r)).map fun r =>
      Msg.redo (BitVec.ofNat 32 (fromBE (beBytes 4 n.toNat))) m k r) = _
    rw [socketOf_socketCode, redoReasonOf_code, word32_be]
    rfl
  | commit n k r f =>
    change ((socketOf? (socketCode k)).map fun k => Msg.commit (BitVec.ofNat 32 (fromBE (beBytes 4 n.toNat))) k
      (BitVec.ofNat 16 (fromBE (beBytes 2 r.toNat))) (BitVec.ofNat 16 (fromBE (beBytes 2 f.toNat)))) = _
    rw [socketOf_socketCode, word32_be, word16_be, word16_be]
    rfl
  | request tag code args => rfl
  | answer tag code res reason data => cases h
  | notice level count data => cases h
  | restart r =>
    change (flagOf? (flagByte r)).map Msg.restart = _
    rw [flagOf_flagByte]
    rfl
  | wake m c =>
    change (wakeFrameCauseOf? (wakeFrameCauseCode c)).map (fun c => Msg.wake m c) = _
    rw [wakeFrameCauseOf_code]
    rfl
  | seam n d band =>
    change ((directionOf? (directionCode d)).map fun d => Msg.seam (BitVec.ofNat 32 (fromBE (beBytes 4 n.toNat))) d
      (wordsOf (band.flatMap fun w => beBytes 2 w.toNat))) = _
    rw [directionOf_code, word32_be, wordsOf_bytes]
    rfl
  | segment b =>
    change (parseSegment b.bytes).map Msg.segment = _
    rw [parseSegment_bytes]
    rfl

/-! ## What a receiver tests -/

theorem band_length (band : List Word16) : (band.flatMap fun w => beBytes 2 w.toNat).length = 2 * band.length := by
  induction band with
  | nil => rfl
  | cons w ws ih =>
    rw [List.flatMap_cons, List.length_append, ih, List.length_cons, beBytes_length]
    omega

theorem segment_length (b : SegmentBody) : b.bytes.length = 16 + b.payload.length + (if b.close.isSome then 8 else 0) := by
  obtain ⟨shot, tile, offset, sum, openFlag, close, payload⟩ := b
  cases close <;> simp [SegmentBody.bytes, beBytes_length] <;> omega

theorem segment_payloadField (b : SegmentBody) : field b.bytes 10 4 = b.payload.length % 256 ^ 4 := by
  rw [← fromBE_beBytes]
  obtain ⟨shot, tile, offset, sum, openFlag, close, payload⟩ := b
  cases close <;> rfl

theorem segment_closeBit (b : SegmentBody) : (b.bytes.getD 5 0#8).getLsbD 1 = b.close.isSome := by
  obtain ⟨shot, tile, offset, sum, openFlag, close, payload⟩ := b
  cases close with
  | none => exact (segment_flags openFlag false).2
  | some c => exact (segment_flags openFlag true).2

/-- The body of a frame that a station may take has a length of its kind, and none is longer than a Segment's. -/
theorem body_length (m : Msg) (h : takenBody m = true) : lengthAllowed m.kind m.body = true ∧ m.body.length ≤ 65560 := by
  cases m with
  | roll | mark | openShot | closeShot | refuse | readDone | unplace | claim | grant | redo | commit | restart | wake =>
    exact ⟨rfl, Nat.le_of_ble_eq_true rfl⟩
  | place n k o => cases o <;> exact ⟨rfl, Nat.le_of_ble_eq_true rfl⟩
  | answer tag code res reason data => cases h
  | notice level count data => cases h
  | request tag code args =>
    have hlen : args.length ≤ 8 := of_decide_eq_true h
    have hbody : (Msg.request tag code args).body.length = args.length + 2 := rfl
    refine ⟨?_, by omega⟩
    change (decide (2 ≤ (Msg.request tag code args).body.length) && decide ((Msg.request tag code args).body.length ≤ 10)) = true
    rw [hbody, Bool.and_eq_true, decide_eq_true_iff, decide_eq_true_iff]
    omega
  | seam n d band =>
    have hband : band.length % 64 = 0 ∧ 4096 ≤ band.length ∧ band.length ≤ 32768 := by simpa [takenBody, bandLengthOk, and_assoc] using h
    have hbody : (Msg.seam n d band).body.length = 5 + 2 * band.length := by
      rw [← band_length]
      simp [Msg.body, beBytes_length]
      omega
    refine ⟨?_, by omega⟩
    change ((Msg.seam n d band).body.length % 128 == 5 && decide (8197 ≤ (Msg.seam n d band).body.length) &&
      decide ((Msg.seam n d band).body.length ≤ 65541)) = true
    rw [hbody, Bool.and_eq_true, Bool.and_eq_true, beq_iff_eq, decide_eq_true_iff, decide_eq_true_iff]
    omega
  | segment b =>
    have hpayload : 1 ≤ b.payload.length ∧ b.payload.length ≤ 65536 := by simpa [takenBody, payloadLengthOk] using h
    have hfield : field b.bytes 10 4 = b.payload.length := by
      rw [segment_payloadField]
      exact Nat.mod_eq_of_lt (by omega)
    have hlen := segment_length b
    have hle : b.bytes.length ≤ 65560 := by
      rw [hlen]
      split <;> omega
    refine ⟨?_, hle⟩
    change (decide (16 ≤ b.bytes.length) && decide (1 ≤ field b.bytes 10 4) && decide (field b.bytes 10 4 ≤ 65536) &&
      b.bytes.length == 16 + field b.bytes 10 4 + (if (b.bytes.getD 5 0#8).getLsbD 1 then 8 else 0)) = true
    rw [hfield, segment_closeBit, hlen]
    simp only [Bool.and_eq_true, decide_eq_true_iff, beq_iff_eq]
    exact ⟨⟨⟨by omega, hpayload.1⟩, hpayload.2⟩, trivial⟩

theorem recorded_ne_zero (w : Word16) : recorded w ≠ 0#16 := by
  unfold recorded
  split
  · decide
  next h => exact h

/-- Settles O57, kind by kind. -/
theorem framesReadBackAsSent : Obligations.FramesReadBackAsSent := by
  intro source dst m hsource h
  obtain ⟨hallowed, hbound⟩ := body_length m h
  have hlen : (BitVec.ofNat 24 m.body.length).toNat = m.body.length := by
    rw [BitVec.toNat_ofNat]
    exact Nat.mod_eq_of_lt (by omega)
  refine ⟨parse_body m h, ?_, ?_⟩
  · have hmax : ¬m.body.length > Config.maxBodyLength := by
      unfold Config.maxBodyLength
      omega
    have hsum := recorded_ne_zero (sumBytes (summedBytes dst m.kind (BitVec.ofNat 24 m.body.length) m.body))
    simp [WireFrame.faulty, Frame.wire, hlen, hmax, frameSum, hsum]
  · have hclass : kindClass? m.kind = some m.cls := by cases m <;> rfl
    have hsix : (source == 6#3) = false := by simpa using hsource
    simp [WireFrame.malformed, Frame.wire, hclass, hsix, hallowed]

end Sys2Proof.Machine
end

section
/-! PROOF. Claims, grants and the waiting list (R159-R161). -/

namespace Sys2Proof.Machine

namespace State

variable {s : State} {q : Claim}

/-- The first row of R160 turns a claim away exactly where it does not stand. -/
theorem claimUseless_eq_false (q : Claim) (s : State) : s.card.claimUseless q = false ↔ s.claimStands q.member q.socket q.shot q.count := by
  have hsocket : (s.card.letter.map socketCode != some q.socket) = false ↔ ∃ k, s.card.letter = some k ∧ socketCode k = q.socket := by
    rw [bne_eq_false_iff_eq, Option.map_eq_some_iff]
  have hentry : (match s.card.placed? q.shot with
      | none => true
      | some p => p.phase == .committing || (match p.progress? q.member with
        | none => true
        | some m => m.closed)) = false ↔
      ∃ p m, s.card.placed? q.shot = some p ∧ p.phase = .filling ∧ p.progress? q.member = some m ∧ m.closed = false := by
    cases s.card.placed? q.shot with
    | none => simp
    | some p =>
      cases hp : p.phase <;> cases hm : p.progress? q.member <;> simp [hp, hm]
  unfold Card.claimUseless claimStands
  rw [Bool.or_eq_false_iff, Bool.or_eq_false_iff, Bool.or_eq_false_iff, hsocket, decide_eq_false_iff_not, decide_eq_false_iff_not, and_assoc,
    and_assoc, Nat.not_lt, Nat.not_lt]
  exact and_congr_right fun _ => and_congr_right fun _ => and_congr_right fun _ => hentry

/-- A claim that does not stand is answered Grant 0. -/
theorem grantClaim_refused (h : ¬s.claimStands q.member q.socket q.shot q.count) : s.grantClaim q =
    { s with link := s.linkAfter (nodeDst q.member) (.grant (q.member.setWidth 8) q.socket q.shot 0#8 true) } := by
  rw [grantClaim, if_pos (by rw [← Bool.not_eq_false, claimUseless_eq_false]; exact h)]
  rfl

/-- A claim that stands is granted from the free count. -/
theorem grantClaim_granted (h : s.claimStands q.member q.socket q.shot q.count) (hfree : 1 ≤ s.card.free) : s.grantClaim q =
    { s with
      card := { s.card with grants := s.card.grants.filter (·.member != q.member) ++
        [{ member := q.member, shot := q.shot, unfilled := min q.count s.card.free }] }
      link := s.linkAfter (nodeDst q.member)
        (.grant (q.member.setWidth 8) q.socket q.shot (BitVec.ofNat 8 (min q.count s.card.free)) false) } := by
  have hcount : 1 ≤ q.count := h.2.1
  have hflag : (min q.count s.card.free == 0) = false := by
    rw [beq_eq_false_iff_ne]
    omega
  rw [grantClaim, (claimUseless_eq_false q s).mpr h, if_neg (by decide), sendGrant, hflag]
  rfl

/-! ## The waiting list -/

theorem grantClaim_waiting (q : Claim) (s : State) : (s.grantClaim q).card.waiting = s.card.waiting := by
  unfold grantClaim
  split <;> rfl

/-- The head of the waiting list is served while a buffer is free. -/
theorem serve_head {rest : List Claim} (hw : s.card.waiting = q :: rest) (hfree : 1 ≤ s.card.free) :
    s.serve = ((s.onCard fun c => { c with waiting := rest }).grantClaim q).serve := by
  have hwaiting : ((s.onCard fun c => { c with waiting := rest }).grantClaim q).card.waiting = rest := grantClaim_waiting q _
  rw [serve, hw, serveFrom, if_pos hfree, serve, hwaiting]

theorem serve_full (hfree : s.card.free = 0) : s.serve = s := by
  unfold serve
  cases s.card.waiting with
  | nil => rfl
  | cons q rest => rw [serveFrom, if_neg (by omega)]

theorem updFirst_head {α : Type} (p : α → Bool) (f : α → α) (before after : List α) (a : α) (hb : ∀ b ∈ before, p b = false) (ha : p a = true) :
    updFirst p f (before ++ a :: after) = before ++ f a :: after := by
  induction before with
  | nil => simp [updFirst, ha]
  | cons b bs ih =>
    have hb' := hb b (by simp)
    simp only [List.cons_append, updFirst, hb', Bool.false_eq_true, if_false]
    rw [ih fun c hc => hb c (List.mem_cons_of_mem _ hc)]

/-- A member's claim that waits joins the tail of the list. -/
theorem wait_joins {c : Card} (h : ∀ w ∈ c.waiting, w.member ≠ q.member) : c.wait q = { c with waiting := c.waiting ++ [q] } := by
  have hnone : c.waiting.any (·.member == q.member) = false := by
    rw [List.any_eq_false]
    intro w hw
    simpa using h w hw
  rw [Card.wait, hnone, if_neg (by decide)]

/-- A member's claim takes the place of the one that it has waiting. -/
theorem wait_replaces {c : Card} {before after : List Claim} {w : Claim} (hw : c.waiting = before ++ w :: after) (hm : w.member = q.member)
    (hb : ∀ b ∈ before, b.member ≠ q.member) : c.wait q = { c with waiting := before ++ q :: after } := by
  have hany : c.waiting.any (·.member == q.member) = true := by
    rw [List.any_eq_true]
    exact ⟨w, by simp [hw], by simpa using hm⟩
  rw [Card.wait, hany, if_pos rfl, hw, updFirst_head _ _ _ _ _ (fun b hb' => by simpa using hb b hb') (by simpa using hm)]

/-! ## A Claim taken -/

theorem returnGrants_none (m : Node) (h : ∀ g, s.card.grant? m = some g → g.unfilled = 0) : s.returnGrants m = s := by
  unfold returnGrants
  split
  · rfl
  next g hg => rw [if_neg (by rw [h g hg]; decide)]

theorem returnGrants_some {m : Node} {g : GrantRecord} (hg : s.card.grant? m = some g) (h : 0 < g.unfilled) :
    s.returnGrants m = State.serve { s with card := s.card.setGrant { g with unfilled := 0 } } := by
  unfold returnGrants
  rw [hg]
  exact if_pos h

/-- CLAIM_TAKEN at a card station, by what the return of the member's unfilled grants leaves. -/
theorem exec_claimTaken {source : Node} {socket : Byte} {n : Shot} {count : Byte} {u : State} (ht : s.takesFrames) (hcalm : s.calm)
    (hstation : s.cardStation = true) (hu : s.returnGrants source = u) : exec (.claimTaken source socket n count) s = .next
      (if u.card.claimUseless { member := source, socket := socket, shot := n, count := count.toNat } || decide (1 ≤ u.card.free) then
        u.grantClaim { member := source, socket := socket, shot := n, count := count.toNat }
      else u.onCard (Card.wait { member := source, socket := socket, shot := n, count := count.toNat })) := by
  refine (State.event_of_calm _ s hcalm).trans (congrArg _ ?_)
  rw [takeClaim, hstation]
  refine (State.take_takesFrames _ ht (by decide)).trans ?_
  rw [← hu]
  rfl

end State

/-- Settles O43: `serve` by its head, a Claim by whether it stands and whether a buffer is free. -/
theorem claimIsGrantedOrWaits : Obligations.ClaimIsGrantedOrWaits := by
  refine ⟨fun s => ⟨fun h => ?_, fun q rest hw hfree => ⟨fun hno => ?_, fun hstands => ?_⟩⟩, fun source socket n count s u ht hcalm hstation hu => ?_⟩
  · obtain hw | hfull := h
    · exact State.serve_nothing s hw
    · exact State.serve_full hfull
  · rw [State.serve_head hw hfree, State.grantClaim_refused (s := s.onCard fun c => { c with waiting := rest }) hno]
    rfl
  · rw [State.serve_head hw hfree, State.grantClaim_granted (s := s.onCard fun c => { c with waiting := rest }) hstands hfree]
    rfl
  · have hreturned : s.returnGrants source = u := by
      obtain ⟨hnone, rfl⟩ | ⟨g, hg, hpos, rfl⟩ := hu
      · exact State.returnGrants_none source hnone
      · exact State.returnGrants_some hg hpos
    rw [State.exec_claimTaken ht hcalm hstation hreturned]
    refine ⟨fun hno => ?_, fun hstands hfree => ?_, fun hstands hfull => ?_⟩
    · have huseless : u.card.claimUseless { member := source, socket := socket, shot := n, count := count.toNat } = true := by
        rw [← Bool.not_eq_false, State.claimUseless_eq_false]
        exact hno
      rw [huseless, Bool.true_or, if_pos rfl, State.grantClaim_refused hno]
    · rw [decide_eq_true hfree, Bool.or_true, if_pos rfl, State.grantClaim_granted hstands hfree]
    · have huseful := (State.claimUseless_eq_false { member := source, socket := socket, shot := n, count := count.toNat } u).mpr hstands
      rw [huseful, decide_eq_false (by omega), Bool.or_false, if_neg (by decide)]
      refine ⟨fun hnew => ?_, fun before q after hw hm hb => ?_⟩
      · rw [State.onCard, State.wait_joins hnew]
      · rw [State.onCard, State.wait_replaces hw hm hb]

end Sys2Proof.Machine
end

section
/-! PROOF. The end of a frame (R7-R12): what is delivered, what is dropped, and what the sender's queues keep. -/

namespace Sys2Proof.Machine

namespace State

variable {s u : State} {f : WireFrame} {others : Bool}

/-! ## What an event of the link leaves for the others -/

theorem calm_onLink (g : Link → Link) (h : s.calm) : (s.onLink g).calm := h

theorem exec_frameEnd (f : WireFrame) (others : Bool) (h : s.calm) : exec (.frameEnd f others) s = .next (s.frameEnds f others) :=
  event_of_calm _ s h

/-! ## The branches of a frame's end -/

/-- A frame that was not heard from its start only frees the link. -/
theorem frameEnds_unheard (h : s.link.phase.listening = false) : s.frameEnds f others = s.onLink Link.free := by
  rw [frameEnds, h]
  rfl

theorem frameEnds_asleep (h : s.link.phase.listening = true) (hp : s.power.state = .sleep) :
    s.frameEnds f others = s.endFrameAsleep f others := by
  rw [frameEnds, h, if_pos hp]
  rfl

theorem frameEnds_heard (h : s.link.phase = .hearing true) (hp : s.power.state ≠ .sleep) :
    s.frameEnds f others = s.judgeFrame f others := by
  rw [frameEnds, h, if_neg hp, endFrame, h]
  rfl

theorem frameEnds_sent {src : SendSource} {w : Bool} (h : s.link.phase = .sending src w) (hp : s.power.state ≠ .sleep) :
    s.frameEnds f others = (s.judgeFrame f others).sleepTest := by
  rw [frameEnds, h, if_neg hp, endFrame, h]
  rfl

/-- A faulty frame, one that its sender withdrew, and one that another station spoils, is discarded. -/
theorem judgeFrame_spoiled (h : f.faulty = true ∨ others = true ∨ s.link.phase.withdrawn = true) : s.judgeFrame f others =
    ((s.doIf (f.faulty || s.link.phase.withdrawn) (State.onLink Link.driveSpoil)).onLink Link.discardFrame).onLink Link.free := by
  have hspoiled : ((f.faulty || s.link.phase.withdrawn) || others) = true := by
    obtain h | h | h := h <;> simp [h]
  rw [judgeFrame]
  exact if_pos hspoiled

/-- A frame that no station finds a fault in goes out, and is delivered unless it is malformed. -/
theorem judgeFrame_good (hf : f.faulty = false) (hw : s.link.phase.withdrawn = false) : s.judgeFrame f false =
    if f.malformed then (s.frameSent.onLink Link.free).onLink fun l => { l with malformed := countLink l.malformed }
    else (s.frameSent.onLink Link.free).deliver f (s.link.frameStart.getD 0#64) := by
  have hgood : ((f.faulty || s.link.phase.withdrawn) || false) = false := by simp [hf, hw]
  rw [judgeFrame]
  exact if_neg (by rw [hgood]; decide)

theorem frameSent_heard {b : Bool} (h : s.link.phase = .hearing b) : s.frameSent = s := by rw [frameSent, h]

/-- The station's own frame out is what the words of the statements say. -/
theorem ownFrameOut.frameSent (h : s.ownFrameOut u) : s.frameSent.onLink Link.free = u := by
  obtain ⟨hp, rfl⟩ | ⟨hp, rfl⟩ | ⟨b, hp, hb, rfl⟩ := h
  · rw [State.frameSent, hp]
    rfl
  · rw [State.frameSent, hp]
    rfl
  · rw [State.frameSent, hp]
    dsimp only
    rw [hb]
    rfl

theorem ownFrameOut.phase (h : s.ownFrameOut u) : ∃ src, s.link.phase = .sending src false := by
  obtain ⟨hp, -⟩ | ⟨hp, -⟩ | ⟨b, hp, -⟩ := h
  · exact ⟨_, hp⟩
  · exact ⟨_, hp⟩
  · exact ⟨_, hp⟩

theorem ownFrameOut.rest (h : s.ownFrameOut u) : u.member = s.member ∧ u.clock = s.clock ∧ u.power = s.power := by
  obtain ⟨-, rfl⟩ | ⟨-, rfl⟩ | ⟨b, -, -, rfl⟩ := h
  · exact ⟨rfl, rfl, rfl⟩
  · exact ⟨rfl, rfl, rfl⟩
  · simp

theorem ownFrameOut.calm (h : s.ownFrameOut u) (hc : s.calm) : u.calm := by
  obtain ⟨-, hclock, hpower⟩ := h.rest
  refine calm_of_due hc (fun id => ?_) hpower
  rw [timer, timer, hclock]

/-- A good frame at its sender: it goes out, and the sleep test follows what it does there. -/
theorem ownFrameOut.frameEnds (h : s.ownFrameOut u) (hp : s.power.state ≠ .sleep) (hf : f.faulty = false) : s.frameEnds f false =
    (if f.malformed then u.onLink fun l => { l with malformed := countLink l.malformed }
     else u.deliver f (s.link.frameStart.getD 0#64)).sleepTest := by
  obtain ⟨src, hphase⟩ := h.phase
  rw [frameEnds_sent hphase hp, judgeFrame_good hf (by rw [hphase]; rfl), h.frameSent]

/-! ## Delivery -/

theorem addressed_false (hdst : f.dst ≠ nodeDst s.self ∨ s.self = 6#3 ∨ s.self = 7#3) (hall : f.dst ≠ 15#4)
    (hkind : f.kind ∉ [0x20#8, 0x21#8, 0x24#8, 0x25#8, 0x40#8, 0x41#8]) : s.addressed f = false := by
  have hnumber : (!s.strapInvalid && f.dst == nodeDst s.self) = false := by
    obtain h | h | h := hdst
    · simp [h]
    · simp [strapInvalid, h]
    · simp [strapInvalid, h]
  have hown : deliveredEverywhere f.kind = false := by
    simpa [deliveredEverywhere, and_assoc] using hkind
  simp [addressed, hnumber, hall, hown]

theorem addressed_true (h : (f.dst = nodeDst s.self ∧ s.self ≠ 6#3 ∧ s.self ≠ 7#3) ∨ f.dst = 15#4 ∨
    f.kind ∈ [0x20#8, 0x21#8, 0x24#8, 0x25#8, 0x40#8, 0x41#8]) : s.addressed f = true := by
  obtain ⟨hdst, h6, h7⟩ | h | h := h
  · simp [addressed, strapInvalid, hdst, h6, h7]
  · simp [addressed, h]
  · have hown : deliveredEverywhere f.kind = true := by simpa [deliveredEverywhere, or_assoc] using h
    simp [addressed, hown]

theorem deliver_elsewhere (t : Time) (h : s.addressed f = false) : s.deliver f t = s := by
  rw [deliver, h]
  rfl

theorem deliver_read {m : Msg} (t : Time) (h : s.addressed f = true) (hm : Msg.parse f.kind f.body = some m) :
    s.deliver f t = s.deliverMsg f.src (f.dst == 15#4) t m := by
  rw [deliver, if_pos h, hm]

theorem deliver_unlisted (t : Time) (hm : Msg.parse f.kind f.body = none) (h : s.deliverUnlisted f.kind = s) : s.deliver f t = s := by
  rw [deliver, hm]
  exact (congrArg (fun x => if s.addressed f then x else s) h).trans (ite_self s)

/-- A frame with nothing in it for its block, where no roll call tests it, changes nothing. -/
theorem take_id (k : Taken) (h : ¬(s.member.state = .rolling ∧ s.member.rejoin = false)) : s.take k id = s := by
  have hno : s.testsFrames = false := by simpa [testsFrames] using h
  rw [take, hno]
  split
  · rfl
  · rw [if_neg (by decide), takeSettled]
    split
    · rfl
    · rfl
    · exact ite_self s
    · exact ite_self s
    · exact ite_self s

theorem deliver_noBlock (t : Time) (h : reachesNoBlock f s) : s.deliver f t = s := by
  obtain h | h | ⟨h, hsrc⟩ | ⟨h, hno⟩ := h
  · exact deliver_unlisted t (by rw [h]; rfl) (by rw [h]; rfl)
  · exact deliver_unlisted t (by rw [h]; rfl) (by rw [h]; rfl)
  · have hm : Msg.parse f.kind f.body = some (.request (f.body.getD 0 0#8) (f.body.getD 1 0#8) (f.body.drop 2)) := by rw [h]; rfl
    cases ha : s.addressed f with
    | false => exact deliver_elsewhere t ha
    | true => exact (deliver_read t ha hm).trans (if_neg hsrc)
  · refine deliver_unlisted t h ?_
    rw [deliverUnlisted, take_id _ hno]
    exact ite_self s

theorem reachesNoBlock_congr (hm : u.member = s.member) : reachesNoBlock f u ↔ reachesNoBlock f s := by
  rw [reachesNoBlock, reachesNoBlock, hm]

/-- What no block of the station takes leaves the station as it was. -/
theorem deliver_untaken (t : Time) (h : ((f.dst ≠ nodeDst s.self ∨ s.self = 6#3 ∨ s.self = 7#3) ∧ f.dst ≠ 15#4 ∧
    f.kind ∉ [0x20#8, 0x21#8, 0x24#8, 0x25#8, 0x40#8, 0x41#8]) ∨ reachesNoBlock f s) : s.deliver f t = s := by
  obtain ⟨hdst, hall, hkind⟩ | h := h
  · exact deliver_elsewhere t (addressed_false hdst hall hkind)
  · exact deliver_noBlock t h

/-! ## The taken command -/

/-- A Request of the panel processor is its command. -/
theorem takeRequest_panel (toAll : Bool) (tag code : Byte) (args : List Byte) (s : State) :
    s.takeRequest panelNode toAll tag code args = s.take .request
      (State.settle { tag := tag, toAll := toAll } code (Req.read code args).readable (Req.action toAll (Req.read code args))) := by
  rw [takeRequest, if_pos rfl]
  cases Req.read code args <;> rfl

/-- The command of a frame does what its delivery does. -/
theorem exec_takenAs {source : Node} {toAll : Bool} {t : Time} {m : Msg} {c : Instr} (h : takenAs source toAll t m = some c) (hc : s.calm) :
    exec c s = .next (s.deliverMsg source toAll t m) := by
  cases m with
  | request tag code args =>
    rw [takenAs] at h
    split at h
    next hpanel =>
      cases h
      rw [exec_command, event_of_calm _ s hc, deliverMsg, hpanel, takeRequest_panel]
    · cases h
  | answer | notice => cases h
  | roll | mark | openShot | closeShot | refuse | readDone | place | unplace | claim | grant | redo | commit | restart | wake | seam
      | segment =>
    cases h
    exact event_of_calm _ s hc

end State

/-! ## The fault check -/

theorem WireFrame.faulty_iff (f : WireFrame) : f.faulty = true ↔
    f.body.length ≠ f.len.toNat ∨ 65600 < f.len.toNat ∨ f.sum = none ∨ f.sum = some 0#16
      ∨ (∃ w, f.sum = some w ∧ w ≠ frameSum f.dst f.kind f.len f.body) := by
  unfold WireFrame.faulty
  cases f.sum with
  | none => simp
  | some w => simp [or_assoc, Config.maxBodyLength]

/-- Settles O8: the branches of `frameEnds`, and `deliver` on what no block takes. -/
theorem badFramesReachNoBlock : Obligations.BadFramesReachNoBlock := by
  refine ⟨fun f others s hc => ⟨fun h => ?_, fun hphase hp => ?_, fun hphase hp hbad => ?_⟩, fun f s u hc hp hout hf => ?_,
    WireFrame.faulty_iff⟩
  · have hunheard : s.link.phase.listening = false := by
      obtain h | h := h <;> rw [h] <;> rfl
    rw [State.exec_frameEnd f others hc, State.frameEnds_unheard hunheard]
    rfl
  · have hlistens : s.link.phase.withdrawn = false := by rw [hphase]; rfl
    have hdiscard : ∀ l : Link, l.phase = .hearing true → l.discardFrame = l := fun l hl => by rw [Link.discardFrame, hl]
    have hgood : f.faulty = false → f.malformed = false → exec (.frameEnd f false) s =
        .next (({ s with link := s.link.ended } : State).deliver f (s.link.frameStart.getD 0#64)) := fun hf hm => by
      rw [State.exec_frameEnd f false hc, State.frameEnds_heard hphase hp, State.judgeFrame_good hf hlistens, hm,
        State.frameSent_heard hphase]
      rfl
    refine ⟨fun hf => ?_, fun hf => ?_, fun hf hm => ?_, fun hf hm hdst hall hkind => ?_, fun hf hm hno => ?_⟩
    · rw [State.exec_frameEnd f others hc, State.frameEnds_heard hphase hp, State.judgeFrame_spoiled (.inl hf), hf, hlistens]
      exact congrArg (fun l => Host.Outcome.next { s with link := Link.free l }) (hdiscard s.link.driveSpoil hphase)
    · rw [State.exec_frameEnd f true hc, State.frameEnds_heard hphase hp, State.judgeFrame_spoiled (.inr (.inl rfl)), hf, hlistens]
      exact congrArg (fun l => Host.Outcome.next { s with link := Link.free l }) (hdiscard s.link hphase)
    · rw [State.exec_frameEnd f false hc, State.frameEnds_heard hphase hp, State.judgeFrame_good hf hlistens, hm,
        State.frameSent_heard hphase]
      rfl
    · exact (hgood hf hm).trans (congrArg _ (State.deliver_elsewhere _ (State.addressed_false hdst hall hkind)))
    · exact (hgood hf hm).trans (congrArg _ (State.deliver_noBlock _ ((State.reachesNoBlock_congr rfl).mpr hno)))
  · have hno : (f.kind == 0x39#8 && !f.faulty && !others && !f.malformed) = false := by
      obtain h | h | h | h := hbad <;> simp [h]
    rw [State.exec_frameEnd f others hc, State.frameEnds_asleep (by rw [hphase]; rfl) hp, State.endFrameAsleep, hno]
    rfl
  · obtain ⟨hmember, -, -⟩ := hout.rest
    refine ⟨fun hm => ?_, fun hm huntaken => ?_⟩
    · rw [State.exec_frameEnd f false hc, hout.frameEnds hp hf, hm]
      rfl
    · have hself : u.self = s.self := by rw [State.self, State.self, hmember]
      rw [State.exec_frameEnd f false hc, hout.frameEnds hp hf, hm, if_neg (by decide), State.deliver_untaken]
      rw [hself, State.reachesNoBlock_congr hmember]
      exact huntaken

/-- Settles O10: the command of a frame does what its delivery does, on the station that the frame's end leaves. -/
theorem frameEndRunsTheTakenCommand : Obligations.FrameEndRunsTheTakenCommand := by
  intro f m c s hc hf hm hto hread
  have hdeliver : ∀ {u : State} (t : Time), u.member = s.member → u.deliver f t = u.deliverMsg f.src (f.dst == 15#4) t m :=
    fun t hmember => State.deliver_read t (State.addressed_true (by rw [State.self, hmember]; exact hto)) hread
  refine ⟨fun hp htaken => ?_, fun hp hphase => ⟨fun hkind htaken => ?_, fun hkind => ?_⟩⟩
  · have hown : ∀ u, s.ownFrameOut u → ∃ t : State, exec c u = .next t ∧ exec (.frameEnd f false) s = .next t.sleepTest :=
      fun u hout => by
        refine ⟨_, State.exec_takenAs htaken (hout.calm hc), ?_⟩
        rw [State.exec_frameEnd f false hc, hout.frameEnds hp hf, hm, if_neg (by decide), hdeliver _ hout.rest.1]
    refine ⟨fun hphase => ?_, fun hphase => hown _ (.inl ⟨hphase, rfl⟩), fun hphase => hown _ (.inr (.inl ⟨hphase, rfl⟩)),
      fun b hphase hb => hown _ (.inr (.inr ⟨b, hphase, hb, rfl⟩))⟩
    rw [State.exec_frameEnd f false hc, State.frameEnds_heard hphase hp, State.judgeFrame_good hf (by rw [hphase]; rfl), hm,
      if_neg (by decide), State.frameSent_heard hphase, hdeliver (u := s.onLink Link.free) _ rfl]
    exact (State.exec_takenAs (s := s.onLink Link.free) htaken hc).symm
  · rw [State.exec_frameEnd f false hc, State.frameEnds_asleep (by rw [hphase]; rfl) hp, State.endFrameAsleep, if_pos (by simp [hkind, hf, hm]),
      hdeliver (u := s.onLink Link.free) _ rfl]
    exact (State.exec_takenAs (s := s.onLink Link.free) htaken hc).symm
  · rw [State.exec_frameEnd f false hc, State.frameEnds_asleep (by rw [hphase]; rfl) hp, State.endFrameAsleep, if_neg (by simp [hkind])]
    rfl

/-! ## Spoils of the station's own frame -/

theorem spoilHead_kept {q : Queued} (qs : List Queued) (h : q.spoils < 15) :
    spoilHead (q :: qs) = ({ q with spoils := q.spoils + 1 } :: qs, false) := if_pos (Nat.succ_lt_succ h)

theorem spoilHead_discarded {q : Queued} (qs : List Queued) (h : 15 ≤ q.spoils) : spoilHead (q :: qs) = (qs, true) :=
  if_neg (Nat.not_lt.mpr (Nat.succ_le_succ h))

/-- A bulk frame that ends spoiled: the 16th spoil discards it, and its builder's cancelling takes it from hand. -/
theorem Link.ownSpoiled_bulk {l : Link} {b : Bulk} (hb : l.bulk = some b) : l.ownSpoiled .bulk =
    if Config.spoilLimit ≤ b.spoils + 1 then Link.afterSpoil true { l with bulk := none }
    else if b.cancelled then { l with bulk := none }
    else Link.afterSpoil false { l with bulk := some { b with spoils := b.spoils + 1 } } := by
  rw [Link.ownSpoiled, hb]

/-- At the sender a frame that ends spoiled is charged to its queue or its hand, and the sender's own finding is counted. -/
theorem State.exec_ownSpoiled {f : WireFrame} {others : Bool} {src : SendSource} {s : State} (hc : s.calm) (hp : s.power.state ≠ .sleep)
    (hbad : f.faulty = true ∨ others = true) (hphase : s.link.phase = .sending src false) :
    exec (.frameEnd f others) s = .next (State.sleepTest { s with
      link := (Link.ownSpoiled src
        { s.link with spoiled := if f.faulty = true then satInc 4294967295 s.link.spoiled else s.link.spoiled }).ended }) := by
  have hspoiled : f.faulty = true ∨ others = true ∨ s.link.phase.withdrawn = true := hbad.imp id .inl
  rw [State.exec_frameEnd f others hc, State.frameEnds_sent hphase hp, State.judgeFrame_spoiled hspoiled]
  have hdiscard : ∀ l : Link, l.phase = .sending src false → l.discardFrame = l.ownSpoiled src := fun l hl => by rw [Link.discardFrame, hl]
  have hno : s.link.phase.withdrawn = false := by rw [hphase]; rfl
  rw [hno, Bool.or_false]
  cases f.faulty with
  | true => exact congrArg (fun l => Host.Outcome.next (State.sleepTest { s with link := Link.free l })) (hdiscard s.link.driveSpoil hphase)
  | false => exact congrArg (fun l => Host.Outcome.next (State.sleepTest { s with link := Link.free l })) (hdiscard s.link hphase)

/-- Settles O9: `ownSpoiled` by the class of the frame and its spoil count. -/
theorem ownFrameSpoilsAreCounted : Obligations.OwnFrameSpoilsAreCounted := by
  refine ⟨fun f others n s hc hp hbad hn => ?_, fun f others b s hc hp hphase hb => ?_⟩
  · subst hn
    refine ⟨fun q qs hphase hq => ?_, fun q qs hphase hq => ?_, fun b hphase hb => ?_⟩
    · rw [State.exec_ownSpoiled hc hp hbad hphase, Link.ownSpoiled]
      dsimp only
      rw [hq]
      exact ⟨fun h => by rw [spoilHead_kept qs h]; rfl, fun h => by rw [spoilHead_discarded qs h]; rfl⟩
    · rw [State.exec_ownSpoiled hc hp hbad hphase, Link.ownSpoiled]
      dsimp only
      rw [hq]
      exact ⟨fun h => by rw [spoilHead_kept qs h]; rfl, fun h => by rw [spoilHead_discarded qs h]; rfl⟩
    · have hown := Link.ownSpoiled_bulk (b := b)
        (l := { s.link with spoiled := if f.faulty = true then satInc 4294967295 s.link.spoiled else s.link.spoiled }) hb
      rw [State.exec_ownSpoiled hc hp hbad hphase, hown]
      refine ⟨fun h hkept => ?_, fun h hcancelled => ?_, fun h => ?_⟩
      · rw [if_neg (show ¬Config.spoilLimit ≤ b.spoils + 1 from Nat.not_le.mpr (Nat.succ_lt_succ h)), hkept]
        rfl
      · rw [if_neg (show ¬Config.spoilLimit ≤ b.spoils + 1 from Nat.not_le.mpr (Nat.succ_lt_succ h)), hcancelled]
        rfl
      · rw [if_pos (show Config.spoilLimit ≤ b.spoils + 1 from Nat.succ_le_succ h)]
        rfl
  · have hwithdrawn : s.link.phase.withdrawn = true := by rw [hphase]; rfl
    have hdiscard : ∀ l : Link, l.phase = .sending .bulk true → l.bulk = some b →
        l.discardFrame = { l with bulk := if b.cancelled then none else some b } := fun l hl hlb => by
      rw [Link.discardFrame, hl]
      dsimp only
      rw [hlb]
      cases hcancelled : b.cancelled <;> simp [hcancelled]
    rw [State.exec_frameEnd f others hc, State.frameEnds_sent hphase hp, State.judgeFrame_spoiled (.inr (.inr hwithdrawn)), hwithdrawn,
      Bool.or_true]
    exact congrArg (fun l => Host.Outcome.next (State.sleepTest { s with link := Link.free l })) (hdiscard s.link.driveSpoil hphase hb)

end Sys2Proof.Machine
end

section
/-! PROOF. The offer at a free link and the arbitration (R4-R7, R15, R38, R39). -/

namespace Sys2Proof.Machine

/-! ## Arbitration -/

/-- The lower class wins, and of one class the lower source. -/
theorem WireFrame.wins_eq_true {own rival : WireFrame} (h : own.cls < rival.cls ∨ (own.cls = rival.cls ∧ own.src < rival.src)) :
    own.wins rival = true := by
  simp only [BitVec.lt_def] at h
  simp only [WireFrame.wins, WireFrame.fields, List.cons_append, notDominated]
  obtain h | ⟨hcls, hsrc⟩ := h
  · rw [if_pos h]
  · rw [hcls, if_neg (Nat.lt_irrefl _), if_neg (Nat.lt_irrefl _), if_pos hsrc]

theorem WireFrame.wins_eq_false {own rival : WireFrame} (h : rival.cls < own.cls ∨ (own.cls = rival.cls ∧ rival.src < own.src)) :
    own.wins rival = false := by
  simp only [BitVec.lt_def] at h
  simp only [WireFrame.wins, WireFrame.fields, List.cons_append, notDominated]
  obtain h | ⟨hcls, hsrc⟩ := h
  · rw [if_neg (by omega), if_pos h]
  · rw [hcls, if_neg (Nat.lt_irrefl _), if_neg (Nat.lt_irrefl _), if_neg (by omega), if_pos hsrc]

namespace State

variable {s : State}

/-! ## What a station prepares to offer -/

theorem mayOffer_eq_false (h : s.link.phase ≠ .free ∨ s.link.detached = true ∨ s.power.state = .sleep) : s.mayOffer = false := by
  obtain h | h | h := h <;> simp [mayOffer, h]

theorem mayOffer_eq_true (hf : s.link.phase = .free) (hd : s.link.detached = false) (hp : s.power.state ≠ .sleep) : s.mayOffer = true := by
  simp [mayOffer, hf, hd, hp]

/-- A Mark at the head of the control queue is stamped, then a bulk frame is built. -/
theorem prepareOffer_eq {qs : List Queued}
    (h : (if s.link.urgent.isEmpty then stampHead s.clock.linkTime s.link.control else s.link.control) = qs) :
    s.prepareOffer = State.doIf (s.link.urgent.isEmpty && s.link.control.isEmpty && s.capture.quiet.isEmpty && s.running) buildBulk
      { s with link := { s.link with control := qs } } := by
  subst h
  rfl

theorem prepareOffer_urgent {q : Queued} {qs : List Queued} (hu : s.link.urgent = q :: qs) : s.prepareOffer = s := by
  have hno : (s.link.urgent.isEmpty && s.link.control.isEmpty && s.capture.quiet.isEmpty && s.running) = false := by rw [hu]; rfl
  rw [prepareOffer_eq (qs := s.link.control) (by rw [hu]; rfl), hno]
  rfl

theorem prepareOffer_control {q : Queued} {qs : List Queued} (hu : s.link.urgent = []) (hc : s.link.control = q :: qs) :
    s.prepareOffer = { s with link := { s.link with control := stampHead s.clock.linkTime (q :: qs) } } := by
  rw [prepareOffer_eq (qs := stampHead s.clock.linkTime (q :: qs)) (by rw [hu, hc]; rfl)]
  have hno : (s.link.urgent.isEmpty && s.link.control.isEmpty && s.capture.quiet.isEmpty && s.running) = false := by
    rw [hu, hc]
    rfl
  rw [hno]
  rfl

theorem prepareOffer_bulk (hu : s.link.urgent = []) (hc : s.link.control = []) :
    s.prepareOffer = s.doIf (s.capture.quiet.isEmpty && s.running) buildBulk := by
  have hempty : (s.link.urgent.isEmpty && s.link.control.isEmpty) = true := by rw [hu, hc]; rfl
  rw [prepareOffer_eq (qs := s.link.control) (by rw [hu, hc]; rfl), hempty, Bool.true_and]

theorem buildBulk_inHand {b : Bulk} (hb : s.link.bulk = some b) : s.buildBulk = s := by rw [buildBulk, hb]

theorem buildBulk_seam {f : Frame} (hb : s.link.bulk = none) (hf : s.buildSeam = some f) :
    s.buildBulk = s.onLink fun l => { l with bulk := some { frame := f, spoils := 0, cancelled := false } } := by
  rw [buildBulk, hb, hf]

theorem buildBulk_segment {f : Frame} (hb : s.link.bulk = none) (hno : s.buildSeam = none) (hf : s.buildSegment = some f) :
    s.buildBulk = s.onLink fun l => { l with bulk := some { frame := f, spoils := 0, cancelled := false } } := by
  rw [buildBulk, hb, hno, hf]

theorem buildBulk_none (hno : s.buildSeam = none) (hno' : s.buildSegment = none) : s.buildBulk = s := by
  unfold buildBulk
  rw [hno, hno']
  split <;> rfl

theorem buildBulk_phase (s : State) : s.buildBulk.link.phase = s.link.phase := by
  unfold buildBulk
  split
  · rfl
  · split
    · rfl
    · split <;> rfl

theorem prepareOffer_phase (s : State) : s.prepareOffer.link.phase = s.link.phase := by
  unfold prepareOffer
  rw [doIf_link, apply_ite Link.phase, buildBulk_phase]
  exact ite_self _

/-! ## The offer -/

theorem offer_urgent {q : Queued} {qs : List Queued} (hu : s.link.urgent = q :: qs) : s.offer = some (.urgent, q.frame) := by
  rw [offer, hu]
  rfl

theorem offer_control {q : Queued} {qs : List Queued} (hu : s.link.urgent = []) (hc : s.link.control = q :: qs) :
    s.offer = some (.control, q.frame) := by
  rw [offer, hu, hc]
  rfl

theorem offer_bulk {b : Bulk} (hu : s.link.urgent = []) (hc : s.link.control = []) (hq : s.capture.quiet = []) (hb : s.link.bulk = some b) :
    s.offer = some (.bulk, b.frame) := by
  rw [offer, hu, hc, hb, hq]
  rfl

theorem offer_quiet (hu : s.link.urgent = []) (hc : s.link.control = []) (hq : s.capture.quiet ≠ []) : s.offer = none := by
  rw [offer, hu, hc]
  cases s.link.bulk with
  | none => rfl
  | some b => exact if_neg (by simpa using hq)

theorem offer_none (hu : s.link.urgent = []) (hc : s.link.control = []) (hb : s.link.bulk = none) : s.offer = none := by
  rw [offer, hu, hc, hb]
  rfl

/-- The frame offered is the one on the link once the station sends it. -/
theorem offered_of_offer {src : SendSource} {f : Frame} (h : s.offer = some (src, f)) : (s.send src).link.offered = some f.msg := by
  cases hu : s.link.urgent with
  | cons q qs =>
    rw [offer_urgent hu] at h
    cases h
    simp [send, Link.offered, hu]
  | nil =>
    cases hc : s.link.control with
    | cons q qs =>
      rw [offer_control hu hc] at h
      cases h
      simp [send, Link.offered, hc]
    | nil =>
      cases hb : s.link.bulk with
      | none =>
        rw [offer_none hu hc hb] at h
        cases h
      | some b =>
        cases hq : s.capture.quiet with
        | nil =>
          rw [offer_bulk hu hc hq hb] at h
          cases h
          simp [send, Link.offered, hb]
        | cons n ns =>
          rw [offer_quiet hu hc (by simp [hq])] at h
          cases h

theorem exec_linkFreeOffer (rival : Option WireFrame) (h : s.calm) : exec (.linkFreeOffer rival) s = .next (s.meetFreeLink rival) :=
  event_of_calm _ s h

/-- A station with nothing to offer hears the frame that another node begins. -/
theorem meetFreeLink_silent (rival : Option WireFrame) (hm : s.mayOffer = true) (ho : s.prepareOffer.offer = none) :
    s.meetFreeLink rival = s.prepareOffer.doIf rival.isSome hear := by
  rw [meetFreeLink, hm, if_pos rfl, offerAgainst, ho]

/-- A station's frame goes on where it wins against the frame that another node begins. -/
theorem meetFreeLink_offers (rival : Option WireFrame) {src : SendSource} {f : Frame} (hm : s.mayOffer = true)
    (ho : s.prepareOffer.offer = some (src, f)) : s.meetFreeLink rival =
      if rival.all fun g => (Frame.wire s.self f).wins g then s.prepareOffer.send src else s.prepareOffer.hear := by
  rw [meetFreeLink, hm, if_pos rfl, offerAgainst, ho]

/-- The offer against no other node's frame. -/
theorem exec_offers {src : SendSource} {f : Frame} (h : s.calm) (hm : s.mayOffer = true) (ho : s.prepareOffer.offer = some (src, f)) :
    exec (.linkFreeOffer none) s = .next (s.prepareOffer.send src) := by
  rw [exec_linkFreeOffer none h, meetFreeLink_offers none hm ho]
  rfl

theorem exec_silent (h : s.calm) (hm : s.mayOffer = true) (ho : s.prepareOffer.offer = none) :
    exec (.linkFreeOffer none) s = .next s.prepareOffer := by
  rw [exec_linkFreeOffer none h, meetFreeLink_silent none hm ho]
  rfl

end State

/-! ## The bulk frames -/

/-- A sample of a band is the raw sample less its base, as a word (R124). -/
theorem State.band_getD (x : Slot) (k : Nat) (d : Direction) (s : State) {i p : Nat} (hp : (bandPositions s.settings d)[i]? = some p) :
    ((s.band x k d).getD i 0#16).toNat = ((s.area k).raw.getD p 0#14).toNat -
      (if x.dark = some .used ∧ s.dark.valid = true then (s.dark.samples.getD p 0#14).toNat else s.settings.blackLevel % 16384) := by
  unfold State.band
  rw [List.getD_eq_getElem?_getD, List.getElem?_map, hp, Option.map_some, Option.getD_some, BitVec.toNat_setWidth,
    Nat.mod_eq_of_lt (Nat.lt_of_lt_of_le (BitVec.isLt _) (by decide)), lessBase_toNat, pixelAt]
  congr 1
  by_cases hdark : x.dark = some .used ∧ s.dark.valid = true
  · rw [if_pos hdark, State.bandBase, if_pos (by simpa using hdark)]
    rfl
  · rw [if_neg hdark, State.bandBase, if_neg (by simpa using hdark)]
    exact BitVec.toNat_ofNat _ _

/-- A skew that fits 32 bits is carried as it is. -/
theorem clampSkew_toInt {k : Int} (hlow : -2147483648 ≤ k) (hhigh : k ≤ 2147483647) : (clampSkew k).toInt = k := by
  rw [clampSkew, if_neg (by omega), if_neg (by omega), BitVec.toInt_ofInt]
  exact Int.bmod_eq_of_le (by omega) (by omega)

theorem Slot.closeFields_of {x : Slot} {sum : Word16} {o : SyncOutcome} {k : Int} (hsum : x.tileSum = some sum) (ho : x.outcome = some o)
    (hk : x.skew = some k) : x.closeFields = { tileSum := sum, flags := x.flags, outcome := o, skew := clampSkew k } := by
  rw [Slot.closeFields, hsum, ho, hk]
  rfl

namespace Entry

variable {e : Entry}

theorem targetsReady_iff : e.targetsReady = true ↔ ∀ p ∈ e.parts, p.target = true → p.transfer = .sending ∧ 1 ≤ p.grants := by
  rw [Entry.targetsReady, List.all_eq_true]
  refine forall₂_congr fun p _ => ?_
  cases p.target <;> simp

theorem not_ready (h : (∀ p ∈ e.parts, p.target = false) ∨ ∃ p ∈ e.parts, p.target = true ∧ (p.transfer ≠ .sending ∨ p.grants = 0)) :
    (e.hasTarget && e.targetsReady) = false := by
  rw [← Bool.not_eq_true, Bool.and_eq_true, hasTarget_iff, targetsReady_iff]
  rintro ⟨⟨q, hq, htarget⟩, hready⟩
  obtain h | ⟨p, hp, htp, h⟩ := h
  · rw [h q hq] at htarget
    cases htarget
  · obtain ⟨hsending, hgrants⟩ := hready p hp htp
    obtain h | h := h
    · exact h hsending
    · omega

end Entry

namespace State

variable {s : State}

theorem buildSeam_none (h : s.develop.owed = []) : s.buildSeam = none := by rw [buildSeam, h]

theorem buildSeam_owed {n : Shot} {d : Direction} {owed : List (Shot × Direction)} {x : Slot} (h : s.develop.owed = (n, d) :: owed)
    (hx : s.slot? n = some x) (hr : s.running = true) :
    s.buildSeam = some { dst := 15#4, msg := .seam n d (s.band x (s.slotIndex n) d) } := by
  rw [buildSeam, h]
  dsimp only
  rw [hx]
  exact if_pos hr

theorem buildSegment_none (h : s.transfer.current = none) : s.buildSegment = none := by rw [buildSegment, h]

theorem buildSegment_current {n : Shot} {e : Entry} {x : Slot} (h : s.transfer.current = some n) (he : s.entry? n = some e)
    (hx : s.slot? n = some x) : s.buildSegment =
      if e.hasTarget && e.targetsReady then some { dst := 15#4, msg := .segment (s.segmentAt e x) } else none := by
  rw [buildSegment, h]
  dsimp only
  rw [he, hx]

theorem not_running (h : s.member.state ≠ .configuring) (h' : s.member.state ≠ .ready) : s.running = false := by
  simp [running, h, h']

/-- A bulk frame built at the offer is sent at once. -/
theorem exec_offeringBulk {msg : Msg} (hc : s.calm) (hm : s.mayOffer = true) (hu : s.link.urgent = []) (hl : s.link.control = [])
    (hq : s.capture.quiet = []) (hr : s.running = true)
    (hb : s.buildBulk = s.onLink fun l => { l with bulk := some { frame := { dst := 15#4, msg := msg }, spoils := 0, cancelled := false } }) :
    exec (.linkFreeOffer none) s = .next (s.offeringBulk msg) := by
  have hprepared : s.prepareOffer =
      s.onLink fun l => { l with bulk := some { frame := { dst := 15#4, msg := msg }, spoils := 0, cancelled := false } } := by
    rw [prepareOffer_bulk hu hl, hq, hr]
    exact hb
  rw [exec_offers hc hm (src := .bulk) (f := { dst := 15#4, msg := msg }), hprepared]
  · rfl
  · rw [hprepared]
    exact offer_bulk (b := { frame := { dst := 15#4, msg := msg }, spoils := 0, cancelled := false }) hu hl hq rfl

/-- Where no bulk frame is built, nothing is offered. -/
theorem exec_noBulk (hc : s.calm) (hm : s.mayOffer = true) (hu : s.link.urgent = []) (hl : s.link.control = [])
    (hb : s.link.bulk = none) (hno : s.running = true → s.buildBulk = s) : exec (.linkFreeOffer none) s = .next s := by
  have hprepared : s.prepareOffer = s := by
    rw [prepareOffer_bulk hu hl]
    cases hr : s.running with
    | false => rw [Bool.and_false]; rfl
    | true => exact (congrArg (fun t => if (s.capture.quiet.isEmpty && true) = true then t else s) (hno hr)).trans (ite_self s)
  rw [exec_silent hc hm (by rw [hprepared]; exact offer_none hu hl hb), hprepared]

end State

/-- Settles O6: `prepareOffer` and `offer` by the highest class that has a frame, and `buildBulk` where none has. -/
theorem offerTakesTheHighestClass : Obligations.OfferTakesTheHighestClass := by
  intro s hc
  refine ⟨fun h => ?_, fun hfree hdet hp => ?_⟩
  · rw [State.exec_linkFreeOffer none hc, State.meetFreeLink, State.mayOffer_eq_false h]
    rfl
  have hm := State.mayOffer_eq_true hfree hdet hp
  refine ⟨fun q qs hu => ?_, fun q qs hu hl => ?_, fun b hu hl hq hb => ?_, fun hu hl hq => ?_,
    fun hu hl hq hb => ⟨fun h h' => ?_, fun n d owed x hin howed hx => ?_, fun n e x hin howed hcur he hx => ⟨fun hsome hready => ?_, fun hno => ?_⟩,
      fun howed hcur => ?_⟩⟩
  · rw [State.exec_offers hc hm (by rw [State.prepareOffer_urgent hu]; exact State.offer_urgent hu), State.prepareOffer_urgent hu]
    rfl
  · have hprepared := State.prepareOffer_control hu hl
    rw [State.exec_offers hc hm (by rw [hprepared]; exact State.offer_control hu rfl), hprepared]
    rfl
  · have hprepared : s.prepareOffer = s := by
      rw [State.prepareOffer_bulk hu hl, State.doIf, State.buildBulk_inHand hb, ite_self]
    rw [State.exec_offers hc hm (by rw [hprepared]; exact State.offer_bulk hu hl hq hb), hprepared]
    rfl
  · have hprepared : s.prepareOffer = s := by
      rw [State.prepareOffer_bulk hu hl, show s.capture.quiet.isEmpty = false by simpa using hq]
      rfl
    rw [State.exec_silent hc hm (by rw [hprepared]; exact State.offer_quiet hu hl hq), hprepared]
  · refine State.exec_noBulk hc hm hu hl hb fun hr => ?_
    rw [State.not_running h h'] at hr
    cases hr
  · have hr := State.running_of_inForce s hin
    refine ⟨s.band x (s.slotIndex n) d, ?_, List.length_map _, fun i p hi => State.band_getD x _ d s hi⟩
    exact State.exec_offeringBulk hc hm hu hl hq hr (State.buildBulk_seam hb (State.buildSeam_owed howed hx hr))
  · have hbuilt : s.buildSegment = some { dst := 15#4, msg := .segment (s.segmentAt e x) } := by
      rw [State.buildSegment_current hcur he hx, if_pos]
      rw [(Entry.hasTarget_iff e).mpr hsome, Entry.targetsReady_iff.mpr hready]
      rfl
    refine ⟨s.segmentAt e x, State.exec_offeringBulk hc hm hu hl hq (State.running_of_inForce s hin)
      (State.buildBulk_segment hb (State.buildSeam_none howed) hbuilt), rfl, rfl, rfl, rfl, rfl, rfl, ?_, fun c hclose sum o k hsum ho hk hlow hhigh => ?_⟩
    · rw [State.segmentAt]
      dsimp only
      split
      next h => simp [h]
      next h => simp [h]
    · rw [State.segmentAt] at hclose
      dsimp only at hclose
      split at hclose
      · cases hclose
        rw [Slot.closeFields_of hsum ho hk]
        exact ⟨rfl, rfl, rfl, clampSkew_toInt hlow hhigh⟩
      · cases hclose
  · have hnothing : s.buildSegment = none := by
      rw [State.buildSegment_current hcur he hx, Entry.not_ready hno]
      rfl
    exact State.exec_noBulk hc hm hu hl hb fun _ => State.buildBulk_none (State.buildSeam_none howed) hnothing
  · exact State.exec_noBulk hc hm hu hl hb fun _ => State.buildBulk_none (State.buildSeam_none howed) (State.buildSegment_none hcur)

/-! ## Against another node's frame -/

namespace State

variable {s u : State} {g : WireFrame}

/-- What the offer against no frame makes of the station, and what it makes against the frame `g`. -/
theorem exec_against (hc : s.calm) (hm : s.mayOffer = true) (hfree : s.link.phase = .free) (hu : exec (.linkFreeOffer none) s = .next u) :
    (∀ m, u.link.offered = some m →
      ((m.cls < g.cls ∨ (m.cls = g.cls ∧ s.self < g.src)) → exec (.linkFreeOffer (some g)) s = .next u) ∧
      ((g.cls < m.cls ∨ (m.cls = g.cls ∧ g.src < s.self)) →
        exec (.linkFreeOffer (some g)) s = .next { u with link := { u.link with phase := .hearing true } })) ∧
    (u.link.offered = none → exec (.linkFreeOffer (some g)) s = .next
      { u with link := { u.link with phase := .hearing true, frameStart := some s.clock.linkTime } }) := by
  have hclock : s.prepareOffer.clock = s.clock := by simp
  cases ho : s.prepareOffer.offer with
  | none =>
    obtain rfl : s.prepareOffer = u := by
      rw [exec_silent hc hm ho] at hu
      exact Host.Outcome.next.inj hu
    have hno : s.prepareOffer.link.offered = none := by rw [Link.offered, prepareOffer_phase, hfree]
    refine ⟨fun m hoffered => absurd (hno.symm.trans hoffered) nofun, fun _ => ?_⟩
    rw [exec_linkFreeOffer _ hc, meetFreeLink_silent _ hm ho, ← hclock]
    rfl
  | some offered =>
    obtain ⟨src, f⟩ := offered
    obtain rfl : s.prepareOffer.send src = u := by
      rw [exec_offers hc hm ho] at hu
      exact Host.Outcome.next.inj hu
    have hmsg : (s.prepareOffer.send src).link.offered = some f.msg := offered_of_offer ho
    rw [hmsg, exec_linkFreeOffer _ hc, meetFreeLink_offers _ hm ho]
    refine ⟨fun m hm => ?_, nofun⟩
    cases hm
    refine ⟨fun hwins => ?_, fun hloses => ?_⟩
    · rw [if_pos]
      exact WireFrame.wins_eq_true (own := Frame.wire s.self f) hwins
    · rw [if_neg]
      · rfl
      · rw [Option.all_some, WireFrame.wins_eq_false (own := Frame.wire s.self f) hloses]
        decide

theorem exec_frameStart (hc : s.calm) : exec .frameStart s = .next s.rivalBegins := event_of_calm _ s hc

end State

/-- Settles O7: the offers of `offerTakesTheHighestClass` met by another node's frame. -/
theorem arbitrationAndFrameStart : Obligations.ArbitrationAndFrameStart := by
  refine ⟨fun g q qs s hc hfree hdet hp hu => ?_, fun g q qs m l s hc hfree hdet hp hu hl hmsg hlink => ?_,
    fun g b s hc hfree hdet hp hu hl hq hb => ?_, fun g s u hc hfree hdet hp hoffer => ?_, fun s hc => ⟨fun h => ?_, fun h h' => ?_⟩⟩
  · obtain ⟨hurgent, -⟩ := (offerTakesTheHighestClass s hc).2 hfree hdet hp
    exact (State.exec_against hc (State.mayOffer_eq_true hfree hdet hp) hfree (hurgent q qs hu)).1 q.frame.msg (by simp [Link.offered, hu])
  · obtain ⟨-, hcontrol, -⟩ := (offerTakesTheHighestClass s hc).2 hfree hdet hp
    subst hmsg hlink
    exact (State.exec_against hc (State.mayOffer_eq_true hfree hdet hp) hfree (hcontrol q qs hu hl)).1 _ rfl
  · obtain ⟨-, -, hbulk, -⟩ := (offerTakesTheHighestClass s hc).2 hfree hdet hp
    exact (State.exec_against hc (State.mayOffer_eq_true hfree hdet hp) hfree (hbulk b hu hl hq hb)).1 b.frame.msg (by simp [Link.offered, hb])
  · exact State.exec_against hc (State.mayOffer_eq_true hfree hdet hp) hfree hoffer
  · rw [State.exec_frameStart hc, State.rivalBegins]
    obtain h | h := h <;> rw [h] <;> rfl
  · rw [State.exec_frameStart hc, State.rivalBegins]
    split
    next hphase => exact absurd hphase h
    next hphase => exact absurd hphase h'
    · rfl

end Sys2Proof.Machine
end

section
/-! PROOF. The completions of card writes (R141, R149, R166, R169). -/

namespace Sys2Proof.Machine

/-- The station once the head of its write queue has reached the card and left the queue. -/
def State.headWritten (w : Write) (rest : List Write) (s : State) : State :=
  { s with card := { s.card.written w with writes := rest } }

/-- The placement list entry of a shot as the completion of one of its buffers leaves it. -/
def Placed.bufferWritten (p : Placed) : Placed := { p with unwritten := p.unwritten - 1 }

theorem Card.updPlaced_placed? {c : Card} {n : Shot} {p : Placed} {f : Placed → Placed} (hf : ∀ q, (f q).shot = q.shot)
    (h : c.placed? n = some p) : (c.updPlaced n f).placed? n = some (f p) :=
  updFirst_find _ _ (fun q => by rw [hf]) _ _ h

theorem Placed.complete_iff (p : Placed) :
    p.complete = true ↔ p.phase = .filling ∧ (∀ m ∈ p.progress, m.closed = true) ∧ p.unwritten = 0 := by
  simp [Placed.complete, and_assoc]

namespace State

variable {s u : State} {w : Write} {rest : List Write}

/-! ## The waiting claims -/

theorem serveFrom_writes (qs : List Claim) (s : State) : (serveFrom qs s).card.writes = s.card.writes := by
  induction qs generalizing s with
  | nil => rfl
  | cons q qs ih =>
    have hgrant : ((s.onCard fun c => { c with waiting := qs }).grantClaim q).card.writes = s.card.writes := by
      unfold grantClaim
      split <;> rfl
    unfold serveFrom
    split
    · rw [ih, hgrant]
    · rfl

theorem serve_placements (s : State) : s.serve.card.placements = s.card.placements := (serveFrom_alone _ s).placements

theorem serve_writes (s : State) : s.serve.card.writes = s.card.writes := serveFrom_writes _ s

/-- A card that is not being ejected is left as it is. -/
theorem ejected_held (h : s.card.state ≠ .ejecting) : s.ejected = s := if_neg fun hno => h hno.1

/-! ## The commit test -/

theorem commitTest_held {n : Shot} {p : Placed} (hp : s.card.placed? n = some p) (h : p.complete = false) : s.commitTest n = s := by
  unfold commitTest
  split
  next q e hq he =>
    rw [hp] at hq
    cases hq
    rw [h]
    rfl
  · rfl

theorem commitTest_commits {n : Shot} {p : Placed} {e : Entry} (hp : s.card.placed? n = some p) (he : s.entry? n = some e)
    (h : p.complete = true) : s.commitTest n = { s with
      card := { s.card.updPlaced n (fun q => { q with phase := .committing }) with writes := s.card.writes ++ commitWrites p e } } := by
  unfold commitTest
  rw [hp, he]
  exact if_pos h

/-! ## The head of the write queue -/

theorem completeWrite_head {p : Write → Bool} (f : Write → State → State) (hw : s.card.writes = w :: rest) (hp : p w = true) :
    s.completeWrite p f = (f w (s.headWritten w rest)).ejected := by
  unfold completeWrite
  rw [hw]
  dsimp only
  rw [if_pos hp, ejectTest_eq]
  rfl

theorem completeWrite_other {p : Write → Bool} (f : Write → State → State) (hw : s.card.writes = w :: rest) (hp : p w = false) :
    s.completeWrite p f = s := by
  unfold completeWrite
  rw [hw]
  exact if_neg (by rw [hp]; decide)

theorem headWritten_placed? (w : Write) (rest : List Write) (s : State) (n : Shot) :
    (s.headWritten w rest).card.placed? n = s.card.placed? n := rfl

/-- The station once a buffer of a placement is free and the waiting claims are served. -/
def bufferFreed (w : Write) (u : State) : State := State.serve { u with card := u.card.updPlaced w.shot Placed.bufferWritten }

theorem blockWritten_cancelled (h : w.cancelled = true) : u.blockWritten w = u := if_pos h

theorem blockWritten_frees (h : w.cancelled = false) : u.blockWritten w = (u.bufferFreed w).commitTest w.shot :=
  if_neg (by rw [h]; decide)

theorem bufferFreed_placed? {p : Placed} (h : u.card.placed? w.shot = some p) :
    (u.bufferFreed w).card.placed? w.shot = some p.bufferWritten := by
  rw [Card.placed?, bufferFreed, serve_placements]
  exact Card.updPlaced_placed? (fun _ => by rfl) h

theorem bufferFreed_writes (w : Write) (u : State) : (u.bufferFreed w).card.writes = u.card.writes := serve_writes _

theorem bufferFreed_entry? (w : Write) (u : State) (n : Shot) : (u.bufferFreed w).entry? n = u.entry? n := by
  have hring : (u.bufferFreed w).ring = u.ring := by simp [bufferFreed]
  exact entry?_congr (by rw [hring]) n

/-- A buffer is written, and the commit does not begin. -/
theorem blockWritten_held {p : Placed} (h : w.cancelled = false) (hp : u.card.placed? w.shot = some p)
    (hopen : p.phase = .committing ∨ (∃ m ∈ p.progress, m.closed = false) ∨ 2 ≤ p.unwritten) : u.blockWritten w = u.bufferFreed w := by
  have hno : p.bufferWritten.complete = false := by
    rw [← Bool.not_eq_true, Placed.complete_iff]
    rintro ⟨hfilling, hclosed, hzero⟩
    obtain hcommitting | ⟨m, hm, hm'⟩ | htwo := hopen
    · exact nomatch hcommitting.symm.trans hfilling
    · exact nomatch hm'.symm.trans (hclosed m hm)
    · have : p.unwritten - 1 = 0 := hzero
      omega
  rw [blockWritten_frees h, commitTest_held (bufferFreed_placed? hp) hno]

/-- The last buffer of a shot whose tiles are closed is written, and the commit begins. -/
theorem blockWritten_commits {p : Placed} {e : Entry} (h : w.cancelled = false) (hp : u.card.placed? w.shot = some p)
    (hf : p.phase = .filling) (hclosed : ∀ m ∈ p.progress, m.closed = true) (hlast : p.unwritten ≤ 1) (he : u.entry? w.shot = some e) :
    u.blockWritten w = { u.bufferFreed w with
      card := { (u.bufferFreed w).card.updPlaced w.shot (fun q => { q with phase := .committing }) with
        writes := u.card.writes ++ commitWrites { p with unwritten := 0 } e } } := by
  have hzero : p.unwritten - 1 = 0 := by omega
  have hbuffer : p.bufferWritten = { p with unwritten := 0 } := by rw [Placed.bufferWritten, hzero]
  rw [blockWritten_frees h, commitTest_commits (bufferFreed_placed? hp) ((bufferFreed_entry? w u _).trans he)
    ((Placed.complete_iff _).mpr ⟨hf, hclosed, hzero⟩), bufferFreed_writes, hbuffer]

/-- The station once a Shot index entry is written: the shot is committed and off the placement list. -/
def committed (w : Write) (k : Socket) (f : Word16) (u : State) : State :=
  let v := State.serve { u with
    card := u.card.without w.shot
    link := u.linkAfter 15#4 (.commit w.shot k (BitVec.ofNat 16 w.frameNo) f) }
  State.sleepTest { v with notices := v.notices.raise (.shotCommitted w.shot (some k) (BitVec.ofNat 16 w.frameNo) f) }

/-- Where no claim waits, a commit serves none. -/
theorem committed_unwaited (k : Socket) (f : Word16) (h : u.card.waiting = []) : u.committed w k f = State.sleepTest { u with
    card := { u.card with
      placements := u.card.placements.eraseP (·.shot == w.shot), grants := u.card.grants.filter (·.shot != w.shot) }
    link := u.linkAfter 15#4 (.commit w.shot k (BitVec.ofNat 16 w.frameNo) f)
    notices := u.notices.raise (.shotCommitted w.shot (some k) (BitVec.ofNat 16 w.frameNo) f) } := by
  have hwithout : u.card.without w.shot = { u.card with
      placements := u.card.placements.eraseP (·.shot == w.shot), grants := u.card.grants.filter (·.shot != w.shot) } := by
    rw [Card.without, h]
    exact congrArg (fun l => ({ u.card with
      placements := u.card.placements.eraseP (·.shot == w.shot), grants := u.card.grants.filter (·.shot != w.shot), waiting := l } : Card)) h.symm
  have hserve := serve_nothing { u with
    card := { u.card with
      placements := u.card.placements.eraseP (·.shot == w.shot), grants := u.card.grants.filter (·.shot != w.shot) }
    link := u.linkAfter 15#4 (.commit w.shot k (BitVec.ofNat 16 w.frameNo) f) } h
  rw [committed, hwithout, hserve]

theorem fileSum?_index {f : Word16} (h : w.kind = .index f) : w.fileSum? = some f := by rw [Write.fileSum?, h]

theorem fileSum?_none (h : ∀ f, w.kind ≠ .index f) : w.fileSum?.isSome = false := by
  unfold Write.fileSum?
  split
  next f hf => exact absurd hf (h f)
  · rfl

theorem indexWritten_cancelled (h : w.cancelled = true) : u.indexWritten w = u := by
  unfold indexWritten
  split
  · exact if_pos h
  · rfl

theorem indexWritten_commits {f : Word16} {k : Socket} (hk : w.kind = .index f) (hl : u.card.letter = some k) (h : w.cancelled = false) :
    u.indexWritten w = u.committed w k f := by
  unfold indexWritten
  rw [fileSum?_index hk, hl]
  exact if_neg (by rw [h]; decide)

theorem voidWritten_reports {k : Socket} (hl : u.card.letter = some k) :
    u.voidWritten w = { u with link := u.linkAfter 15#4 (.unplace w.shot k .discarded) } := by
  unfold voidWritten
  rw [hl]
  rfl

/-! ## The four completions -/

theorem exec_blockComplete (hc : s.calm) : exec .cardBlockWriteComplete s = .next (s.completeWrite (·.kind == .block) blockWritten) :=
  event_of_calm _ s hc

theorem exec_headerComplete (hc : s.calm) : exec .headerWriteComplete s = .next (s.completeWrite (·.kind == .header) fun _ t => t) :=
  event_of_calm _ s hc

theorem exec_indexComplete (hc : s.calm) : exec .indexWriteComplete s = .next (s.completeWrite (·.fileSum?.isSome) indexWritten) :=
  event_of_calm _ s hc

theorem exec_voidComplete (hc : s.calm) : exec .voidWriteComplete s = .next (s.completeWrite (·.kind == .void) voidWritten) :=
  event_of_calm _ s hc

end State

open State in
/-- Settles O46: `completeWrite` at the head of the queue, then what each kind of write does; the second part where no claim waits and
the card is not being ejected. -/
theorem cardWritesTakeEffect : Obligations.CardWritesTakeEffect := by
  refine ⟨?_, ?_⟩
  · rintro w rest k s u hc hw hl rfl
    refine ⟨fun hkind => ⟨fun hcancel => ?_, ?_⟩, fun hkind => ?_, fun f hkind => ⟨fun hcancel => ?_, ?_⟩, fun hkind => ?_⟩
    · rw [exec_blockComplete hc, completeWrite_head _ hw (by simp [hkind]), blockWritten_cancelled hcancel]
      rfl
    · rintro p v hcancel hp rfl
      rw [exec_blockComplete hc, completeWrite_head _ hw (by simp [hkind])]
      refine ⟨fun hopen => ?_, fun e hf hclosed hlast he => ?_⟩
      · rw [blockWritten_held (u := s.headWritten w rest) hcancel hp hopen]
        rfl
      · rw [blockWritten_commits (u := s.headWritten w rest) hcancel hp hf hclosed hlast he]
        rfl
    · rw [exec_headerComplete hc, completeWrite_head _ hw (by simp [hkind])]
      rfl
    · rw [exec_indexComplete hc, completeWrite_head _ hw (by simp [fileSum?_index hkind]), indexWritten_cancelled hcancel]
      rfl
    · rintro v hcancel rfl
      rw [exec_indexComplete hc, completeWrite_head _ hw (by simp [fileSum?_index hkind]),
        indexWritten_commits (u := s.headWritten w rest) hkind hl hcancel]
      rfl
    · rw [exec_voidComplete hc, completeWrite_head _ hw (by simp [hkind]), voidWritten_reports (u := s.headWritten w rest) hl]
      rfl
  · intro w rest k s hc hw hl hwait hstate
    have hfreed : (s.headWritten w rest).bufferFreed w =
        { s with card := (s.headWritten w rest).card.updPlaced w.shot Placed.bufferWritten } :=
      serve_nothing _ hwait
    refine ⟨fun hkind => ⟨fun hcancel => ?_, fun p hcancel hp => ⟨fun hopen => ?_, fun e hf hclosed hlast he => ?_⟩⟩, fun hkind => ?_,
      fun hkind => ?_, fun hkind => ?_, fun f hkind => ⟨fun hcancel => ?_, fun hcancel => ?_⟩, fun hkind => ?_, fun hkind => ?_, fun hkind => ?_⟩
    · rw [exec_blockComplete hc, completeWrite_head _ hw (by simp [hkind]), blockWritten_cancelled hcancel, ejected_held (s := s.headWritten w rest) hstate]
      rfl
    · refine ⟨{ s with card := (s.headWritten w rest).card.updPlaced w.shot Placed.bufferWritten }, ?_, rfl,
        updFirst_length _ _ s.card.placements, Card.updPlaced_placed? (f := Placed.bufferWritten) (fun _ => by rfl) hp⟩
      rw [exec_blockComplete hc, completeWrite_head _ hw (by simp [hkind]), blockWritten_held (u := s.headWritten w rest) hcancel hp hopen,
        hfreed]
      exact congrArg _ (ejected_held hstate)
    · have hbuffer := Card.updPlaced_placed? (c := (s.headWritten w rest).card) (f := Placed.bufferWritten) (fun _ => by rfl) hp
      have hzero : p.unwritten - 1 = 0 := by omega
      refine ⟨{ s with card := { ((s.headWritten w rest).card.updPlaced w.shot Placed.bufferWritten).updPlaced w.shot
        (fun q => { q with phase := .committing }) with writes := rest ++ commitWrites p e } }, ?_, rfl, ?_⟩
      · rw [exec_blockComplete hc, completeWrite_head _ hw (by simp [hkind]),
          blockWritten_commits (u := s.headWritten w rest) hcancel hp hf hclosed (Nat.le_of_eq hlast) he, hfreed]
        exact congrArg _ (ejected_held hstate)
      · refine (Card.updPlaced_placed? (f := fun q => { q with phase := .committing }) (fun _ => by rfl) hbuffer).trans ?_
        rw [Placed.bufferWritten, hzero]
    · rw [exec_blockComplete hc, completeWrite_other _ hw (by simpa using hkind)]
    · rw [exec_headerComplete hc, completeWrite_head _ hw (by simp [hkind]), ejected_held (s := s.headWritten w rest) hstate]
      rfl
    · rw [exec_headerComplete hc, completeWrite_other _ hw (by simpa using hkind)]
    · rw [exec_indexComplete hc, completeWrite_head _ hw (by simp [fileSum?_index hkind]), indexWritten_cancelled hcancel,
        ejected_held (s := s.headWritten w rest) hstate]
      rfl
    · rw [exec_indexComplete hc, completeWrite_head _ hw (by simp [fileSum?_index hkind]),
        indexWritten_commits (u := s.headWritten w rest) hkind hl hcancel, committed_unwaited (u := s.headWritten w rest) k f hwait,
        ← ejectTest_eq]
      exact congrArg _ (ejectTest_sleepTest _ hstate)
    · rw [exec_indexComplete hc, completeWrite_other _ hw (fileSum?_none hkind)]
    · rw [exec_voidComplete hc, completeWrite_head _ hw (by simp [hkind]), voidWritten_reports (u := s.headWritten w rest) hl]
      exact congrArg _ (ejected_held hstate)
    · rw [exec_voidComplete hc, completeWrite_other _ hw (by simpa using hkind)]

end Sys2Proof.Machine
end

section
/-! PROOF. Format and Eject, and the end of a format (R134, R135, R139, R140). -/

namespace Sys2Proof.Machine

/-! ## The bytes of a formatted card -/

theorem readBytes_getElem? (m : Memory) (a n i : Nat) (hi : i < n) : (m.readBytes a n)[i]? = some (m.read (a + i)) := by
  simp [Memory.readBytes, hi]

/-- The first bytes of what was written are read back. -/
theorem readBytes_written {m : Memory} (hw : m.wf = true) (a n : Nat) {bytes : List Byte} (hn : n ≤ bytes.length) :
    (m.writeBytes a bytes).readBytes a n = bytes.take n := by
  refine List.ext_getElem? fun i => ?_
  by_cases hi : i < n
  · rw [readBytes_getElem? _ _ _ _ hi, Memory.read_writeBytes a (a + i) bytes hw, if_pos (by omega), Nat.add_sub_cancel_left,
      List.getElem?_take_of_lt hi, List.getD_eq_getElem?_getD, List.getElem?_eq_getElem (by omega)]
    rfl
  · rw [List.getElem?_eq_none (by simp [Memory.readBytes]; omega), List.getElem?_eq_none (by simp; omega)]

/-- Bytes that read as blank. -/
theorem readBytes_blank {m : Memory} {a n : Nat} (h : ∀ i, i < n → m.read (a + i) = Config.blankByte) : m.readBytes a n = zeros n := by
  rw [Memory.readBytes, zeros, List.eq_replicate_iff]
  refine ⟨by simp, fun b hb => ?_⟩
  obtain ⟨i, hi, rfl⟩ := List.mem_map.mp hb
  exact h i (List.mem_range.mp hi)

theorem labelBytes_length (magic : Nat) (identity : Word32) (blocks : Nat) : (labelBytes magic identity blocks).length = 512 := by
  have hfields : (beBytes 4 magic ++ beBytes 2 1 ++ beBytes 4 identity.toNat ++ beBytes 4 blocks).length = 14 := by simp
  rw [labelBytes, padBlock, List.length_append, hfields, zeros, List.length_replicate, Config.blockBytes]

theorem labelBytes_take (magic : Nat) (identity : Word32) (blocks : Nat) : (labelBytes magic identity blocks).take 14 =
    [beBytes 4 magic, beBytes 2 1, beBytes 4 identity.toNat, beBytes 4 blocks].flatten := by
  rw [labelBytes, padBlock, List.take_append_of_le_length (by simp), List.take_of_length_le (by simp)]
  simp

/-- What a format wrote as the label is read back, its block count to 32 bits. -/
theorem cardLabel_written {m : Memory} (hw : m.wf = true) (magic : Nat) (identity : Word32) (blocks : Nat) (hmagic : magic < 256 ^ 4) :
    cardLabel (m.writeBytes 0 (labelBytes magic identity blocks)) = (magic, 1, identity.toNat, blocks % 4294967296) := by
  have hl : [beBytes 4 magic, beBytes 2 1, beBytes 4 identity.toNat, beBytes 4 blocks].map List.length = [4, 2, 4, 4] := by simp
  have hid : identity.toNat % 256 ^ 4 = identity.toNat := Nat.mod_eq_of_lt identity.isLt
  rw [cardLabel, readBytes_written hw 0 14 (by rw [labelBytes_length]; decide), labelBytes_take]
  rw [field_number hl 0 0 4 magic rfl rfl, field_number hl 1 4 2 1 rfl rfl, field_number hl 2 6 4 identity.toNat rfl rfl,
    field_number hl 3 10 4 blocks rfl rfl, hid, Nat.mod_eq_of_lt hmagic]
  rfl

/-- The label is all that a format leaves in the first 65 blocks. -/
theorem read_formatBytes {m : Memory} (hw : m.wf = true) (identity : Word32) (blocks a : Nat) (ha : 512 ≤ a) :
    (formatBytes identity blocks m).read a = if a < 65 * 512 then Config.blankByte else m.read a := by
  rw [formatBytes, Memory.read_writeBytes _ _ _ (Memory.clear_wf _ _ hw), labelBytes_length, if_neg (by omega), Memory.read_clear]
  refine if_congr ?_ rfl rfl
  rw [blockAddress, Config.blockBytes]
  omega

theorem cardIndex_formatted {m : Memory} (hw : m.wf = true) (identity : Word32) (blocks : Nat) {e : IndexEntry}
    (he : e ∈ cardIndex (formatBytes identity blocks m)) : e.kind = 0 := by
  obtain ⟨p, hp, rfl⟩ := List.mem_map.mp he
  have hp' : p < 1024 := List.mem_range.mp hp
  have haddress : indexAddress (p + 1) = 512 + 32 * p := by simp [indexAddress, blockAddress, Config.blockBytes]
  have hblank : (formatBytes identity blocks m).readBytes (indexAddress (p + 1)) 32 = zeros 32 :=
    readBytes_blank fun i hi => by
      rw [read_formatBytes hw _ _ _ (by rw [haddress]; omega), if_pos (by rw [haddress]; omega)]
  rw [cardIndexEntry, hblank]
  rfl

namespace State

variable {s : State} {socket : Byte}

/-! ## The tables -/

theorem rePlace_held (h : s.member.state ≠ .ready ∨ s.ring.roster = []) : s.rePlace = s := by
  obtain hstate | hempty := h
  · have hno : (s.card.state == .ready && s.member.state == .ready) = false := by simp [hstate]
    unfold rePlace
    rw [hno]
    split <;> rfl
  · exact rePlace_empty hempty

theorem namesSocket_false (h : ∀ k, s.card.letter = some k → socketCode k ≠ socket) : s.namesSocket socket = false := by
  rw [namesSocket]
  cases hl : s.card.letter with
  | none => rfl
  | some k => simpa using h k hl

theorem namesSocket_true {k : Socket} (hl : s.card.letter = some k) (hk : socketCode k = socket) : s.namesSocket socket = true := by
  simp [namesSocket, hl, hk]

theorem actFormat_elsewhere (h : s.namesSocket socket = false) : actFormat socket s = (s, .refused .notMember) := by
  rw [actFormat, h]
  rfl

theorem actEject_elsewhere (h : s.namesSocket socket = false) : actEject socket s = (s, .refused .notMember) := by
  rw [actEject, h]
  rfl

theorem actFormat_noCard (h : s.namesSocket socket = true) (hst : s.card.state = .empty ∨ s.card.state = .released ∨ s.card.state = .failed) :
    actFormat socket s = (s, .refused .noCard) := by
  rw [actFormat, h]
  obtain hst | hst | hst := hst <;> rw [hst] <;> rfl

theorem actFormat_busy (h : s.namesSocket socket = true)
    (hst : s.card.state = .mounting ∨ s.card.state = .formatting ∨ s.card.state = .ejecting ∨
      (s.card.state = .ready ∧ (s.card.placements ≠ [] ∨ s.card.writes ≠ []))) : actFormat socket s = (s, .refused .busy) := by
  rw [actFormat, h]
  obtain hst | hst | hst | ⟨hst, hused⟩ := hst
  · rw [hst]; rfl
  · rw [hst]; rfl
  · rw [hst]; rfl
  · have hno : (s.card.placements.isEmpty && s.card.writes.isEmpty) = false := by
      obtain h | h := hused <;> simp [h]
    rw [hst, hno]
    rfl

theorem actFormat_begins (h : s.namesSocket socket = true)
    (hst : s.card.state = .unformatted ∨ (s.card.state = .ready ∧ s.card.placements = [] ∧ s.card.writes = [])) :
    actFormat socket s = (s.beginFormat, .done) := by
  rw [actFormat, h]
  obtain hst | ⟨hst, hp, hw⟩ := hst
  · rw [hst]; rfl
  · rw [hst, hp, hw]; rfl

theorem beginFormat_eq {m : Medium} (hm : s.card.medium = some m) : s.beginFormat = { s with
    card := { s.card with
      state := .formatting
      roll := some { identity := formatIdentity s.clock.linkTime, blocks := formatBlocks m, index := 0, write := 65 }
      medium := some { m with bytes := m.bytes.writeBytes 0 (labelBytes 0 (formatIdentity s.clock.linkTime) (formatBlocks m)) } }
    notices := s.notices.raise (.cardState s.card.letter .formatting 0#32 0#16 65#32) } := by
  rw [beginFormat, hm]
  rfl

theorem actEject_noCard (h : s.namesSocket socket = true) (hst : s.card.state = .empty ∨ s.card.state = .failed) :
    actEject socket s = (s, .refused .noCard) := by
  rw [actEject, h]
  obtain hst | hst := hst <;> rw [hst] <;> rfl

theorem actEject_busy (h : s.namesSocket socket = true) (hst : s.card.state = .mounting ∨ s.card.state = .formatting) :
    actEject socket s = (s, .refused .busy) := by
  rw [actEject, h]
  obtain hst | hst := hst <;> rw [hst] <;> rfl

theorem actEject_again (h : s.namesSocket socket = true) (hst : s.card.state = .ejecting ∨ s.card.state = .released) :
    actEject socket s = (s, .done) := by
  rw [actEject, h]
  obtain hst | hst := hst <;> rw [hst] <;> rfl

theorem actEject_unformatted (h : s.namesSocket socket = true) (hst : s.card.state = .unformatted) :
    actEject socket s = (s.changeCard .released none, .done) := by
  rw [actEject, h, hst]
  rfl

theorem actEject_ready (h : s.namesSocket socket = true) (hst : s.card.state = .ready) :
    actEject socket s = ((s.changeCard .ejecting s.card.roll).ejected, .done) := by
  rw [actEject, h, hst, ← ejectTest_eq]
  rfl

theorem changeCard_released (s : State) : s.changeCard .released none = { s with
    card := { s.card with state := .released, roll := none }
    notices := s.notices.raise (.cardState s.card.letter .released 0#32 0#16 0#32) } := rfl

theorem changeCard_ejecting (s : State) : s.changeCard .ejecting s.card.roll = { s with
    card := { s.card with state := .ejecting }, notices := s.notices.raise s.card.ejectingNotice } := by
  unfold changeCard raiseCardState Card.reported Card.ejectingNotice onCard
  dsimp only
  cases s.card.roll <;> rfl

/-! ## The end of a format -/

theorem exec_formatComplete (hc : s.calm) : exec .formatComplete s = .next s.formatDone := event_of_calm _ s hc

theorem formatDone_held (h : s.card.state ≠ .formatting) : s.formatDone = s := by
  unfold formatDone
  split
  · exact if_neg h
  · rfl

theorem formatDone_ends {m : Medium} {r : Roll} (h : s.card.state = .formatting) (hm : s.card.medium = some m) (hr : s.card.roll = some r)
    (hno : s.member.state ≠ .ready ∨ s.ring.roster = []) : s.formatDone = { s with
      card := { s.card with state := .ready, medium := some { m with bytes := formatBytes r.identity r.blocks m.bytes } }
      notices := s.notices.raise
        (.cardState s.card.letter .ready r.identity (BitVec.ofNat 16 r.index) (BitVec.ofNat 32 r.write)) } := by
  unfold formatDone
  rw [hm, hr]
  dsimp only
  rw [if_pos h]
  refine Eq.trans (rePlace_held ?_) ?_
  · exact hno
  · unfold changeCard raiseCardState Card.reported onCard
    dsimp only
    rw [← hr]
    rfl

end State

/-- Settles O48: the rows of the two tables, and the bytes that a format writes. -/
theorem formatAndEjectFollowTheirTables : Obligations.FormatAndEjectFollowTheirTables := by
  intro h socket m s hc
  have formatCode : State.plainCode 0x24#8 := by unfold State.plainCode; decide
  have ejectCode : State.plainCode 0x25#8 := by unfold State.plainCode; decide
  refine ⟨fun hin => ⟨fun hno => ⟨?_, ?_⟩, fun k hl hk => ?_⟩, fun hst => ?_, fun r hst hm hr hplace hw => ?_⟩
  · exact State.event_plain (State.actFormat_elsewhere (State.namesSocket_false hno)) formatCode hin hc
  · exact State.event_plain (State.actEject_elsewhere (State.namesSocket_false hno)) ejectCode hin hc
  · have hnames := State.namesSocket_true hl hk
    refine ⟨fun hst => ?_, fun hst => ?_, fun identity hst hm hid => ?_, fun hst => ?_, fun hst => ?_, fun hst => ?_, fun hst => ?_,
      fun hst hused => ?_, fun hst hp hw => ?_⟩
    · exact State.event_plain (State.actFormat_noCard hnames hst) formatCode hin hc
    · exact State.event_plain (State.actFormat_busy hnames hst) formatCode hin hc
    · subst hid
      refine (State.event_plain (State.actFormat_begins hnames hst) formatCode hin hc).trans ?_
      rw [State.beginFormat_eq hm]
      rfl
    · exact State.event_plain (State.actEject_noCard hnames hst) ejectCode hin hc
    · exact State.event_plain (State.actEject_busy hnames hst) ejectCode hin hc
    · exact State.event_plain (State.actEject_again hnames hst) ejectCode hin hc
    · exact State.event_plain (State.actEject_unformatted hnames hst) ejectCode hin hc
    · refine (State.event_plain (State.actEject_ready hnames hst) ejectCode hin hc).trans ?_
      have hkept : (s.changeCard .ejecting s.card.roll).ejected = s.changeCard .ejecting s.card.roll :=
        if_neg fun hall => by
          obtain ⟨-, hp, hw⟩ := hall
          exact hused.elim (fun h => h hp) fun h => h hw
      rw [hkept, State.changeCard_ejecting]
      rfl
    · refine (State.event_plain (State.actEject_ready hnames hst) ejectCode hin hc).trans ?_
      have hgone : (s.changeCard .ejecting s.card.roll).ejected = (s.changeCard .ejecting s.card.roll).changeCard .released none :=
        if_pos ⟨rfl, hp, hw⟩
      rw [hgone, State.changeCard_ejecting]
      rfl
  · rw [State.exec_formatComplete hc, State.formatDone_held hst]
  · refine ⟨_, { m with bytes := formatBytes r.identity r.blocks m.bytes },
      (State.exec_formatComplete hc).trans (congrArg _ (State.formatDone_ends hst hm hr hplace)), rfl, rfl, rfl, ?_, fun e he => ?_,
      fun a ha => ?_, rfl⟩
    · dsimp only
      rw [formatBytes]
      have hlabel := cardLabel_written (Memory.clear_wf (blockAddress 1) (64 * Config.blockBytes) hw) labelMagic r.identity r.blocks (by decide)
      rw [hlabel]
      rfl
    · dsimp only at he
      have hblank := cardIndex_formatted hw r.identity r.blocks he
      exact hblank
    · dsimp only
      have hread := read_formatBytes hw r.identity r.blocks a (by omega)
      rw [hread, if_neg (by omega)]

end Sys2Proof.Machine
end

section
/-! PROOF. The mount, the write error and the removal (R134-R138, R142, R143). -/

namespace Sys2Proof.Machine

/-! ## The index read at a mount -/

/-- The entry at a position, or what stands before any, is the last one that is not Blank among those read so far. -/
inductive LastRead (index : List IndexEntry) (p : Nat) (a : IndexScan) : Prop
  | none (blank : ∀ j e, j < p → index[j]? = some e → e.kind = 0) (stop : a.stop = 65) (cursor : a.cursor = 0)
      (parted : a.blank = true ↔ 0 < p)
  | last (i : Nat) (q : IndexEntry) (before : i < p) (entry : index[i]? = some q) (kind : q.kind ≠ 0)
      (blank : ∀ j e, i < j → j < p → index[j]? = some e → e.kind = 0) (stop : a.stop = q.first + q.blocks) (cursor : a.cursor = i + 1)
      (parted : a.blank = true ↔ i + 1 < p)

/-- What the scan of an index has found once it has read the positions below `p`. -/
structure Scanned (limit : Nat) (index : List IndexEntry) (p : Nat) (a : IndexScan) : Prop where
  fault : a.fault = true ↔ ∃ j, j < p ∧ indexFault limit index j
  last : LastRead index p a

section

variable {limit p : Nat} {index : List IndexEntry} {a : IndexScan} {e : IndexEntry}

theorem Scanned.start (limit : Nat) (index : List IndexEntry) : Scanned limit index 0 {} where
  fault := by simp
  last := .none (by simp) rfl rfl (by simp)

/-- The faults at a position after Blank entries alone. -/
theorem indexFault_first (he : index[p]? = some e) (hk : e.kind ≠ 0) (hblank : ∀ j e, j < p → index[j]? = some e → e.kind = 0) :
    indexFault limit index p ↔ 2 < e.kind ∨ e.first < 65 ∨ limit < e.first + e.blocks ∨ (p = 0 ∧ e.first ≠ 65) := by
  constructor
  · rintro ⟨e', he', -, h⟩
    cases Option.some.inj (he.symm.trans he')
    obtain h | h | h | h | ⟨i, q, hi, hq, hqk, -⟩ := h
    · exact .inl h
    · exact .inr (.inl h)
    · exact .inr (.inr (.inl h))
    · exact .inr (.inr (.inr h))
    · exact absurd (hblank i q hi hq) hqk
  · rintro (h | h | h | h)
    · exact ⟨e, he, hk, .inl h⟩
    · exact ⟨e, he, hk, .inr (.inl h)⟩
    · exact ⟨e, he, hk, .inr (.inr (.inl h))⟩
    · exact ⟨e, he, hk, .inr (.inr (.inr (.inl h)))⟩

/-- The faults at a position after an entry that is not Blank. -/
theorem indexFault_after {i : Nat} {q : IndexEntry} (he : index[p]? = some e) (hk : e.kind ≠ 0) (hi : i < p) (hq : index[i]? = some q)
    (hqk : q.kind ≠ 0) (hblank : ∀ j e, i < j → j < p → index[j]? = some e → e.kind = 0) :
    indexFault limit index p ↔ 2 < e.kind ∨ e.first < 65 ∨ limit < e.first + e.blocks ∨ e.first < q.first + q.blocks ∨
      (i + 1 = p ∧ e.first ≠ q.first + q.blocks) := by
  constructor
  · rintro ⟨e', he', -, h⟩
    cases Option.some.inj (he.symm.trans he')
    obtain h | h | h | ⟨h, -⟩ | ⟨i', q', hi', hq', hqk', hblank', h⟩ := h
    · exact .inl h
    · exact .inr (.inl h)
    · exact .inr (.inr (.inl h))
    · omega
    · obtain rfl : i = i' := by
        obtain hlt | heq | hlt := Nat.lt_trichotomy i i'
        · exact absurd (hblank i' q' hlt hi' hq') hqk'
        · exact heq
        · exact absurd (hblank' i q hlt hi hq) hqk
      cases Option.some.inj (hq.symm.trans hq')
      exact .inr (.inr (.inr h))
  · rintro (h | h | h | h)
    · exact ⟨e, he, hk, .inl h⟩
    · exact ⟨e, he, hk, .inr (.inl h)⟩
    · exact ⟨e, he, hk, .inr (.inr (.inl h))⟩
    · exact ⟨e, he, hk, .inr (.inr (.inr (.inr ⟨i, q, hi, hq, hqk, fun j e hij hjp => hblank j e hij hjp, h⟩)))⟩

theorem exists_lt_succ (P : Nat → Prop) (p : Nat) : (∃ j, j < p + 1 ∧ P j) ↔ (∃ j, j < p ∧ P j) ∨ P p := by
  simp only [Nat.lt_succ_iff_lt_or_eq, or_and_right, exists_or, exists_eq_left]

/-- A Blank entry is no fault, and parts the entries around it. -/
theorem Scanned.blank (h : Scanned limit index p a) (he : index[p]? = some e) (hk : e.kind = 0) :
    Scanned limit index (p + 1) (a.next limit p e) := by
  rw [IndexScan.next, if_pos hk]
  have hno : ¬indexFault limit index p := by
    rintro ⟨e', he', hk', -⟩
    cases Option.some.inj (he.symm.trans he')
    exact hk' hk
  refine ⟨by rw [exists_lt_succ, or_iff_left hno]; exact h.fault, ?_⟩
  have hextend : ∀ j e', j < p + 1 → ¬j < p → index[j]? = some e' → e'.kind = 0 := fun j e' hj hj' hje => by
    obtain rfl : j = p := by omega
    cases Option.some.inj (he.symm.trans hje)
    exact hk
  cases h.last with
  | none hblank hstop hcursor hparted =>
    refine .none (fun j e' hj hje => ?_) hstop hcursor (by simp)
    by_cases hjp : j < p
    · exact hblank j e' hjp hje
    · exact hextend j e' hj hjp hje
  | last i q hi hq hqk hblank hstop hcursor hparted =>
    refine .last i q (by omega) hq hqk (fun j e' hij hj hje => ?_) hstop hcursor (by simp; omega)
    by_cases hjp : j < p
    · exact hblank j e' hij hjp hje
    · exact hextend j e' hj hjp hje

/-- An entry that is not Blank is judged against the last one before it. -/
theorem Scanned.entry (h : Scanned limit index p a) (he : index[p]? = some e) (hk : e.kind ≠ 0) :
    Scanned limit index (p + 1) (a.next limit p e) := by
  rw [IndexScan.next, if_neg hk]
  refine ⟨?_, .last p e (by omega) he hk (fun j _ hpj hj => by omega) rfl rfl (by simp)⟩
  rw [exists_lt_succ, ← h.fault]
  cases h.last with
  | none hblank hstop hcursor hparted =>
    have hb : a.blank = false ↔ p = 0 := by
      rw [← Bool.not_eq_true, hparted]
      omega
    rw [indexFault_first he hk hblank, hstop]
    simp only [Bool.or_eq_true, Bool.and_eq_true, decide_eq_true_eq, bne_iff_ne, ne_eq, Bool.not_eq_true', hb, or_assoc]
    tauto
  | last i q hi hq hqk hblank hstop hcursor hparted =>
    have hb : a.blank = false ↔ i + 1 = p := by
      rw [← Bool.not_eq_true, hparted]
      omega
    rw [indexFault_after he hk hi hq hqk hblank, hstop]
    simp only [Bool.or_eq_true, Bool.and_eq_true, decide_eq_true_eq, bne_iff_ne, ne_eq, Bool.not_eq_true', hb, or_assoc]
    tauto

theorem Scanned.next (h : Scanned limit index p a) (he : index[p]? = some e) : Scanned limit index (p + 1) (a.next limit p e) := by
  by_cases hk : e.kind = 0
  · exact h.blank he hk
  · exact h.entry he hk

theorem Scanned.scan {rest : List IndexEntry} (h : Scanned limit index p a) (hp : p ≤ index.length) (hrest : index.drop p = rest) :
    Scanned limit index index.length (scanIndex limit p rest a) := by
  induction rest generalizing p a with
  | nil =>
    obtain rfl : p = index.length := Nat.le_antisymm hp (List.drop_eq_nil_iff.mp hrest)
    exact h
  | cons e rest ih =>
    have he : index[p]? = some e := by
      rw [← List.head?_drop, hrest]
      rfl
    have hlt : p < index.length := (List.getElem?_eq_some_iff.mp he).1
    exact ih (h.next he) hlt (by rw [← List.tail_drop, hrest]; rfl)

/-- The whole index read. -/
theorem scanned_index (limit : Nat) (index : List IndexEntry) : Scanned limit index index.length (scanIndex limit 0 index {}) :=
  (Scanned.start limit index).scan (Nat.zero_le _) rfl

theorem scanIndex_fault : (scanIndex limit 0 index {}).fault = true ↔ ∃ j, indexFault limit index j := by
  rw [(scanned_index limit index).fault]
  refine exists_congr fun j => and_iff_right_of_imp fun ⟨e, he, _⟩ => (List.getElem?_eq_some_iff.mp he).1

theorem scanIndex_blank (h : ∀ e ∈ index, e.kind = 0) : (scanIndex limit 0 index {}).fault = false ∧
    (scanIndex limit 0 index {}).stop = 65 ∧ (scanIndex limit 0 index {}).cursor = 0 := by
  refine ⟨?_, ?_⟩
  · rw [← Bool.not_eq_true, scanIndex_fault]
    rintro ⟨j, e, he, hk, -⟩
    exact hk (h e (List.mem_of_getElem? he))
  · cases (scanned_index limit index).last with
    | none hblank hstop hcursor hparted => exact ⟨hstop, hcursor⟩
    | last i q hi hq hqk hblank hstop hcursor hparted => exact absurd (h q (List.mem_of_getElem? hq)) hqk

theorem scanIndex_last {i : Nat} {last : IndexEntry} (hl : index[i]? = some last) (hk : last.kind ≠ 0)
    (hblank : ∀ j e, i < j → index[j]? = some e → e.kind = 0) :
    (scanIndex limit 0 index {}).stop = last.first + last.blocks ∧ (scanIndex limit 0 index {}).cursor = i + 1 := by
  have hi : i < index.length := (List.getElem?_eq_some_iff.mp hl).1
  cases (scanned_index limit index).last with
  | none hall hstop hcursor hparted => exact absurd (hall i last hi hl) hk
  | last i' q hi' hq hqk hblank' hstop hcursor hparted =>
    obtain rfl : i = i' := by
      obtain hlt | heq | hlt := Nat.lt_trichotomy i i'
      · exact absurd (hblank i' q hlt hq) hqk
      · exact heq
      · exact absurd (hblank' i last hlt hi hl) hk
    cases Option.some.inj (hl.symm.trans hq)
    exact ⟨hstop, hcursor⟩

end

namespace State

variable {s : State} {m : Medium}

/-! ## The mount -/

theorem minimumRoll_eq (s : State) : s.minimumRoll = 65 + shotExtent s.settings (max 2 s.member.table.length) := by
  have hmembers : s.mountMembers = max 2 s.member.table.length := by
    unfold mountMembers
    split <;> omega
  rw [minimumRoll, hmembers]

theorem mountOutcome_small (h : m.capacity < 65 + shotExtent s.settings (max 2 s.member.table.length)) : s.mountOutcome m = (.failed, none) := by
  rw [mountOutcome, minimumRoll_eq, if_pos h]

theorem mountOutcome_unlabelled (h : 65 + shotExtent s.settings (max 2 s.member.table.length) ≤ m.capacity) (hl : labelValid m = false) :
    s.mountOutcome m = (.unformatted, none) := by
  rw [mountOutcome, minimumRoll_eq, if_neg (by omega), hl]
  rfl

/-- The outcome for a valid label is what the scan of the index finds. -/
theorem mountOutcome_labelled (h : 65 + shotExtent s.settings (max 2 s.member.table.length) ≤ m.capacity) (hl : labelValid m = true) :
    s.mountOutcome m = if (scanIndex (cardLabel m.bytes).2.2.2 0 (cardIndex m.bytes) {}).fault then (.failed, none) else
      (.ready, some { identity := BitVec.ofNat 32 (cardLabel m.bytes).2.2.1, blocks := (cardLabel m.bytes).2.2.2,
                      index := (scanIndex (cardLabel m.bytes).2.2.2 0 (cardIndex m.bytes) {}).cursor,
                      write := (scanIndex (cardLabel m.bytes).2.2.2 0 (cardIndex m.bytes) {}).stop }) := by
  rw [mountOutcome, minimumRoll_eq, if_neg (by omega), if_neg (by rw [hl]; decide)]

theorem exec_mountComplete (hc : s.calm) : exec .mountReadComplete s = .next s.mountDone := event_of_calm _ s hc

theorem exec_mountError (hc : s.calm) : exec .mountReadError s = .next s.mountError := event_of_calm _ s hc

theorem mountDone_held (h : s.card.state ≠ .mounting) : s.mountDone = s := by
  unfold mountDone
  split
  · rfl
  · exact if_neg h

theorem mountDone_settles (h : s.card.state = .mounting) (hm : s.card.medium = some m) (hno : s.member.state ≠ .ready ∨ s.ring.roster = []) :
    s.mountDone = s.changeCard (s.mountOutcome m).1 (s.mountOutcome m).2 := by
  unfold mountDone
  rw [hm]
  dsimp only
  rw [if_pos h]
  refine rePlace_held ?_
  exact hno

/-- A card that fails its mount, or whose mount is broken off. -/
theorem changeCard_failed (s : State) : s.changeCard .failed none = { s with
    card := { s.card with state := .failed, roll := none }
    notices := s.notices.raise (.cardState s.card.letter .failed 0#32 0#16 0#32) } := rfl

theorem changeCard_ready (r : Roll) (s : State) : s.changeCard .ready (some r) = { s with
    card := { s.card with state := .ready, roll := some r }
    notices := s.notices.raise (.cardState s.card.letter .ready r.identity (BitVec.ofNat 16 r.index) (BitVec.ofNat 32 r.write)) } := rfl

/-! ## Insertion -/

theorem exec_cardInserted (m : Medium) (hc : s.calm) : exec (.cardInserted m) s = .next (s.insertCard m) := event_of_calm _ s hc

theorem insertCard_mounts (m : Medium) (hk : s.cardStation = true) (hm : s.card.medium = none) (hst : s.card.state = .empty)
    (hp : s.power.state ≠ .sleep) : s.insertCard m = { s with
      card := { s.card with medium := some m, state := .mounting, roll := none }
      notices := s.notices.raise (.cardState s.card.letter .mounting 0#32 0#16 0#32) } := by
  unfold insertCard
  rw [if_pos (by rw [hk, hm]; rfl), if_neg hp, hst]
  rfl

theorem insertCard_ignored (m : Medium) (h : s.cardStation = false ∨ s.card.medium ≠ none) : s.insertCard m = s := by
  refine if_neg ?_
  obtain h | h := h
  · simp [h]
  · simp [h]

/-! ## Write errors and removals -/

/-- An Unplace goes out for each of the shots. -/
theorem foldl_broadcast {α : Type} (msg : α → Msg) (l : List α) (s : State) : l.foldl (fun t n => t.broadcast (msg n)) s =
    { s with link := l.foldl (fun k n => s.member.place { dst := 15#4, msg := msg n } k) s.link } := by
  induction l generalizing s with
  | nil => rfl
  | cons n l ih => exact ih (s.broadcast (msg n))

theorem dropAll_eq (reason : UnplaceReason) (s : State) : s.dropAll reason = { s with
    card := { s.card with placements := [], writes := [], grants := [], waiting := [] }, link := s.linkDropping reason } := by
  unfold dropAll linkDropping
  cases s.card.letter with
  | none => rfl
  | some k =>
    dsimp only
    rw [foldl_broadcast fun n => .unplace n k reason]
    rfl

theorem exec_writeError (hc : s.calm) : exec .cardWriteError s = .next s.writeError := event_of_calm _ s hc

theorem exec_cardRemoved (hc : s.calm) : exec .cardRemoved s = .next s.removeCard := event_of_calm _ s hc

theorem writing_iff : s.writing = true ↔
    ((s.card.state = .ready ∨ s.card.state = .ejecting) ∧ s.card.writes ≠ []) ∨ s.card.state = .formatting := by
  simp [writing]

theorem writeError_fails (h : s.writing = true) : s.writeError = State.sleepTest { s with
    card := { letter := s.card.letter, medium := s.card.medium, state := .failed }
    link := s.linkDropping .cardFailed
    notices := s.notices.raise (.cardState s.card.letter .failed 0#32 0#16 0#32) } := by
  rw [writeError, h]
  exact congrArg sleepTest (dropAll_eq _ (s.changeCard .failed none))

theorem removeCard_drops (hm : s.card.medium ≠ none) (hst : s.card.state ≠ .empty) : s.removeCard = State.sleepTest { s with
    card := { letter := s.card.letter }
    link := s.linkDropping .removed
    notices := s.notices.raise (.cardState s.card.letter .empty 0#32 0#16 0#32) } := by
  have hne : (s.card.state != .empty) = true := by simpa using hst
  unfold removeCard
  rw [if_pos (Option.isSome_iff_ne_none.mpr hm), hne]
  exact congrArg sleepTest (dropAll_eq _ _)

theorem removeCard_empty (hm : s.card.medium ≠ none) (hst : s.card.state = .empty) :
    s.removeCard = { s with card := { s.card with medium := none } } := by
  unfold removeCard
  rw [if_pos (Option.isSome_iff_ne_none.mpr hm), hst]
  rfl

theorem removeCard_none (hm : s.card.medium = none) : s.removeCard = s := by
  unfold removeCard
  rw [hm]
  rfl

end State

open State in
/-- Settles O47: the outcomes of a mount by what `scanIndex` finds, and `dropAll`. -/
theorem cardIsMountedAndDropped : Obligations.CardIsMountedAndDropped := by
  refine ⟨fun m s hc => ⟨fun hk hm hst hp => ?_, fun h => ?_, fun hst => ⟨?_, ?_⟩, fun hst => ?_, fun hst hm hno => ?_⟩,
    fun s hc => ⟨fun h => ?_, fun hf h => ?_, fun hm hst => ?_, fun hm hst => ?_, fun hm => ?_⟩⟩
  · rw [exec_cardInserted m hc, insertCard_mounts m hk hm hst hp]
  · rw [exec_cardInserted m hc, insertCard_ignored m h]
  · rw [exec_mountComplete hc, mountDone_held hst]
  · have hno : (s.card.state == .mounting) = false := by simpa using hst
    rw [exec_mountError hc, mountError, hno]
    rfl
  · rw [exec_mountError hc, mountError, hst]
    rfl
  · have hfault : 65 + shotExtent s.settings (max 2 s.member.table.length) ≤ m.capacity → labelValid m = true →
        (∃ j, indexFault (cardLabel m.bytes).2.2.2 (cardIndex m.bytes) j) → exec .mountReadComplete s = .next
          { s with
            card := { s.card with state := .failed, roll := none }
            notices := s.notices.raise (.cardState s.card.letter .failed 0#32 0#16 0#32) } := fun hroll hlabel hj => by
      rw [exec_mountComplete hc, mountDone_settles hst hm hno, mountOutcome_labelled hroll hlabel, if_pos (scanIndex_fault.mpr hj)]
      rfl
    refine ⟨fun hroll => ?_, fun hroll hlabel => ?_, fun hroll hlabel hblank => ?_, fun hroll hlabel hbad => ?_, hfault,
      fun i last hroll hlabel hgood hlast hk hblank => ?_⟩
    · rw [exec_mountComplete hc, mountDone_settles hst hm hno, mountOutcome_small hroll]
      rfl
    · rw [exec_mountComplete hc, mountDone_settles hst hm hno, mountOutcome_unlabelled hroll hlabel]
      rfl
    · obtain ⟨hnofault, hstop, hcursor⟩ := scanIndex_blank (limit := (cardLabel m.bytes).2.2.2) hblank
      rw [exec_mountComplete hc, mountDone_settles hst hm hno, mountOutcome_labelled hroll hlabel, hnofault, hstop, hcursor]
      rfl
    · refine hfault hroll hlabel ?_
      obtain ⟨e, he, hwhy⟩ := hbad
      obtain ⟨j, hj, hej⟩ := List.mem_iff_getElem.mp he
      have hget : (cardIndex m.bytes)[j]? = some e := List.getElem?_eq_some_iff.mpr ⟨hj, hej⟩
      obtain h | ⟨hk, h | h⟩ := hwhy
      · exact ⟨j, e, hget, by omega, .inl h⟩
      · exact ⟨j, e, hget, hk, .inr (.inl h)⟩
      · exact ⟨j, e, hget, hk, .inr (.inr (.inl h))⟩
    · have hnofault : (scanIndex (cardLabel m.bytes).2.2.2 0 (cardIndex m.bytes) {}).fault = false := by
        rw [← Bool.not_eq_true, scanIndex_fault]
        exact fun ⟨j, hj⟩ => hgood j hj
      obtain ⟨hstop, hcursor⟩ := scanIndex_last (limit := (cardLabel m.bytes).2.2.2) hlast hk hblank
      rw [exec_mountComplete hc, mountDone_settles hst hm hno, mountOutcome_labelled hroll hlabel, hnofault, hstop, hcursor]
      rfl
  · rw [exec_writeError hc, writeError_fails (writing_iff.mpr h)]
  · have hno : s.writing = false := by
      rw [← Bool.not_eq_true, writing_iff]
      rintro (⟨hst, hw⟩ | hst)
      · obtain ⟨hr, he⟩ | hempty := h
        · exact hst.elim hr he
        · exact hw hempty
      · exact hf hst
    rw [exec_writeError hc, writeError, hno]
    rfl
  · rw [exec_cardRemoved hc, removeCard_drops hm hst]
  · rw [exec_cardRemoved hc, removeCard_empty hm hst]
  · rw [exec_cardRemoved hc, removeCard_none hm]

end Sys2Proof.Machine
end

section
/-! PROOF. Segments taken (R162-R165). -/

namespace Sys2Proof.Machine

/-- An accepted Segment: one more unwritten buffer of its placement with its block write queued, and its member's progress changed by
`f`. -/
def State.acceptedWith (p : Placed) (m : Progress) (b : SegmentBody) (f : Progress → Progress) (u : State) : State :=
  { u with card := { u.card.updPlaced p.shot (fun q => Placed.updProgress m.member f { q with unwritten := q.unwritten + 1 }) with
      writes := u.card.writes ++ [blockWrite u.settings m.member p b] } }

/-- What an accepted Segment makes of its member's progress before the close fields (R163). -/
def Progress.accept (m : Progress) (b : SegmentBody) (r : Progress) : Progress :=
  { r with expected := m.expected + b.payload.length, running := onesAdd m.running b.sum }

/-- A placement whose members' progress has changed writes the same blocks. -/
theorem blockWrite_progress (st : Settings) (m : Node) (p : Placed) (b : SegmentBody) (f : Progress → Progress) (k : Node)
    (hf : ∀ r, (f r).member = r.member) : blockWrite st m (p.updProgress k f) b = blockWrite st m p b := by
  have hposition : (p.updProgress k f).position m = p.position m := by
    unfold Placed.position Placed.updProgress
    dsimp only
    generalize p.progress = l
    induction l with
    | nil => rfl
    | cons r l ih =>
      rw [updFirst]
      split
      · rw [List.findIdx_cons, List.findIdx_cons, hf]
      · rw [List.findIdx_cons, List.findIdx_cons, ih]
  have hblock : (p.updProgress k f).blockOf st m b.offset.toNat = p.blockOf st m b.offset.toNat := by
    rw [Placed.blockOf, Placed.blockOf, hposition]
    rfl
  rw [blockWrite, blockWrite, hblock]
  rfl

theorem Placed.updProgress_find {p : Placed} {k : Node} {m : Progress} {f : Progress → Progress} (hf : ∀ r, (f r).member = r.member)
    (h : p.progress? k = some m) : (p.updProgress k f).progress? k = some (f m) :=
  updFirst_find _ _ (fun r => by rw [hf]) _ _ h

theorem Placed.progress?_member {p : Placed} {k : Node} {m : Progress} (h : p.progress? k = some m) : m.member = k := by
  simpa using List.find?_some h

theorem Card.placed?_shot {c : Card} {n : Shot} {p : Placed} (h : c.placed? n = some p) : p.shot = n := by
  simpa using List.find?_some h

namespace State

variable {s u : State} {p : Placed} {m : Progress} {b : SegmentBody} {g : GrantRecord} {source : Node} {k : Socket}

/-! ## The Segment and its grant -/

theorem exec_segmentTaken (source : Node) (b : SegmentBody) (ht : s.takesFrames) (hc : s.calm) :
    exec (.segmentTaken source b) s = .next (s.doIf s.cardStation (cardSegment source b)) := by
  refine (event_of_calm _ s hc).trans (congrArg _ ?_)
  rw [takeSegment, doIf, doIf, take_takesFrames _ ht (by decide)]

theorem cardSegment_disregarded (h : s.card.placed? b.shot = none ∨ (∃ p, s.card.placed? b.shot = some p ∧ p.progress? source = none) ∨
    s.card.grant? source = none ∨ b.tile ≠ source.setWidth 8 ∨ (∃ g, s.card.grant? source = some g ∧ (g.shot ≠ b.shot ∨ g.unfilled = 0))) :
    s.cardSegment source b = s := by
  unfold cardSegment
  split
  next p g hp hg =>
    split
    · rfl
    next m hm =>
      refine if_neg ?_
      rintro ⟨htile, hshot, hunfilled⟩
      rw [hp, hg] at h
      obtain h | ⟨q, hq, hnone⟩ | h | h | ⟨g', hg', h⟩ := h
      · cases h
      · cases hq
        rw [hm] at hnone
        cases hnone
      · cases h
      · exact h htile
      · cases hg'
        obtain h | h := h
        · exact h hshot
        · omega
  · rfl

theorem cardSegment_spends (hp : s.card.placed? b.shot = some p) (hm : p.progress? source = some m) (hg : s.card.grant? source = some g)
    (htile : b.tile = source.setWidth 8) (hshot : g.shot = b.shot) (hunfilled : 0 < g.unfilled) :
    s.cardSegment source b = (s.onCard (Card.spendGrant source)).judgeSegment p m b := by
  unfold cardSegment
  rw [hp, hg]
  dsimp only
  rw [hm]
  exact if_pos ⟨htile, hshot, hunfilled⟩

/-! ## The judgement -/

theorem judgeSegment_over (h : p.phase = .committing ∨ m.closed = true) : u.judgeSegment p m b = u.serve := if_pos h

/-- A Segment with the open flag at offset 0 restarts a member that has some of its tile. -/
theorem judgeSegment_restarts (hp : p.phase = .filling) (hm : m.closed = false) (ho : b.openFlag = true) (h0 : b.offset = 0#32)
    (he : m.expected ≠ 0) : u.judgeSegment p m b =
      (u.updProgress p.shot m.member Progress.restart).judgeSegment (p.updProgress m.member Progress.restart) m.restart b := by
  have hopen : ¬(p.phase = .committing ∨ m.closed = true) := by simp [hp, hm]
  have hopen' : ¬((p.updProgress m.member Progress.restart).phase = .committing ∨ m.restart.closed = true) := by
    rintro (h | h)
    · exact hopen (.inl h)
    · cases h
  have hyes : (b.openFlag && b.offset == 0#32 && m.expected != 0) = true := by simp [ho, h0, he]
  have hno : (b.openFlag && b.offset == 0#32 && m.restart.expected != 0) = false := by simp [Progress.restart]
  have hwrite : blockWrite u.settings m.member (p.updProgress m.member Progress.restart) b = blockWrite u.settings m.member p b :=
    blockWrite_progress _ _ _ _ _ _ fun _ => by rfl
  have haccept : (u.updProgress p.shot m.member Progress.restart).acceptSegment (p.updProgress m.member Progress.restart) m.restart b =
      (u.updProgress p.shot m.member Progress.restart).acceptSegment p m.restart b := by
    unfold acceptSegment
    dsimp only
    rw [show (u.updProgress p.shot m.member Progress.restart).settings = u.settings from rfl,
      show m.restart.member = m.member from rfl, hwrite]
    rfl
  unfold judgeSegment
  rw [if_neg hopen, if_neg hopen', hyes, hno]
  simp only [if_true, Bool.false_eq_true, if_false, doIf]
  rw [haccept]
  rfl

/-- A Segment that restarts nothing and is out of place is discarded. -/
theorem judgeSegment_misplaced (hp : p.phase = .filling) (hm : m.closed = false)
    (h : (b.offset.toNat ≠ m.expected ∧ (b.openFlag = false ∨ b.offset ≠ 0#32)) ∨ (b.offset.toNat = m.expected ∧ u.segmentFits b = false)) :
    u.judgeSegment p m b = u.serve := by
  have hopen : ¬(p.phase = .committing ∨ m.closed = true) := by simp [hp, hm]
  have hno : (b.openFlag && b.offset == 0#32 && m.expected != 0) = false := by
    obtain ⟨-, h | h⟩ | ⟨h, -⟩ := h
    · simp [h]
    · simp [h]
    · rw [← h]
      cases h0 : b.offset == 0#32 with
      | false => simp
      | true => simp [eq_of_beq h0]
  have hbad : b.offset.toNat ≠ m.expected ∨ badLength u.settings b = true := by
    obtain ⟨h, -⟩ | ⟨-, h⟩ := h
    · exact .inl h
    · exact .inr (by rw [badLength_eq, h]; rfl)
  unfold judgeSegment
  rw [if_neg hopen, hno]
  exact if_pos hbad

/-- A Segment in its place is checked by its sum. -/
theorem judgeSegment_fits (hp : p.phase = .filling) (hm : m.closed = false) (he : b.offset.toNat = m.expected)
    (hf : u.segmentFits b = true) : u.judgeSegment p m b =
      if segmentSumOk b then u.acceptSegment p m b else (u.failTile p m .segmentSum).serve := by
  have hopen : ¬(p.phase = .committing ∨ m.closed = true) := by simp [hp, hm]
  have hno : (b.openFlag && b.offset == 0#32 && m.expected != 0) = false := by
    rw [← he]
    cases h0 : b.offset == 0#32 with
    | false => simp
    | true => simp [eq_of_beq h0]
  have hgood : ¬(b.offset.toNat ≠ m.expected ∨ badLength u.settings b = true) := by
    rw [badLength_eq, hf]
    simp [he]
  unfold judgeSegment
  rw [if_neg hopen, hno]
  exact if_neg hgood

/-! ## Failure of a tile -/

theorem failTile_redo (reason : RedoReason) (hl : u.card.letter = some k) (h : m.redos < 3) : u.failTile p m reason =
    { u.updProgress p.shot m.member (fun q => { q with redos := q.redos + 1 }) with
      link := u.linkAfter 15#4 (.redo p.shot (m.member.setWidth 8) k reason) } := by
  unfold failTile
  rw [if_pos (show m.redos < Config.redoLimit from h), hl]
  rfl

theorem failTile_unplaces (reason : RedoReason) (hl : u.card.letter = some k) (h : 3 ≤ m.redos) : u.failTile p m reason =
    State.sleepTest (State.ejected (State.serve
      { u with
        card := { u.card.without p.shot with writes := cancelWrites (Write.ofPlaced p) u.card.writes }
        link := u.linkAfter 15#4 (.unplace p.shot k .sumFailure) })) := by
  unfold failTile
  rw [if_neg (show ¬m.redos < Config.redoLimit from Nat.not_lt.mpr h), unplaceSumFailure_eq p k u hl]

/-! ## Acceptance -/

theorem acceptedWith_updProgress (f h : Progress → Progress) (hf : ∀ r, (f r).member = r.member) :
    (u.acceptedWith p m b f).updProgress p.shot m.member h = u.acceptedWith p m b (fun r => h (f r)) := by
  have hcard := Card.updPlaced_updPlaced p.shot (fun q => Placed.updProgress m.member f { q with unwritten := q.unwritten + 1 })
    (Placed.updProgress m.member h) (fun _ => by rfl) (u.card.writes ++ [blockWrite u.settings m.member p b]) u.card
  have hprogress : (fun q : Placed => Placed.updProgress m.member h (Placed.updProgress m.member f { q with unwritten := q.unwritten + 1 })) =
      fun q => Placed.updProgress m.member (fun r => h (f r)) { q with unwritten := q.unwritten + 1 } :=
    funext fun q => Placed.updProgress_updProgress _ _ _ hf _
  rw [hprogress] at hcard
  exact congrArg (fun c => ({ u with card := c } : State)) hcard

/-- Two changes of progress that agree on the member's own are one. -/
theorem acceptedWith_congr (hp : u.card.placed? p.shot = some p) (hm : p.progress? m.member = some m) {f h : Progress → Progress}
    (hfh : f m = h m) : u.acceptedWith p m b f = u.acceptedWith p m b h := by
  have hplaced : u.card.updPlaced p.shot (fun q => Placed.updProgress m.member f { q with unwritten := q.unwritten + 1 }) =
      u.card.updPlaced p.shot (fun q => Placed.updProgress m.member h { q with unwritten := q.unwritten + 1 }) := by
    unfold Card.updPlaced
    rw [updFirst_congr _ _ (fun q => Placed.updProgress m.member h { q with unwritten := q.unwritten + 1 })]
    intro q hq
    cases Option.some.inj (hp.symm.trans hq)
    unfold Placed.updProgress
    rw [updFirst_congr _ f h]
    intro r hr
    cases Option.some.inj (hm.symm.trans hr)
    exact hfh
  rw [acceptedWith, hplaced]
  rfl

theorem acceptSegment_eq (p : Placed) (m : Progress) (b : SegmentBody) (u : State) : u.acceptSegment p m b =
    match b.close with
    | none => u.acceptedWith p m b (m.accept b)
    | some c => (u.acceptedWith p m b (m.accept b)).closeTile p m (onesAdd m.running b.sum) c := by
  have hcard := Card.updPlaced_updPlaced p.shot (fun q => { q with unwritten := q.unwritten + 1 }) (Placed.updProgress m.member (m.accept b))
    (fun _ => by rfl) (u.card.writes ++ [blockWrite u.settings m.member p b]) u.card
  have hstate : State.updProgress p.shot m.member (m.accept b) (u.onCard fun c =>
      { Card.updPlaced p.shot (fun q => { q with unwritten := q.unwritten + 1 }) c with
        writes := c.writes ++ [blockWrite u.settings m.member p b] }) = u.acceptedWith p m b (m.accept b) :=
    congrArg (fun c => ({ u with card := c } : State)) hcard
  rw [acceptSegment, ← hstate]
  rfl

/-- A placement with a buffer still to write is not committed. -/
theorem acceptedWith_commitTest (hp : u.card.placed? p.shot = some p) (f : Progress → Progress) :
    (u.acceptedWith p m b f).commitTest p.shot = u.acceptedWith p m b f := by
  have hplaced : (u.acceptedWith p m b f).card.placed? p.shot =
      some (Placed.updProgress m.member f { p with unwritten := p.unwritten + 1 }) :=
    Card.updPlaced_placed? (c := u.card) (f := fun q => Placed.updProgress m.member f { q with unwritten := q.unwritten + 1 })
      (fun _ => by rfl) hp
  refine commitTest_held hplaced ?_
  rw [← Bool.not_eq_true, Placed.complete_iff]
  rintro ⟨-, -, h⟩
  exact Nat.succ_ne_zero _ h

theorem acceptSegment_goesOn (hp : u.card.placed? p.shot = some p) (hm : p.progress? m.member = some m) (hopen : m.closed = false)
    (h : b.close = none ∨ ∃ c, b.close = some c ∧ onesAdd m.running b.sum = c.tileSum) :
    u.acceptSegment p m b = u.acceptedWith p m b (fun r => { r with
      expected := m.expected + b.payload.length, running := onesAdd m.running b.sum
      closed := b.close.isSome, close := match b.close with | none => r.close | some c => some c }) := by
  rw [acceptSegment_eq]
  obtain h | ⟨c, h, hsum⟩ := h
  · rw [h]
    refine acceptedWith_congr hp hm ?_
    simp [Progress.accept, hopen]
  · rw [h]
    dsimp only
    rw [closeTile, if_pos hsum, acceptedWith_updProgress _ _ fun _ => by rfl, acceptedWith_updProgress _ _ fun _ => by rfl,
      acceptedWith_commitTest hp]
    rfl

theorem acceptSegment_tileSum {c : CloseFields} (h : b.close = some c) (hsum : onesAdd m.running b.sum ≠ c.tileSum) :
    u.acceptSegment p m b = (u.acceptedWith p m b (fun r => { r with
      expected := m.expected + b.payload.length, running := onesAdd m.running b.sum, close := some c })).failTile p m .tileSum := by
  rw [acceptSegment_eq, h]
  dsimp only
  rw [closeTile, if_neg hsum, acceptedWith_updProgress _ _ fun _ => by rfl]
  rfl

theorem segmentSumOk_eq_false (h : b.sum = 0#16 ∨ recorded (sumBytes b.payload) ≠ b.sum) : segmentSumOk b = false := by
  obtain h | h := h <;> simp [segmentSumOk, h]

theorem segmentSumOk_eq_true (h : b.sum ≠ 0#16) (h' : recorded (sumBytes b.payload) = b.sum) : segmentSumOk b = true := by
  simp [segmentSumOk, h, h']

/-- With its entry off the placement list, what became of it there is gone. -/
theorem acceptedWith_without (f : Progress → Progress) : (u.acceptedWith p m b f).card.without p.shot =
    { u.card.without p.shot with writes := u.card.writes ++ [blockWrite u.settings m.member p b] } := by
  have herase : ((u.acceptedWith p m b f).card.placements).eraseP (·.shot == p.shot) = u.card.placements.eraseP (·.shot == p.shot) :=
    updFirst_eraseP _ _ (fun _ => by rfl) _
  rw [Card.without, herase]
  rfl

/-- The failure that unplaces its shot leaves nothing of an accepted Segment but its cancelled write. -/
theorem acceptedWith_failTile {f : Progress → Progress} (reason : RedoReason) (hl : u.card.letter = some k) (h : 3 ≤ m.redos) :
    (u.acceptedWith p m b f).failTile p m reason = State.sleepTest (State.ejected (State.serve
      { u with
        card := { u.card.without p.shot with
          writes := cancelWrites (Write.ofPlaced p) (u.card.writes ++ [blockWrite u.settings m.member p b]) }
        link := u.linkAfter 15#4 (.unplace p.shot k .sumFailure) })) := by
  have hwrites : (u.acceptedWith p m b f).card.writes = u.card.writes ++ [blockWrite u.settings m.member p b] := rfl
  rw [failTile_unplaces (u := u.acceptedWith p m b f) reason hl h, acceptedWith_without, hwrites]
  rfl

end State

open State in
/-- Settles O45: `judgeSegment` by where the Segment stands, then by its sums. -/
theorem segmentIsAcceptedDiscardedOrRedone : Obligations.SegmentIsAcceptedDiscardedOrRedone := by
  refine ⟨fun source b s ht hc h => ?_, ?_⟩
  · rw [exec_segmentTaken source b ht hc]
    obtain h | h := h
    · rw [h]
      rfl
    · rw [doIf, cardSegment_disregarded h, ite_self]
  · rintro source b p m g k s u ht hc hk hl hp hm hg htile hshot hunfilled rfl
    have hmember := Placed.progress?_member hm
    have hpshot := Card.placed?_shot hp
    have hexec : exec (.segmentTaken source b) s = .next ((s.onCard (Card.spendGrant source)).judgeSegment p m b) := by
      rw [exec_segmentTaken source b ht hc, hk, ← cardSegment_spends hp hm hg htile hshot hunfilled]
      rfl
    refine ⟨fun h => ?_, fun hphase hopen => ⟨fun ho h0 he => ?_, fun he hf => ⟨fun hsum => ⟨fun hr => ?_, fun hr => ?_⟩,
      fun hsum hsum' => ⟨fun hgood => ?_, fun c hclose hbad => ⟨fun hr => ?_, fun hr => ?_⟩⟩⟩⟩⟩
    · rw [hexec]
      obtain h | h | h := h
      · rw [judgeSegment_over (.inl h)]
        rfl
      · rw [judgeSegment_over (.inr h)]
        rfl
      · cases hphase : p.phase with
        | committing => rw [judgeSegment_over (.inl hphase)]; rfl
        | filling =>
          cases hopen : m.closed with
          | true => rw [judgeSegment_over (.inr hopen)]; rfl
          | false => rw [judgeSegment_misplaced (u := s.onCard (Card.spendGrant source)) hphase hopen h]; rfl
    · have hrestarted : exec (.segmentTaken source b) (s.updProgress b.shot source Progress.restart) = .next
          (State.judgeSegment (p.updProgress source Progress.restart) m.restart b
            ((s.updProgress b.shot source Progress.restart).onCard (Card.spendGrant source))) := by
        rw [exec_segmentTaken (s := s.updProgress b.shot source Progress.restart) source b ht hc,
          ← cardSegment_spends (s := s.updProgress b.shot source Progress.restart)
            (Card.updPlaced_placed? (f := Placed.updProgress source Progress.restart) (fun _ => by rfl) hp)
            (Placed.updProgress_find (fun _ => by rfl) hm) hg htile hshot hunfilled]
        exact congrArg (fun x => Host.Outcome.next (State.doIf x _ _)) hk
      rw [hexec, judgeSegment_restarts hphase hopen ho h0 he, hmember, hpshot]
      exact hrestarted.symm
    · rw [hexec, judgeSegment_fits (u := s.onCard (Card.spendGrant source)) hphase hopen he hf, segmentSumOk_eq_false hsum,
        if_neg (by decide), failTile_redo (u := s.onCard (Card.spendGrant source)) _ hl hr, hmember, hpshot]
      rfl
    · rw [hexec, judgeSegment_fits (u := s.onCard (Card.spendGrant source)) hphase hopen he hf, segmentSumOk_eq_false hsum,
        if_neg (by decide), failTile_unplaces (u := s.onCard (Card.spendGrant source)) _ hl hr, hpshot]
      rfl
    · rw [hexec, judgeSegment_fits (u := s.onCard (Card.spendGrant source)) hphase hopen he hf, segmentSumOk_eq_true hsum hsum',
        if_pos rfl, acceptSegment_goesOn (u := s.onCard (Card.spendGrant source)) (by rw [hpshot]; exact hp) (by rw [hmember]; exact hm)
          hopen hgood, acceptedWith, hmember, hpshot]
      rfl
    · rw [hexec, judgeSegment_fits (u := s.onCard (Card.spendGrant source)) hphase hopen he hf, segmentSumOk_eq_true hsum hsum',
        if_pos rfl, acceptSegment_tileSum hclose hbad, failTile_redo (u := (s.onCard (Card.spendGrant source)).acceptedWith p m b _) _ hl hr, acceptedWith_updProgress _ _ fun _ => by rfl, acceptedWith,
        hmember, hpshot]
      rfl
    · rw [hexec, judgeSegment_fits (u := s.onCard (Card.spendGrant source)) hphase hopen he hf, segmentSumOk_eq_true hsum hsum',
        if_pos rfl, acceptSegment_tileSum hclose hbad, acceptedWith_failTile (u := s.onCard (Card.spendGrant source)) _ hl hr, hmember, hpshot]
      rfl

end Sys2Proof.Machine
end

section
/-! PROOF. The sender of a tile: grants, Redos, and the Segments and Seams that went out (R125, R154-R158, R167, R168). -/

namespace Sys2Proof.Machine

/-! ## Frames queued beside the end of a frame -/

theorem Membership.place_free (m : Membership) (f : Frame) (l : Link) : (m.place f l).free = m.place f l.free := by
  have hgive : (l.give f).free = l.free.give f := by
    unfold Link.give
    split
    · rw [apply_ite Link.free]
      rfl
    · rw [apply_ite Link.free]
      rfl
  unfold Membership.place
  split
  · rfl
  · split
    · exact hgive
    · exact hgive
    · rw [apply_ite Link.free, hgive]
      rfl
    · rw [apply_ite Link.free, hgive]
    · rw [apply_ite Link.free, hgive]

namespace State

variable {s u : State} {n : Shot} {k : Socket} {e : Entry}

/-- An operation that the end of a frame on the link may come before or after. -/
def LinkFree (f : State → State) : Prop := ∀ s : State, (f s).onLink Link.free = f (s.onLink Link.free)

theorem LinkFree.comp {f g : State → State} (hf : LinkFree f) (hg : LinkFree g) : LinkFree fun s => f (g s) := fun s => by
  rw [hf, hg]

theorem queue_linkFree (d : BitVec 4) (m : Msg) : LinkFree (State.queue d m) := fun s =>
  congrArg (fun l => ({ s with link := l } : State)) (s.member.place_free _ _)

theorem updEntry_linkFree (n : Shot) (f : Entry → Entry) : LinkFree (State.updEntry n f) := fun _ => rfl

theorem claimSocket_linkFree (n : Shot) (k : Socket) : LinkFree (State.claimSocket n k) := fun s => by
  unfold claimSocket
  rw [show (s.onLink Link.free).entry? n = s.entry? n from rfl]
  cases s.entry? n with
  | none => rfl
  | some e =>
    dsimp only
    cases e.part k with
    | none => rfl
    | some p =>
      dsimp only
      split
      · exact queue_linkFree _ _ _
      · rfl

theorem claimTargets_linkFree (n : Shot) : LinkFree (State.claimTargets n) := fun s => by
  unfold claimTargets
  rw [show (s.onLink Link.free).transfer = s.transfer from rfl]
  split
  · rw [claimSocket_linkFree, claimSocket_linkFree]
  · rfl

theorem beginPass_linkFree (n : Shot) : LinkFree (State.beginPass n) := fun _ => claimTargets_linkFree n _

theorem chooseTile_linkFree : LinkFree State.chooseTile := fun s => by
  unfold chooseTile
  rw [show (s.onLink Link.free).transfer = s.transfer from rfl,
    show (s.onLink Link.free).ring.roster.filter (s.onLink Link.free).eligible = s.ring.roster.filter s.eligible from rfl]
  split
  · rfl
  · split
    · rfl
    · exact beginPass_linkFree _ _

theorem leaveTile_linkFree (n : Shot) : LinkFree (State.leaveTile n) := fun s => by
  unfold leaveTile
  rw [show (s.onLink Link.free).transfer = s.transfer from rfl]
  split
  · exact chooseTile_linkFree _
  · rfl

theorem endPassIfDone_linkFree (n : Shot) : LinkFree (State.endPassIfDone n) := fun s => by
  unfold endPassIfDone
  rw [show (s.onLink Link.free).entry? n = s.entry? n from rfl, show (s.onLink Link.free).transfer = s.transfer from rfl]
  cases s.entry? n with
  | none => rfl
  | some e =>
    dsimp only
    split
    · rfl
    · split
      · split
        · exact beginPass_linkFree _ _
        · exact leaveTile_linkFree _ _
      · rfl

theorem segmentSent_linkFree (g : SegmentBody) (cancelled : Bool) : LinkFree (State.segmentSent g cancelled) := fun s => by
  unfold segmentSent
  dsimp only
  split
  · exact claimTargets_linkFree _ _
  · split
    · exact endPassIfDone_linkFree _ _
    · exact claimTargets_linkFree _ _

/-- The station's own Segment out, with the link free before its builder is told. -/
theorem bulkSent_segment {b : Bulk} {g : SegmentBody} (hg : b.frame.msg = .segment g) (s : State) :
    (State.bulkSent b { s with link := { s.link with bulk := none, phase := .free } }).onLink Link.ended =
      State.segmentSent g b.cancelled { s with link := { s.link.ended with bulk := none } } := by
  rw [bulkSent, hg]
  exact segmentSent_linkFree g b.cancelled _

/-! ## Grants -/

theorem exec_grantTaken (source : Node) (claimant socket : Byte) (n : Shot) (count : Byte) (notPlaced : Bool) (ht : s.takesFrames) (hc : s.calm) :
    exec (.grantTaken source claimant socket n count notPlaced) s = .next (s.transferGrant socket n count) :=
  (event_of_calm _ s hc).trans (congrArg _ (take_takesFrames _ ht (by decide)))

variable {socket : Byte} {count : Byte} {p : Part}

theorem transferGrant_eq (hk : socketOf? socket = some k) (he : s.entry? n = some e) (hp : e.part k = some p) : s.transferGrant socket n count =
    if p.transfer = .claiming ∧ count.toNat ≤ 8 then
      (s.updEntry n (Entry.updPart k (Part.granted count.toNat))).doIf (count == 0#8) (State.endPassIfDone n)
    else s := by
  unfold transferGrant
  rw [hk, he]
  dsimp only
  rw [hp]
  refine if_congr ?_ rfl rfl
  simp

/-- The station with the entry of one shot changed. -/
theorem updEntry_changes {f : Entry → Entry} (hf : ∀ e, (f e).shot = e.shot) (he : s.entry? n = some e) :
    s.updEntry n f = { s with ring := { s.ring with roster := (s.updEntry n f).ring.roster } } ∧ sameOtherEntries n s (s.updEntry n f) ∧
      (s.updEntry n f).entry? n = some (f e) :=
  ⟨rfl, updEntry_sameOther n f s hf, by rw [updEntry_entry? n n f s hf, he, Option.map_some, if_pos rfl]⟩

theorem endPassIfDone_goesOn (he : s.entry? n = some e) (ht : e.hasTarget = true) : s.endPassIfDone n = s := by
  unfold endPassIfDone
  rw [he]
  exact if_pos ht

theorem endPassIfDone_elsewhere (he : s.entry? n = some e) (ht : e.hasTarget = false) (hc : s.transfer.current ≠ some n) :
    s.endPassIfDone n = s.updEntry n Entry.atStart := by
  unfold endPassIfDone
  rw [he]
  dsimp only
  rw [ht, if_neg (by decide), if_neg hc]
  rfl

theorem granted_some (h : 1 ≤ count.toNat) :
    Part.granted count.toNat = fun q => { q with transfer := .sending, grants := count.toNat } :=
  funext fun _ => if_neg (by omega)

theorem granted_none (p : Part) : Part.granted 0 p = { p with transfer := .closed } := rfl

/-- The entry after a Grant 0 has a target where another of its sockets is one. -/
theorem closed_hasTarget {k' : Socket} {q : Part} (hk : k' ≠ k) (hq : e.part k' = some q) (ht : q.target = true) :
    (e.updPart k fun q => { q with transfer := .closed }).hasTarget = true :=
  (Entry.hasTarget_iff _).mpr ⟨q, (Entry.mem_parts _ _).mpr ⟨k', (Entry.updPart_part_other _ e hk).trans hq⟩, ht⟩

theorem closed_noTarget (h : ∀ k' q, k' ≠ k → e.part k' = some q → q.target = false) :
    ∀ q ∈ (e.updPart k fun q => { q with transfer := .closed }).parts, q.target = false := by
  intro q hq
  obtain ⟨k', hq'⟩ := (Entry.mem_parts _ _).mp hq
  by_cases hk : k' = k
  · subst hk
    rw [Entry.part_updPart, Option.map_eq_some_iff] at hq'
    obtain ⟨p, -, rfl⟩ := hq'
    rw [if_pos rfl]
    simp [Part.target]
  · rw [Entry.updPart_part_other _ e hk] at hq'
    exact h k' q hk hq'

theorem noTarget (h : ∀ q ∈ e.parts, q.target = false) : e.hasTarget = false := by
  rw [← Bool.not_eq_true, Entry.hasTarget_iff]
  rintro ⟨q, hq, ht⟩
  rw [h q hq] at ht
  cases ht

theorem transferGrant_ignored (hk : socketOf? socket = some k) (he : s.entry? n = some e) (hp : e.part k = some p) (h : p.transfer ≠ .claiming) :
    s.transferGrant socket n count = s := by
  rw [transferGrant_eq hk he hp, if_neg fun hno => h hno.1]

theorem transferGrant_sends (hk : socketOf? socket = some k) (he : s.entry? n = some e) (hp : e.part k = some p) (h : p.transfer = .claiming)
    (h1 : 1 ≤ count.toNat) (h8 : count.toNat ≤ 8) : s.transferGrant socket n count =
      s.updEntry n (Entry.updPart k fun q => { q with transfer := .sending, grants := count.toNat }) := by
  have hno : (count == 0#8) = false := by
    rw [beq_eq_false_iff_ne]
    rintro rfl
    simp at h1
  rw [transferGrant_eq hk he hp, if_pos ⟨h, h8⟩, hno, granted_some h1]
  rfl

theorem transferGrant_closes (hk : socketOf? socket = some k) (he : s.entry? n = some e) (hp : e.part k = some p) (h : p.transfer = .claiming) :
    s.transferGrant socket n 0#8 = (s.updEntry n (Entry.updPart k fun q => { q with transfer := .closed })).endPassIfDone n := by
  rw [transferGrant_eq hk he hp, if_pos ⟨h, by decide⟩]
  rfl

/-! ## Redo -/

theorem updFirst_id {α : Type} (p : α → Bool) (l : List α) : updFirst p (fun a => a) l = l := by
  induction l with
  | nil => rfl
  | cons a l ih =>
    rw [updFirst]
    split
    · rfl
    · rw [ih]

/-- What a Redo makes of a placement (R167). -/
def redone (tile : Byte) (p : Placed) : Placed :=
  if p.phase = .filling then { p with progress := updFirst (fun m => m.member.setWidth 8 == tile) Progress.restart p.progress } else p

theorem redone_shot (tile : Byte) (p : Placed) : (redone tile p).shot = p.shot := by
  unfold redone
  split <;> rfl

theorem cardRedo_eq (n : Shot) (tile : Byte) (s : State) :
    s.cardRedo n tile = s.doIf s.cardStation (State.onCard (Card.updPlaced n (redone tile))) := rfl

/-- A Redo of a tile that the placement has no member of restarts none. -/
theorem redone_nothing {tile : Byte} {p : Placed} (h : p.phase = .committing ∨ ∀ m ∈ p.progress, m.member.setWidth 8 ≠ tile) :
    redone tile p = p := by
  unfold redone
  split
  next hf =>
    obtain h | h := h
    · exact nomatch hf.symm.trans h
    · have hnone : updFirst (fun m : Progress => m.member.setWidth 8 == tile) Progress.restart p.progress = p.progress := by
        rw [updFirst_congr _ Progress.restart (fun m => m), updFirst_id]
        intro m hm
        have hmatch := List.find?_some hm
        exact absurd (eq_of_beq hmatch) (h m (List.mem_of_find?_eq_some hm))
      rw [hnone]
  · rfl

theorem setWidth_node {m m' : Node} : m.setWidth 8 = m'.setWidth 8 ↔ m = m' := by
  constructor
  · intro h
    have hnat := congrArg BitVec.toNat h
    rw [BitVec.toNat_setWidth, BitVec.toNat_setWidth, Nat.mod_eq_of_lt (by omega), Nat.mod_eq_of_lt (by omega)] at hnat
    exact BitVec.eq_of_toNat_eq hnat
  · rintro rfl
    rfl

theorem redone_member {m : Node} {p : Placed} (hf : p.phase = .filling) : redone (m.setWidth 8) p = p.updProgress m Progress.restart := by
  have hmatch : (fun r : Progress => r.member.setWidth 8 == m.setWidth 8) = fun r : Progress => r.member == m :=
    funext fun r => by rw [Bool.eq_iff_iff, beq_iff_eq, beq_iff_eq, setWidth_node]
  rw [redone, if_pos hf, hmatch]
  rfl

theorem cardRedo_nothing {tile : Byte} (h : s.cardStation = false ∨
    ∀ p, s.card.placed? n = some p → p.phase = .committing ∨ ∀ m ∈ p.progress, m.member.setWidth 8 ≠ tile) : s.cardRedo n tile = s := by
  rw [cardRedo_eq]
  obtain h | h := h
  · rw [h]
    rfl
  · have hsame : s.card.updPlaced n (redone tile) = s.card := by
      unfold Card.updPlaced
      rw [updFirst_congr _ _ (fun p => p) _ fun p hp => redone_nothing (h p hp), updFirst_id]
    exact (congrArg (fun c => if s.cardStation = true then ({ s with card := c } : State) else s) hsame).trans (ite_self s)

theorem cardRedo_other {n' : Shot} (tile : Byte) (h : n' ≠ n) : (s.cardRedo n tile).card.placed? n' = s.card.placed? n' := by
  rw [cardRedo_eq, doIf]
  split
  · refine updFirst_find_other _ _ _ _ fun p hp => ?_
    have hp' : p.shot = n := by simpa using hp
    rw [redone_shot, hp']
    simpa using Ne.symm h
  · rfl

theorem cardRedo_member {m : Node} {p : Placed} (hc : s.cardStation = true) (hp : s.card.placed? n = some p) (hf : p.phase = .filling) :
    (s.cardRedo n (m.setWidth 8)).card.placed? n = some (p.updProgress m Progress.restart) := by
  rw [cardRedo_eq, hc, ← redone_member hf]
  exact Card.updPlaced_placed? (redone_shot _) hp

theorem cardRedo_length (tile : Byte) : (s.cardRedo n tile).card.placements.length = s.card.placements.length := by
  rw [cardRedo_eq, doIf]
  split
  · exact updFirst_length _ _ _
  · rfl

theorem cardRedo_changes (n : Shot) (tile : Byte) (s : State) :
    s.cardRedo n tile = { s with card := { s.card with placements := (s.cardRedo n tile).card.placements } } := by
  rw [cardRedo_eq, doIf]
  split <;> rfl

/-- What the Transfer Unit meets after the Card Controller has taken a Redo. -/
theorem cardRedo_transfer {tile : Byte} (hself : s.self.setWidth 8 = tile) (he : s.entry? n = some e) (tile' : Byte) :
    (s.cardRedo n tile').self.setWidth 8 = tile ∧ (s.cardRedo n tile').entry? n = some e ∧
      (s.cardRedo n tile').transfer.current = s.transfer.current := by
  rw [cardRedo_changes]
  exact ⟨hself, he, rfl⟩

theorem exec_redoTaken (source : Node) (n : Shot) (tile : Byte) (k : Socket) (reason : RedoReason) (ht : s.takesFrames) (hc : s.calm) :
    exec (.redoTaken source n tile k reason) s = .next ((s.cardRedo n tile).transferRedo n tile) :=
  (event_of_calm _ s hc).trans (congrArg _ (take_takesFrames _ ht (by decide)))

theorem transferRedo_elsewhere {tile : Byte} (h : u.self.setWidth 8 ≠ tile ∨ u.entry? n = none) : u.transferRedo n tile = u := by
  refine if_neg ?_
  rintro ⟨hself, hsome⟩
  obtain h | h := h
  · exact h hself
  · rw [h] at hsome
    cases hsome

theorem transferRedo_current {tile : Byte} (hself : u.self.setWidth 8 = tile) (he : u.entry? n = some e) (hc : u.transfer.current = some n) :
    u.transferRedo n tile = State.beginPass n { u with link := u.link.cancelBulk (Msg.isSegmentOf n) } := by
  unfold transferRedo
  rw [if_pos ⟨hself, by rw [he]; rfl⟩]
  exact if_pos hc

theorem transferRedo_chooses {tile : Byte} (hself : u.self.setWidth 8 = tile) (he : u.entry? n = some e) (hc : u.transfer.current ≠ some n) :
    u.transferRedo n tile = (u.updEntry n Entry.startPass).chooseTile := by
  unfold transferRedo
  rw [if_pos ⟨hself, by rw [he]; rfl⟩]
  exact if_neg hc

/-! ## Segments that went out -/

theorem spend_eq (p : Part) : p.spend = if p.target then { p with grants := p.grants - 1 } else p := by
  unfold Part.spend
  cases ht : p.target with
  | false => rfl
  | true =>
    by_cases hg : 1 ≤ p.grants
    · simp [hg]
    · have hzero : p.grants - 1 = p.grants := by omega
      rw [if_neg (by simp [hg]), if_pos rfl, hzero]

/-- The entry of a Segment that went out, before claims and closes: each target has one grant less, and the cursor stands at `c`. -/
def spentAt (c : Nat) (e : Entry) : Entry :=
  { e.mapParts (fun p => if p.target then { p with grants := p.grants - 1 } else p) with cursor := c }

theorem segmentSent_claims {g : SegmentBody} {cancelled : Bool} (he : s.entry? g.shot = some e) (h : cancelled = true ∨ g.close = none) :
    ∃ u : State, u = { s with ring := { s.ring with roster := u.ring.roster } } ∧ sameOtherEntries g.shot s u ∧
      u.entry? g.shot = some (spentAt (if cancelled then e.cursor else e.cursor + g.payload.length) e) ∧
      s.segmentSent g cancelled = u.claimTargets g.shot := by
  have hspend : Part.spend = fun p => if p.target then { p with grants := p.grants - 1 } else p := funext spend_eq
  obtain ⟨h1, h2, h3⟩ := updEntry_changes (f := Entry.mapParts Part.spend) (fun _ => by rfl) he
  cases cancelled with
  | true =>
    refine ⟨s.updEntry g.shot (Entry.mapParts Part.spend), h1, h2, ?_, rfl⟩
    rw [h3, hspend]
    rfl
  | false =>
    have hclose : g.close = none := h.resolve_left (by decide)
    obtain ⟨h4, h5, h6⟩ := updEntry_changes (f := fun x => { x with cursor := x.cursor + g.payload.length }) (fun _ => by rfl) h3
    refine ⟨(s.updEntry g.shot (Entry.mapParts Part.spend)).updEntry g.shot (fun x => { x with cursor := x.cursor + g.payload.length }),
      rfl, fun m hm => (h5 m hm).trans (h2 m hm), ?_, ?_⟩
    · rw [h6, hspend]
      rfl
    · unfold segmentSent
      dsimp only
      rw [if_neg (by decide), hclose]
      rfl

theorem segmentSent_closes {g : SegmentBody} (he : s.entry? g.shot = some e) (h : g.close ≠ none) :
    ∃ u : State, u = { s with ring := { s.ring with roster := u.ring.roster } } ∧ sameOtherEntries g.shot s u ∧
      u.ring.roster.map (·.shot) = s.ring.roster.map (·.shot) ∧
      u.entry? g.shot = some ((spentAt (e.cursor + g.payload.length) e).mapParts Part.closeTarget) ∧
      s.segmentSent g false = u.endPassIfDone g.shot := by
  have hspend : Part.spend = fun p => if p.target then { p with grants := p.grants - 1 } else p := funext spend_eq
  obtain ⟨h1, h2, h3⟩ := updEntry_changes (f := Entry.mapParts Part.spend) (fun _ => by rfl) he
  obtain ⟨h4, h5, h6⟩ := updEntry_changes (f := fun x => { x with cursor := x.cursor + g.payload.length }) (fun _ => by rfl) h3
  obtain ⟨h7, h8, h9⟩ := updEntry_changes (f := Entry.mapParts Part.closeTarget) (fun _ => by rfl) h6
  refine ⟨((s.updEntry g.shot (Entry.mapParts Part.spend)).updEntry g.shot (fun x => { x with cursor := x.cursor + g.payload.length })).updEntry
    g.shot (Entry.mapParts Part.closeTarget), rfl, fun m hm => ((h8 m hm).trans (h5 m hm)).trans (h2 m hm), ?_, ?_, ?_⟩
  · rw [updEntry_shots _ _ _ fun _ => by rfl, updEntry_shots _ _ _ fun _ => by rfl, updEntry_shots _ _ _ fun _ => by rfl]
  · rw [h9, hspend]
    rfl
  · unfold segmentSent
    dsimp only
    rw [if_neg (by decide), if_pos (Option.isSome_iff_ne_none.mpr h)]

theorem closeTarget_noTarget (e : Entry) : ∀ q ∈ (e.mapParts Part.closeTarget).parts, q.target = false := by
  intro q hq
  obtain ⟨k, hk⟩ := (Entry.mem_parts _ _).mp hq
  have hpart : (e.mapParts Part.closeTarget).part k = (e.part k).map Part.closeTarget := by cases k <;> rfl
  rw [hpart, Option.map_eq_some_iff] at hk
  obtain ⟨p, -, rfl⟩ := hk
  unfold Part.closeTarget
  split
  · simp [Part.target]
  next h => simpa using h

theorem claimTargets_elsewhere (h : s.transfer.current ≠ some n) : s.claimTargets n = s := if_neg h

/-- Where every socket that is Sending holds a grant, no claim goes out. -/
theorem claimTargets_none (he : s.entry? n = some e) (h : ∀ p ∈ e.parts, p.needsClaim = false) : s.claimTargets n = s := by
  have hsocket : ∀ k, s.claimSocket n k = s := fun k => by
    unfold claimSocket
    rw [he]
    dsimp only
    cases hp : e.part k with
    | none => rfl
    | some p => exact if_neg (by rw [h p ((Entry.mem_parts _ _).mpr ⟨k, hp⟩)]; decide)
  unfold claimTargets
  rw [hsocket, hsocket, ite_self]

/-- A target that had two grants needs no claim after one is spent. -/
theorem spentAt_needsNoClaim {c : Nat} (h : ∀ p ∈ e.parts, p.target = true → 2 ≤ p.grants) : ∀ p ∈ (spentAt c e).parts, p.needsClaim = false := by
  intro q hq
  obtain ⟨k, hk⟩ := (Entry.mem_parts _ _).mp hq
  have hpart : (spentAt c e).part k = (e.part k).map fun p => if p.target then { p with grants := p.grants - 1 } else p := by cases k <;> rfl
  rw [hpart, Option.map_eq_some_iff] at hk
  obtain ⟨p, hp, rfl⟩ := hk
  cases ht : p.target with
  | true =>
    have h2 := h p ((Entry.mem_parts _ _).mpr ⟨k, hp⟩) ht
    have hne : p.grants - 1 ≠ 0 := by omega
    simp [Part.needsClaim, hne]
  | false =>
    rw [if_neg (by decide), ← Bool.not_eq_true]
    intro hneeds
    have : p.target = true := by
      simp only [Part.needsClaim, Bool.and_eq_true, beq_iff_eq] at hneeds
      simp [Part.target, hneeds]
    rw [ht] at this
    cases this

/-! ## Frames that a station's own blocks do not take -/

theorem parse_segment (body : List Byte) : Msg.parse 0x41#8 body = none ∨ ∃ h, Msg.parse 0x41#8 body = some (.segment h) := by
  have heq : Msg.parse 0x41#8 body = (parseSegment body).map Msg.segment := rfl
  rw [heq]
  cases parseSegment body with
  | none => exact .inl rfl
  | some h => exact .inr ⟨h, rfl⟩

theorem parse_seam (body : List Byte) : Msg.parse 0x40#8 body = none ∨ ∃ n d band, Msg.parse 0x40#8 body = some (.seam n d band) := by
  have heq : Msg.parse 0x40#8 body = (directionOf? (body.getD 4 0#8)).map fun d =>
      Msg.seam (BitVec.ofNat 32 (field body 0 4)) d (wordsOf (body.drop 5)) := rfl
  rw [heq]
  cases directionOf? (body.getD 4 0#8) with
  | none => exact .inl rfl
  | some d => exact .inr ⟨_, _, _, rfl⟩

/-- A Segment goes to no block of a station without a card socket. -/
theorem deliver_segment {f : WireFrame} (t : Time) (hk : f.kind = 0x41#8) (hc : s.cardStation = false) : s.deliver f t = s := by
  have haddressed : s.addressed f = true := addressed_true (.inr (.inr (by rw [hk]; decide)))
  obtain hnone | ⟨h, hsome⟩ := parse_segment f.body
  · refine deliver_unlisted t (by rw [hk]; exact hnone) ?_
    have hpass : s.passesOver f.kind = true := by
      rw [hk, passesOver, hc]
      rfl
    rw [deliverUnlisted, hpass, if_pos rfl]
  · rw [deliver_read t haddressed (by rw [hk]; exact hsome), deliverMsg, takeSegment, hc]
    rfl

/-- A Seam of a station's own, or one between two others, is passed over. -/
theorem engineSeam_elsewhere {source : Node} {d : Direction} (band : List Word16) (h : s.settings.gridShape = none ∨
    ∃ m, neighbour? s.settings.gridShape source.toNat d = some m ∧ m ≠ s.self.toNat) : s.engineSeam source n d band = s := by
  unfold engineSeam
  obtain h | ⟨m, hm, hne⟩ := h
  · exact if_neg (by simp [seamReadable, h])
  · rw [seamTarget, hm]
    dsimp only
    rw [if_pos hne, ite_self]

theorem deliver_seam {f : WireFrame} (t : Time) (hk : f.kind = 0x40#8) (hin : s.inForce)
    (h : ∀ n d band, Msg.parse f.kind f.body = some (.seam n d band) → s.settings.gridShape = none ∨
      ∃ m, neighbour? s.settings.gridShape f.src.toNat d = some m ∧ m ≠ s.self.toNat) : s.deliver f t = s := by
  have haddressed : s.addressed f = true := addressed_true (.inr (.inr (by rw [hk]; decide)))
  obtain hnone | ⟨n, d, band, hsome⟩ := parse_seam f.body
  · refine deliver_unlisted t (by rw [hk]; exact hnone) ?_
    rw [deliverUnlisted, take_inForce _ _ hin]
    exact ite_self s
  · have hread : Msg.parse f.kind f.body = some (.seam n d band) := by rw [hk]; exact hsome
    rw [deliver_read t haddressed hread, deliverMsg, take_inForce _ _ hin, engineSeam_elsewhere band (h n d band hread)]

end State

open State in
/-- Settles O44: a Grant and a Redo by the entry they find, and the station's own Segment or Seam by what `bulkSent` makes of it. -/
theorem senderFollowsGrantsAndRedos : Obligations.SenderFollowsGrantsAndRedos := by
  refine ⟨fun source claimant socket k n count notPlaced e p s ht hc hk he hp => ⟨fun h => ?_, fun h h1 h8 => ?_, ?_, ?_, ?_⟩,
    fun source n tile k reason s ht hc => ?_, fun f b g e s hc hp hstation hf hm hkind hphase hb hg hcancel hclose he h2 => ?_,
    fun f b g h e spent s u hc hp hok hf hm hkind hread hphase hb hg he hu hspent => ?_,
    fun f b n d band s hin hc hf hm hkind hfar hphase hb hg hcancel => ?_⟩
  · rw [exec_grantTaken _ _ _ _ _ _ ht hc, transferGrant_ignored hk he hp h]
  · refine ⟨_, exec_grantTaken _ _ _ _ _ _ ht hc, ?_⟩
    rw [transferGrant_sends hk he hp h h1 h8]
    exact updEntry_changes (Entry.updPart_shot _ _) he
  · rintro h rfl ⟨k', q, hk', hq, htarget⟩
    obtain ⟨h1, h2, h3⟩ := updEntry_changes (Entry.updPart_shot k fun q => { q with transfer := .closed }) he
    refine ⟨_, exec_grantTaken _ _ _ _ _ _ ht hc, ?_⟩
    rw [transferGrant_closes hk he hp h, endPassIfDone_goesOn h3 (closed_hasTarget hk' hq htarget)]
    exact ⟨h1, h2, h3⟩
  · rintro h rfl hno hcur
    obtain ⟨h1, h2, h3⟩ := updEntry_changes (Entry.updPart_shot k fun q => { q with transfer := .closed }) he
    obtain ⟨h4, h5, h6⟩ := updEntry_changes (f := Entry.atStart) (fun _ => by rfl) h3
    refine ⟨_, exec_grantTaken _ _ _ _ _ _ ht hc, ?_⟩
    rw [transferGrant_closes hk he hp h, endPassIfDone_elsewhere h3 (noTarget (closed_noTarget hno)) hcur]
    exact ⟨rfl, fun m hm => (h5 m hm).trans (h2 m hm), h6⟩
  · rintro h rfl hno hcur hok
    obtain ⟨h1, h2, h3⟩ := updEntry_changes (Entry.updPart_shot k fun q => { q with transfer := .closed }) he
    have hnodup := (updEntry_shots n _ s (Entry.updPart_shot k fun q => { q with transfer := .closed })).symm ▸ rosterShots_nodup hok
    refine ⟨_, exec_grantTaken _ _ _ _ _ _ ht hc, ?_⟩
    rw [transferGrant_closes hk he hp h]
    exact passEnded_over n _ _ _ _ _ h1 h2 ((endPassIfDone_spec n _ _ hnodup h3 (closed_noTarget hno)).1 hcur)
  · refine ⟨s.cardRedo n tile, _, exec_redoTaken source n tile k reason ht hc, cardRedo_changes n tile s, cardRedo_length tile,
      fun n' hn' => cardRedo_other tile hn', cardRedo_nothing, ?_, fun h => ?_, fun e hself he => ⟨fun hcur => ?_, fun hcur hok => ?_⟩⟩
    · rintro p m g hstation hp hf hg rfl
      refine ⟨_, cardRedo_member hstation hp hf, rfl, Placed.updProgress_find (fun _ => by rfl) hg, fun m' hm' => ?_⟩
      refine updFirst_find_other _ _ _ _ fun r hr => ?_
      have hr' : r.member = m := by simpa using hr
      simp [Progress.restart, hr', Ne.symm hm']
    · refine transferRedo_elsewhere ?_
      rw [cardRedo_changes]
      exact h
    · have hlink : (s.cardRedo n tile).link = s.link := by rw [cardRedo_changes]
      obtain ⟨hself', he', hcur'⟩ := cardRedo_transfer hself he tile
      rw [transferRedo_current hself' he' (hcur'.trans hcur), hlink]
      exact beginPass_begun n e _ (hcur'.trans hcur) he'
    · have hring : (s.cardRedo n tile).ring = s.ring := by rw [cardRedo_changes]
      obtain ⟨hself', he', hcur'⟩ := cardRedo_transfer hself he tile
      obtain ⟨h1, h2, h3⟩ := updEntry_changes (f := Entry.startPass) (fun _ => by rfl) he'
      rw [transferRedo_chooses hself' he' (by rw [hcur']; exact hcur)]
      refine ⟨_, ?_, fun m hm => (h2 m hm).trans (entry?_congr (by rw [hring]) m), h3.trans (by rw [Entry.startPass_eq]), chooseTile_chosen _ ?_⟩
      · rw [← hring]
        exact h1
      · rw [updEntry_shots _ _ _ fun _ => by rfl, hring]
        exact rosterShots_nodup hok
  · have hout : s.ownFrameOut _ := .inr (.inr ⟨b, hphase, hb, rfl⟩)
    rw [exec_frameEnd f false hc, hout.frameEnds hp hf, hm, if_neg (by decide), bulkSent_segment hg, hcancel]
    obtain ⟨v, hv, hother, hentry, hsent⟩ := segmentSent_claims (s := { s with link := { s.link.ended with bulk := none } })
      (cancelled := false) he (.inr hclose)
    rw [hsent, claimTargets_none hentry (spentAt_needsNoClaim h2), deliver_segment _ hkind (by rw [hv]; exact hstation)]
    exact ⟨v, rfl, hv, hother, hentry⟩
  · have hown : takenAs f.src (f.dst == 15#4) (s.link.frameStart.getD 0#64) (.segment h) = some (.segmentTaken f.src h) := rfl
    obtain ⟨hawake, -⟩ := frameEndRunsTheTakenCommand f (.segment h) (.segmentTaken f.src h) s hc hf hm
      (.inr (.inr (by rw [hkind]; decide))) hread
    obtain ⟨-, -, -, hbulk⟩ := hawake hp hown
    obtain ⟨t, hexec, hend⟩ := hbulk b hphase hb
    rw [bulkSent_segment hg] at hexec
    subst hu
    refine ⟨_, t, hexec, hend, fun hno => ?_, fun hcancel hclose hcur => ?_⟩
    · obtain ⟨v, hv, hother, hentry, hsent⟩ := segmentSent_claims (s := { s with link := { s.link.ended with bulk := none } })
        (cancelled := b.cancelled) he hno
      rw [hsent]
      have hspent' : v.entry? g.shot = some spent := by rw [hentry, hspent]; rfl
      refine ⟨fun hcur => ?_, fun hcur => ?_⟩
      · have hcur' : v.transfer.current = some g.shot := by rw [hv]; exact hcur
        obtain ⟨h1, h2, h3⟩ := claimTargets_spec g.shot spent v hcur' hspent'
        refine ⟨?_, fun m hm => (h2 m hm).trans (hother m hm), h3⟩
        rw [h1, hv]
        rfl
      · have hcur' : v.transfer.current ≠ some g.shot := by rw [hv]; exact hcur
        rw [claimTargets_elsewhere hcur']
        exact ⟨hv, hother, hspent'⟩
    · obtain ⟨v, hv, hother, hshots, hentry, hsent⟩ := segmentSent_closes (s := { s with link := { s.link.ended with bulk := none } }) he hclose
      have hspent' : spentAt (e.cursor + g.payload.length) e = spent := by rw [hspent, hcancel]; rfl
      have hcur' : v.transfer.current = some g.shot := by rw [hv]; exact hcur
      rw [hspent'] at hentry
      rw [hcancel, hsent]
      exact passEnded_over g.shot _ v _ _ _ hv hother
        ((endPassIfDone_spec g.shot _ v (hshots.symm ▸ rosterShots_nodup hok) hentry (closeTarget_noTarget spent)).1 hcur')
  · have hout : s.ownFrameOut _ := .inr (.inr ⟨b, hphase, hb, rfl⟩)
    have hsent : (State.bulkSent b { s with link := { s.link with bulk := none, phase := .free } }).onLink Link.ended =
        { s with link := { s.link.ended with bulk := none }, develop := { s.develop with owed := s.develop.owed.erase (n, d) } } := by
      rw [bulkSent, hg]
      rfl
    rw [exec_frameEnd f false hc, hout.frameEnds hin.1 hf, hm, if_neg (by decide), hsent]
    exact congrArg (fun t => Host.Outcome.next (State.sleepTest t)) (deliver_seam _ hkind hin hfar)

end Sys2Proof.Machine
end

section
/-! PROOF. Rolls taken, and the end of a roll call (R22-R29). -/

namespace Sys2Proof.Machine

/-! ## The member table -/

section

variable {r : RollFields}

theorem enterRoll_numbers (l : List Member) {m : Member} (h : m ∈ enterRoll r l) : m.number = r.source ∨ ∃ k ∈ l, k.number = m.number := by
  induction l with
  | nil => exact .inl (by rw [List.mem_singleton.mp h])
  | cons k l ih =>
    unfold enterRoll at h
    split at h
    · obtain rfl | h := List.mem_cons.mp h
      · exact .inl rfl
      · exact .inr ⟨m, h, rfl⟩
    · split at h
      next hk =>
        obtain rfl | h := List.mem_cons.mp h
        · refine .inl ?_
          split <;> exact hk.symm
        · exact .inr ⟨m, List.mem_cons_of_mem _ h, rfl⟩
      · obtain rfl | h := List.mem_cons.mp h
        · exact .inr ⟨m, List.mem_cons_self, rfl⟩
        · refine (ih h).imp id ?_
          rintro ⟨k', hk', hm⟩
          exact ⟨k', List.mem_cons_of_mem _ hk', hm⟩

theorem enterRoll_rises (l : List Member) (h : l.Pairwise fun a b => a.number < b.number) :
    (enterRoll r l).Pairwise fun a b => a.number < b.number := by
  induction l with
  | nil => exact List.pairwise_singleton _ _
  | cons k l ih =>
    obtain ⟨hk, hl⟩ := List.pairwise_cons.mp h
    unfold enterRoll
    split
    next hlt =>
      refine List.pairwise_cons.mpr ⟨fun m hm => ?_, h⟩
      obtain rfl | hm := List.mem_cons.mp hm
      · exact hlt
      · exact BitVec.lt_trans hlt (hk m hm)
    next hlt =>
      split
      · refine List.pairwise_cons.mpr ⟨fun m hm => ?_, hl⟩
        split <;> exact hk m hm
      next hne =>
        refine List.pairwise_cons.mpr ⟨fun m hm => ?_, ih hl⟩
        obtain h | ⟨k', hk', h⟩ := enterRoll_numbers l hm
        · rw [h]
          exact BitVec.lt_of_le_ne (BitVec.not_lt.mp hlt) (Ne.symm hne)
        · rw [← h]
          exact hk k' hk'

theorem enterRoll_others (l : List Member) {m : Member} (hm : m.number ≠ r.source) : m ∈ enterRoll r l ↔ m ∈ l := by
  induction l with
  | nil =>
    refine ⟨fun h => ?_, nofun⟩
    rw [List.mem_singleton.mp h] at hm
    exact absurd rfl hm
  | cons k l ih =>
    unfold enterRoll
    split
    · refine ⟨fun h => ?_, List.mem_cons_of_mem _⟩
      obtain rfl | h := List.mem_cons.mp h
      · exact absurd rfl hm
      · exact h
    · split
      next hk =>
        have hchanged : ∀ k', k'.number = r.source → m ≠ k' := fun k' hk' h => hm (h ▸ hk')
        rw [List.mem_cons, List.mem_cons, or_iff_right, or_iff_right (hchanged k hk.symm)]
        refine hchanged _ ?_
        split <;> exact hk.symm
      · rw [List.mem_cons, List.mem_cons, ih]

theorem enterRoll_again (l : List Member) (h : l.Pairwise fun a b => a.number < b.number) {m : Member} (hm : m ∈ l) (hr : m.number = r.source) :
    (if m.serial = r.serial then { m with fitted := r.fitted } else { m with duplicated := true }) ∈ enterRoll r l := by
  induction l with
  | nil => cases hm
  | cons k l ih =>
    obtain ⟨hk, hl⟩ := List.pairwise_cons.mp h
    unfold enterRoll
    obtain rfl | hm := List.mem_cons.mp hm
    · rw [hr, if_neg (BitVec.lt_irrefl _), if_pos rfl]
      simp only [eq_comm (a := r.serial)]
      exact List.mem_cons_self
    · have hlt : k.number < r.source := hr ▸ hk m hm
      rw [if_neg fun h => BitVec.lt_irrefl _ (BitVec.lt_trans h hlt), if_neg fun h => BitVec.lt_irrefl _ (h ▸ hlt)]
      exact List.mem_cons_of_mem _ (ih hl hm)

theorem enterRoll_new (l : List Member) (h : ∀ m ∈ l, m.number ≠ r.source) :
    { number := r.source, serial := r.serial, fitted := r.fitted, duplicated := false } ∈ enterRoll r l := by
  induction l with
  | nil => exact List.mem_singleton_self _
  | cons k l ih =>
    unfold enterRoll
    split
    · exact List.mem_cons_self
    · rw [if_neg (Ne.symm (h k List.mem_cons_self))]
      exact List.mem_cons_of_mem _ (ih fun m hm => h m (List.mem_cons_of_mem _ hm))

end

namespace State

variable {s u : State} {r : RollFields}

/-! ## Rolls -/

theorem exec_rollTaken (hc : s.calm) : exec (.rollTaken r.source r.station r.serial r.fitted r.next r.rejoin) s = .next (s.takeRoll r) :=
  event_of_calm _ s hc

theorem roll_fails (h : r.station ≠ r.source.setWidth 8 ∨ 5 < r.station.toNat ∨ r.serial = 0#32) : r.ok = false := by
  obtain h | h | h := h
  · simp [RollFields.ok, h]
  · simp [RollFields.ok, h]
  · simp [RollFields.ok, h]

theorem roll_ok (h : r.station = r.source.setWidth 8) (h5 : r.station.toNat ≤ 5) (h0 : r.serial ≠ 0#32) : r.ok = true := by
  simp only [RollFields.ok, Bool.and_eq_true, beq_iff_eq, decide_eq_true_eq, bne_iff_ne]
  exact ⟨⟨h, h5⟩, h0⟩

theorem takeRoll_disregarded (h : r.ok = false) : s.takeRoll r = s := if_pos (.inr h)

theorem takeRoll_meets (hp : s.power.state ≠ .sleep) (h : r.ok = true) : s.takeRoll r = s.meetRoll r :=
  if_neg fun hno => hno.elim hp fun hno => nomatch h.symm.trans hno

theorem rollIn_out (h : s.member.ownRollOut = true ∨ (r.source = s.self ∧ r.serial = s.member.serial)) : s.rollIn r = { s with
    member := { s.member with table := enterRoll r s.member.table, ownRollOut := true,
                              highest := if s.member.highest < r.next then r.next else s.member.highest }
    clock := { s.clock with timers := { s.clock.timers with roll := { s.clock.timers.roll with request := .load 150 } } } } := by
  have hout : (s.member.ownRollOut || s.isOwnRoll r) = true := by
    obtain h | ⟨h, h'⟩ := h
    · simp [h]
    · simp [isOwnRoll, h, h']
  unfold rollIn onMember
  dsimp only
  rw [hout]
  rfl

theorem rollIn_waits (h : s.member.ownRollOut = false) (hno : ¬(r.source = s.self ∧ r.serial = s.member.serial)) : s.rollIn r = { s with
    member := { s.member with table := enterRoll r s.member.table,
                              highest := if s.member.highest < r.next then r.next else s.member.highest } } := by
  have hin : (s.member.ownRollOut || s.isOwnRoll r) = s.member.ownRollOut := by
    have : s.isOwnRoll r = false := by
      rw [← Bool.not_eq_true]
      simpa [isOwnRoll] using hno
    rw [this, Bool.or_false]
  unfold rollIn onMember
  dsimp only
  rw [hin, h]
  rfl

theorem rollHeard_answers (hknown : ∃ m ∈ s.member.table, m.number = r.source ∧ m.serial = r.serial) (hrejoin : r.rejoin = true)
    (hno : ∀ m ∈ s.link.controlMsgs, isRoll m = false) : s.rollHeard r = { s with
      link := s.linkAfter 15#4 (.roll (s.self.setWidth 8) s.member.serial s.member.straps.fitted s.ring.next false) } := by
  have hany : s.member.table.any (fun m => m.number == r.source && m.serial == r.serial) = true := by simpa using hknown
  have hroll : s.link.controlMsgs.any isRoll = false := by simpa using hno
  unfold rollHeard
  rw [hany, hrejoin, hroll]
  rfl

theorem rollHeard_known (hknown : ∃ m ∈ s.member.table, m.number = r.source ∧ m.serial = r.serial)
    (hno : r.rejoin = false ∨ ∃ m ∈ s.link.controlMsgs, isRoll m = true) : s.rollHeard r = s := by
  have hany : s.member.table.any (fun m => m.number == r.source && m.serial == r.serial) = true := by simpa using hknown
  have hquiet : (r.rejoin && !s.link.controlMsgs.any isRoll) = false := by
    obtain h | h := hno
    · rw [h]
      rfl
    · rw [List.any_eq_true.mpr h]
      simp
  unfold rollHeard
  rw [hany, hquiet]
  rfl

theorem rollHeard_stranger (hnew : ∀ m ∈ s.member.table, m.number = r.source → m.serial ≠ r.serial) :
    s.rollHeard r = { s with notices := s.notices.raise (.stranger r.station r.serial r.fitted) } := by
  have hany : s.member.table.any (fun m => m.number == r.source && m.serial == r.serial) = false := by simpa using hnew
  unfold rollHeard
  rw [hany]
  rfl

/-! ## Frames of the blocks -/

/-- Outside a roll call and outside Configuring and Ready, a block's frame is disregarded. -/
theorem take_disregarded {k : Taken} (handle : State → State) (h : s.member.state = .excluded ∨ s.member.state = .duplicate)
    (hk : ¬(k = .mark ∨ k = .request)) : s.take k handle = s := by
  by_cases hp : s.power.state = .sleep
  · exact take_asleep _ _ s hp
  · obtain h | h := h
    · rw [take_excluded _ _ s hp h, if_neg hk]
    · rw [take_duplicate _ _ s hp h, if_neg hk]

theorem exec_blockFrame {c : Instr} (hc : s.calm) (h : s.member.state = .excluded ∨ s.member.state = .duplicate) (hb : blockFrame c = true) :
    exec c s = .next s := by
  cases c
  case claimTaken | segmentTaken =>
    refine (event_of_calm _ s hc).trans (congrArg _ ?_)
    exact (congrArg (fun t => if s.cardStation = true then t else s) (take_disregarded _ h (by decide))).trans (ite_self s)
  case placeTaken | unplaceTaken | grantTaken | redoTaken | commitTaken | seamTaken | openTaken | closeTaken | refuseTaken | readDoneTaken =>
    exact (event_of_calm _ s hc).trans (congrArg _ (take_disregarded _ h (by decide)))
  all_goals cases hb

theorem take_rejoiningCapture (handle : State → State) (h : s.member.state = .rolling) (hr : s.member.rejoin = true) :
    s.take .capture handle = s := by
  by_cases hp : s.power.state = .sleep
  · exact take_asleep _ _ s hp
  · rw [take_rejoining _ _ s hp h hr, if_pos rfl]

theorem exec_captureFrame {c : Instr} (hc : s.calm) (h : s.member.state = .rolling) (hr : s.member.rejoin = true) (hb : captureFrame c = true) :
    exec c s = .next s := by
  cases c
  case openTaken | closeTaken | refuseTaken | readDoneTaken =>
    exact (event_of_calm _ s hc).trans (congrArg _ (take_rejoiningCapture _ h hr))
  all_goals cases hb

theorem expiriesFirst_cardStation (s : State) : s.expiriesFirst.cardStation = s.cardStation := by simp [cardStation]

/-- A frame that shows a running back is taken, under R26 and R22. -/
theorem exec_shown {c : Instr} (h : showsBack s.cardStation c = true) : ∃ k handle, k ≠ .request ∧ (k = .mark ↔ takesMark c = true) ∧
    ∀ t : State, t.cardStation = s.cardStation → exec c t = t.event (State.take k handle) := by
  cases c
  case markTaken => exact ⟨.mark, _, by decide, by simp [takesMark], fun t _ => rfl⟩
  case openTaken | closeTaken | refuseTaken | readDoneTaken => exact ⟨.capture, _, by decide, by simp [takesMark], fun t _ => rfl⟩
  case placeTaken | unplaceTaken | grantTaken | redoTaken | commitTaken | seamTaken =>
    exact ⟨.other, _, by decide, by simp [takesMark], fun t _ => rfl⟩
  case claimTaken source socket n count =>
    refine ⟨.other, State.cardClaim { member := source, socket := socket, shot := n, count := count.toNat }, by decide, by simp [takesMark], fun t ht => congrArg Host.Outcome.next ?_⟩
    have hcard : t.expiriesFirst.cardStation = true := by
      rw [expiriesFirst_cardStation]
      exact ht.trans h
    rw [takeClaim, hcard]
    rfl
  case segmentTaken source b =>
    refine ⟨.other, State.cardSegment source b, by decide, by simp [takesMark], fun t ht => congrArg Host.Outcome.next ?_⟩
    have hcard : t.expiriesFirst.cardStation = true := by
      rw [expiriesFirst_cardStation]
      exact ht.trans h
    rw [takeSegment, hcard]
    rfl
  all_goals cases h

end State

open State in
/-- Settles O13: `rollIn` and `enterRoll`; an expiry that is due comes first of all those that the Roll finds. -/
theorem rollTakenInRollingIsEntered : Obligations.RollTakenInRollingIsEntered := by
  intro source station serial fitted next rejoin s hp hroll
  let r : RollFields := { source := source, station := station, serial := serial, fitted := fitted, next := next, rejoin := rejoin }
  refine ⟨fun hc hbad => ?_, fun hs h5 h0 hdue u hu => ?_, fun hs h5 h0 hc hsorted => ?_⟩
  · exact (exec_rollTaken (r := r) hc).trans (congrArg _ (takeRoll_disregarded (roll_fails hbad)))
  · rw [exec_rollRow hroll] at hu
    cases hu
    change s.event _ = State.event _ _
    rw [State.event, State.event, expiriesFirst_roll hp hroll hdue]
  · have hmeets : s.takeRoll r = s.rollIn r := by
      rw [takeRoll_meets hp (roll_ok hs h5 h0), meetRoll, hroll]
    refine ⟨enterRoll r s.member.table, enterRoll_rises _ hsorted, fun m hm => enterRoll_others _ hm,
      fun m hm hn => enterRoll_again _ hsorted hm hn, fun hnew => enterRoll_new _ hnew, fun hout => ?_, fun hno hnot => ?_⟩
    · exact (exec_rollTaken (r := r) hc).trans (congrArg _ (hmeets.trans (rollIn_out hout)))
    · exact (exec_rollTaken (r := r) hc).trans (congrArg _ (hmeets.trans (rollIn_waits hno hnot)))

open State in
/-- Settles O14: a frame by `take`, a Roll by `rollHeard`. -/
theorem rollTakenByARunningStation : Obligations.RollTakenByARunningStation := by
  refine ⟨fun c s hc => ⟨exec_blockFrame hc, exec_captureFrame hc⟩, fun source serial fitted next rejoin s hc h5 h0 => ?_⟩
  let r : RollFields := { source := source, station := source.setWidth 8, serial := serial, fitted := fitted, next := next, rejoin := rejoin }
  have hok : r.ok = true := roll_ok rfl (by rw [BitVec.toNat_setWidth]; omega) h0
  refine ⟨fun hst => ?_, fun hin => ?_⟩
  · refine (exec_rollTaken (r := r) hc).trans (congrArg _ ?_)
    by_cases hp : s.power.state = .sleep
    · exact if_pos (.inl hp)
    · rw [takeRoll_meets hp hok, meetRoll]
      obtain hst | hst := hst <;> rw [hst]
  · have hmeets : s.takeRoll r = s.rollHeard r := by
      rw [takeRoll_meets hin.1 hok, meetRoll]
      obtain ⟨-, hst | hst⟩ := hin <;> rw [hst]
    refine ⟨fun hknown hrejoin hno => ?_, fun hknown hno => ?_, fun hnew => ?_⟩
    · exact (exec_rollTaken (r := r) hc).trans (congrArg _ (hmeets.trans (rollHeard_answers hknown hrejoin hno)))
    · exact (exec_rollTaken (r := r) hc).trans (congrArg _ (hmeets.trans (rollHeard_known hknown hno)))
    · exact (exec_rollTaken (r := r) hc).trans (congrArg _ (hmeets.trans (rollHeard_stranger hnew)))

end Sys2Proof.Machine
end

section
/-! PROOF. The end of a roll call (R25-R27). -/

namespace Sys2Proof.Machine

namespace State

variable {s : State} {n : Shot} {e : Entry}

/-! ## A ring emptied in a roll call -/

/-- Outside Ready no tile is chosen. -/
theorem chooseTile_waits (hm : s.member.state ≠ .ready) : s.chooseTile = s := by
  have hnone : s.ring.roster.filter s.eligible = [] :=
    List.filter_eq_nil_iff.mpr fun e _ => by simp [eligible, hm]
  unfold chooseTile
  split
  · rfl
  · rw [hnone]
    rfl

theorem leaveTile_waits (hm : s.member.state ≠ .ready) (n : Shot) : (s.leaveTile n).ring = s.ring := by
  unfold leaveTile
  split
  · rw [chooseTile_waits (s := s.onTransfer fun t => { t with current := none }) hm]
    rfl
  · rfl

/-- Outside Ready a freed slot takes nothing of the ring but its own record and entry. -/
theorem freeSlot_ring (hm : s.member.state ≠ .ready) (he : s.entry? n = some e) : (s.freeSlot n).ring = Ring.remove n s.ring := by
  unfold freeSlot
  rw [he]
  dsimp only
  rw [tryStartJob_waits _ (by simpa using hm)]
  have hleft := leaveTile_waits (s := (State.developFreed n (s.onRing (Ring.remove n))).cancelBulk (Msg.isSegmentOf n)) (by simpa using hm) n
  simp only [voidPlacement_frame]
  rw [hleft]
  simp [cancelBulk]

/-- What the freeing of some shots outside Ready leaves of the ring. -/
structure FreedFrom (ns : List Shot) (s t : State) : Prop where
  ring : t.ring = { s.ring with slots := t.ring.slots, roster := t.ring.roster }
  length : t.ring.slots.length = s.ring.slots.length
  slots : ∀ x, some x ∈ t.ring.slots → some x ∈ s.ring.slots ∧ (x.shot ∈ ns → s.entry? x.shot = none)
  entries : ∀ m, t.entry? m ≠ none ↔ s.entry? m ≠ none ∧ m ∉ ns

theorem freeSlot_freedFrom (hm : s.member.state ≠ .ready) (n : Shot) : s.FreedFrom [n] (s.freeSlot n) := by
  have hentries : ∀ m, (s.freeSlot n).entry? m ≠ none ↔ s.entry? m ≠ none ∧ m ∉ [n] := fun m => by
    rw [freeSlot_entry?, List.mem_singleton]
  cases he : s.entry? n with
  | none =>
    rw [freeSlot_none he] at hentries ⊢
    exact ⟨rfl, rfl, fun x hx => ⟨hx, fun hn => by rw [List.mem_singleton.mp hn, he]⟩, hentries⟩
  | some e =>
    have hring := freeSlot_ring hm he
    refine ⟨by rw [hring]; rfl, by rw [hring]; exact List.length_map _, fun x hx => ?_, hentries⟩
    rw [hring] at hx
    obtain ⟨o, ho, hox⟩ := List.mem_map.mp hx
    split at hox
    · cases hox
    next hne =>
      subst hox
      refine ⟨ho, fun hn => absurd ?_ hne⟩
      simpa using List.mem_singleton.mp hn

theorem FreedFrom.trans {ns ms : List Shot} {t u : State} (h : s.FreedFrom ns t) (h' : t.FreedFrom ms u) : s.FreedFrom (ns ++ ms) u where
  ring := by
    have hring := h'.ring
    rw [h.ring] at hring
    exact hring
  length := h'.length.trans h.length
  slots := fun x hx => by
    obtain ⟨hx', hms⟩ := h'.slots x hx
    obtain ⟨hx'', hns⟩ := h.slots x hx'
    refine ⟨hx'', fun hn => ?_⟩
    obtain hn | hn := List.mem_append.mp hn
    · exact hns hn
    · by_contra hne
      by_cases hin : x.shot ∈ ns
      · exact hne (hns hin)
      · exact (h.entries x.shot).mpr ⟨hne, hin⟩ (hms hn)
  entries := fun m => by
    rw [h'.entries, h.entries, List.mem_append, not_or, and_assoc]

theorem freeAll_freedFrom (hm : s.member.state ≠ .ready) (ns : List Shot) : s.FreedFrom ns (ns.foldl (fun t n => t.freeSlot n) s) := by
  induction ns generalizing s with
  | nil => exact ⟨rfl, rfl, fun x hx => ⟨hx, nofun⟩, fun m => ⟨fun h => ⟨h, nofun⟩, And.left⟩⟩
  | cons n ns ih => exact (freeSlot_freedFrom hm n).trans (ih (by simpa using hm))

/-- A ring emptied in a roll call, whatever its next shot number is. -/
theorem emptyRing_rolling (hm : s.member.state ≠ .ready) (hlen : s.ring.slots.length = 8)
    (hslots : ∀ x, some x ∈ s.ring.slots → s.entry? x.shot ≠ none) :
    s.emptyRing.ring = { s.ring with slots := List.replicate 8 none, roster := [] } := by
  have hf := freeAll_freedFrom hm s.risingShots
  have hroster : s.emptyRing.ring.roster = [] := by
    refine List.eq_nil_iff_forall_not_mem.mpr fun e he => ?_
    have hne : s.emptyRing.entry? e.shot ≠ none := fun hnone => entry?_eq_none.mp hnone e he rfl
    obtain ⟨hs, hn⟩ := (hf.entries e.shot).mp hne
    exact hn (mem_risingShots.mpr hs)
  have hnone : s.emptyRing.ring.slots = List.replicate 8 none := by
    refine List.eq_replicate_iff.mpr ⟨hf.length.trans hlen, fun o ho => ?_⟩
    cases o with
    | none => rfl
    | some x =>
      obtain ⟨hx, hx'⟩ := hf.slots x ho
      have hsome := hslots x hx
      exact absurd (hx' (mem_risingShots.mpr hsome)) hsome
  have hring : s.emptyRing.ring = { s.ring with slots := s.emptyRing.ring.slots, roster := s.emptyRing.ring.roster } := hf.ring
  rw [hring, hnone, hroster]

theorem ringOk.slot_entry (h : s.ringOk) {x : Slot} (hx : some x ∈ s.ring.slots) : s.entry? x.shot ≠ none := by
  obtain ⟨-, -, hentry, -⟩ := h
  obtain ⟨i, hi⟩ := List.getElem?_of_mem hx
  obtain ⟨e, he, hshot, -⟩ := hentry i x hi
  exact fun hnone => entry?_eq_none.mp hnone e he hshot

/-! ## The four ends of a roll call -/

theorem anyDuplicated_iff : s.member.table.any (·.duplicated) = true ↔ ∃ m ∈ s.member.table, m.duplicated = true := List.any_eq_true

theorem anyDuplicated_false (h : ∀ m ∈ s.member.table, m.duplicated = false) : s.member.table.any (·.duplicated) = false := by
  rw [← Bool.not_eq_true, anyDuplicated_iff]
  rintro ⟨m, hm, hd⟩
  rw [h m hm] at hd
  cases hd

theorem endRollCall_duplicate (h : ∃ m ∈ s.member.table, m.duplicated = true) : s.endRollCall = { s with
    member := { s.member with state := .duplicate }, ring := { s.ring with next := s.member.highest }
    link := { s.link with rollHeld := [] }, develop := { s.develop with owed := [] } } := by
  rw [endRollCall, if_pos (anyDuplicated_iff.mpr h)]
  rfl

theorem endRollCall_unretained (h : ∀ m ∈ s.member.table, m.duplicated = false) (hr : s.member.retainedValid = false) :
    s.endRollCall = State.leaveRolling .configuring { s with ring := { s.ring with next := s.member.highest } } := by
  rw [endRollCall, anyDuplicated_false h, hr]
  rfl

theorem endRollCall_unchanged (h : ∀ m ∈ s.member.table, m.duplicated = false) (hr : s.member.retainedValid = true)
    (hsame : s.member.table.map (fun m => (m.number, m.serial)) = s.member.retained) : s.endRollCall = State.enterReady
      ((State.leaveRolling .ready { s with ring := { s.ring with next := s.member.highest } }).onCapture fun c =>
        { c with state := .disarmed }) := by
  have hyes : s.member.unchanged = true := by simp [Membership.unchanged, hsame]
  rw [endRollCall, anyDuplicated_false h, hr, hyes]
  rfl

theorem endRollCall_changed (h : ∀ m ∈ s.member.table, m.duplicated = false) (hr : s.member.retainedValid = true)
    (hdiff : s.member.table.map (fun m => (m.number, m.serial)) ≠ s.member.retained) : s.endRollCall = State.leaveRolling .configuring
      (State.emptyRing { s with
        ring := { s.ring with next := s.member.highest }, member := { s.member with retainedValid := false } }) := by
  have hno : s.member.unchanged = false := by simpa [Membership.unchanged] using hdiff
  rw [endRollCall, anyDuplicated_false h, hr, hno]
  rfl

theorem leaveRolling_member (st : StationState) (s : State) : (s.leaveRolling st).member = { s.member with state := st } := by
  simp [leaveRolling]

theorem leaveRolling_eq (st : StationState) (s : State) : s.leaveRolling st = { s with
    member := { s.member with state := st }, card := { s.card with letter := (s.leaveRolling st).card.letter }
    link := s.link.flushRollHeld } := by
  unfold leaveRolling settleLetter doIf
  split <;> rfl

theorem cardMembers_below : s.cardMembers.any (fun m => decide (m < s.self)) = true ↔
    ∃ m ∈ s.member.table, m.fitted.card = true ∧ m.number < s.self := by
  rw [cardMembers, List.any_map, List.any_filter, List.any_eq_true]
  simp

theorem leaveRolling_letter (st : StationState) (s : State) : (s.leaveRolling st).card.letter =
    if s.cardStation then some (if s.cardMembers.any (fun m => decide (m < s.self)) then .b else .a) else s.card.letter := by
  unfold leaveRolling settleLetter doIf
  split <;> rfl

theorem tryStartJob_top (s : State) : s.tryStartJob.ring.top = s.ring.top := by
  obtain h | ⟨x, -, -, -, -, -, h⟩ := s.tryStartJob_cases
  · rw [h]
  · rw [h]
    rfl

theorem enterReady_top (s : State) : s.enterReady.ring.top = s.ring.top := by
  rw [enterReady, chooseTile_ring]
  exact (tryStartJob_top _).trans (by simp)

/-! ## The rows of the roll timer -/

theorem exec_rollWindow (h : s.member.state = .rolling) (ho : s.member.ownRollOut = true) (hd : (s.timer .roll).due = true) :
    exec .rollWindowExpiry s = .next (State.endRollCall { s with clock := s.clockAfter .roll }) := by
  have hrow : s.rollRow = .rollWindowExpiry := by rw [rollRow, ho]; rfl
  have hexec := exec_rollRow h
  rw [hrow, expire_due _ s hd] at hexec
  rw [hexec]
  refine congrArg _ ?_
  change State.rollExpiry { s with clock := s.clockAfter .roll } = _
  unfold rollExpiry
  dsimp only
  rw [h, ho]
  rfl

theorem exec_rollWait (h : s.member.state = .rolling) (ho : s.member.ownRollOut = false) :
    exec .rollWaitExpiry s = .next (if (s.timer .roll).due then { s with
      clock := s.clockAfter .roll
      link := s.linkAfter 15#4
        (.roll (s.self.setWidth 8) s.member.serial s.member.straps.fitted s.ring.next s.member.rejoin) } else s) := by
  have hrow : s.rollRow = .rollWaitExpiry := by rw [rollRow, ho]; rfl
  have hexec := exec_rollRow h
  rw [hrow] at hexec
  rw [hexec]
  refine congrArg _ ?_
  cases hd : (s.timer .roll).due with
  | false => exact expire_not_due _ s hd
  | true =>
    rw [expire_due _ s hd]
    change State.rollExpiry { s with clock := s.clockAfter .roll } = _
    unfold rollExpiry
    dsimp only
    rw [h, ho]
    rfl

theorem endRollCall_cardStation (s : State) : s.endRollCall.cardStation = s.cardStation := by simp [cardStation]

theorem expire_cardStation (id : TimerId) (s : State) : (s.expire id).cardStation = s.cardStation := by simp [cardStation]

end State

open State in
/-- Settles O15: the four ends of a roll call, and what a frame makes of one. -/
theorem rollTimerQueuesTheRollAndEndsTheRollCall : Obligations.RollTimerQueuesTheRollAndEndsTheRollCall := by
  refine ⟨fun s hroll hout hdue => ?_, fun c s hshown hp hroll hrejoin => ?_, fun s hroll hout => exec_rollWait hroll hout⟩
  · rw [exec_rollWindow hroll hout hdue]
    refine ⟨fun hdup => ?_, fun hnodup hret => ?_, fun hnodup hret hsame => ?_, fun hnodup hret hdiff hok => ?_, rfl⟩
    · rw [endRollCall_duplicate (s := { s with clock := s.clockAfter .roll }) hdup]
    · refine ⟨_, congrArg _ (endRollCall_unretained (s := { s with clock := s.clockAfter .roll }) hnodup hret),
        leaveRolling_eq _ _, fun hno => ?_, fun hcard => ?_⟩
      · rw [leaveRolling_letter]
        exact if_neg fun hyes => Bool.false_ne_true (hno.symm.trans hyes)
      · rw [leaveRolling_letter]
        refine (if_pos hcard).trans (congrArg some ?_)
        exact if_congr (cardMembers_below (s := s)) rfl rfl
    · refine ⟨_, congrArg _ (endRollCall_unchanged (s := { s with clock := s.clockAfter .roll }) hnodup hret hsame), ?_⟩
      simp only [enterReady_frame, enterReady_top, onCapture_member, onCapture_capture, onCapture_ring, onCapture_clock, onCapture_dark,
        onCapture_sync, onCapture_power, leaveRolling_frame, leaveRolling_member, and_self]
    · refine ⟨_, congrArg _ (endRollCall_changed (s := { s with clock := s.clockAfter .roll }) hnodup hret hdiff), ?_⟩
      have hready : s.member.state ≠ .ready := by rw [hroll]; decide
      have hring := emptyRing_rolling (s := { s with
        clock := s.clockAfter .roll, ring := { s.ring with next := s.member.highest }
        member := { s.member with retainedValid := false } }) hready hok.1 fun x hx => hok.slot_entry hx
      simp only [leaveRolling_frame, leaveRolling_member, emptyRing_frame, hring, and_self]
  · obtain ⟨k, handle, hrequest, hmark, hexec⟩ := exec_shown hshown
    refine ⟨fun hdue u hu => ?_, fun hc hout hother => ?_, fun hc hno => ?_⟩
    · rw [exec_rollRow hroll] at hu
      cases hu
      rw [hexec s rfl, hexec _ (expire_cardStation _ s), event, event, expiriesFirst_roll hp hroll hdue]
    · have hhears : s.hearsOthers = true := by simpa [hearsOthers] using hother
      rw [hexec s rfl, hexec _ (endRollCall_cardStation s), event_of_calm _ s hc, event_of_calm _ _ (endRollCall_calm hc),
        take_ends _ _ s hp hroll hrejoin hout hhears]
    · have hnone : s.member.ownRollOut = false ∨ s.hearsOthers = false := by
        refine hno.imp id fun hself => ?_
        simpa [hearsOthers] using hself
      rw [hexec s rfl, event_of_calm _ s hc, take_excludes _ _ s hp hroll hrejoin hnone]
      refine ⟨fun hm => ?_, fun hm => ?_⟩
      · rw [if_neg]
        · rfl
        · rintro (h | h)
          · exact nomatch hm.symm.trans (hmark.mp h)
          · exact hrequest h
      · have hk := hmark.mpr hm
        rw [if_pos (.inl hk), hexec s.excludedByFrame rfl, event_of_calm _ _ (excludedByFrame_calm hc),
          take_excluded _ _ s.excludedByFrame hp rfl, if_pos (.inl hk)]
        rfl

end Sys2Proof.Machine
end

section
/-! PROOF. Sync outcomes recorded, and the first Open of a shot (R60-R62). -/

namespace Sys2Proof.Machine

/-- The station once the record of a shot's outcome has left slot records, the current job and a roster entry changed at most. -/
structure Slot.Outcome (x y : Slot) : Prop where
  same : y = { x with tag := y.tag, outcome := y.outcome, skew := y.skew, skewed := y.skewed }
  notRaw : x.tag ≠ .raw → y.tag = x.tag
  raw : x.tag = .raw → y.tag = .raw ∨ y.tag = .developing

namespace State

variable {s : State} {n m : Shot} {x y z : Slot} {a t : Time} {edge : Option Time} {e : Entry} {source : Node}

/-! ## The table of R60 -/

theorem ownEdgeOf_eq (n : Shot) (s : State) : s.ownEdgeOf n = s.edgeFor n := by
  unfold ownEdgeOf edgeFor
  cases s.capture.exposure with
  | none => rfl
  | some k => by_cases hk : k.shot = n <;> simp [Option.filter, hk]

/-- What is written into the slot record is the table's row. -/
theorem recordSync_recordedAs (edge : Option Time) (a : Time) (x : Slot) (s : State) :
    s.recordedAs edge x (x.recordSync s.settings.skewTolerance edge a) a := by
  have hskewed : decide (s.settings.skewTolerance < ((x.ownStart.toNat : Int) - a.toNat).natAbs) =
      decide ((s.settings.skewTolerance : Int) < |(x.ownStart.toNat : Int) - a.toNat|) :=
    decide_eq_decide.mpr (by rw [← Int.natCast_natAbs, Int.ofNat_lt])
  refine ⟨by rw [Slot.recordSync, hskewed], fun _ => rfl, fun h => .inl h, fun he => ?_, fun E hE => ⟨fun h => ?_, fun h => ?_, fun h h' => ?_⟩⟩
  · rw [he]
    rfl
  · simp only [Slot.recordSync, hE, syncOutcome, if_pos h]
  · have hnot : ¬(E.toNat : Int) - a.toNat < -(s.settings.skewTolerance : Int) := by omega
    simp only [Slot.recordSync, hE, syncOutcome, if_neg hnot, if_pos h]
  · have hnot : ¬(E.toNat : Int) - a.toNat < -(s.settings.skewTolerance : Int) := by omega
    simp only [Slot.recordSync, hE, syncOutcome, if_neg hnot, if_neg (Int.not_lt.mpr h')]

/-- The test of R112 after the record. -/
theorem recordedAs.started (h : s.recordedAs edge x y a) (hz : y.MayHaveStarted z) : s.recordedAs edge x z a := by
  obtain ⟨hsame, hnotRaw, hraw, hnone, hedge⟩ := h
  have hz' := hz.same
  have hout : z.outcome = y.outcome := by rw [hz']
  refine ⟨?_, fun hx => ?_, fun hx => ?_, by rwa [hout], by rwa [hout]⟩
  · rw [hz', hsame]
  · rw [hz.notRaw (by rwa [hnotRaw hx]), hnotRaw hx]
  · obtain hy | hy := hraw hx
    · exact hz.raw hy
    · exact .inr (by rw [hz.notRaw (by rw [hy]; decide), hy])

/-- The dark status and the tile's start before the record. -/
theorem recordedAs.before {x' : Slot} (h : s.recordedAs edge x' y a) (hx : x.MayHaveStarted x') : s.recordedAs edge x y a := by
  obtain ⟨hsame, hnotRaw, hraw, hrest⟩ := h
  refine ⟨?_, fun hr => ?_, fun hr => ?_, hrest⟩
  · rw [hsame, hx.same]
  · have htag := hx.notRaw hr
    rw [hnotRaw (by rwa [htag]), htag]
  · obtain htag | htag := hx.raw hr
    · exact hraw htag
    · exact .inr (by rw [hnotRaw (by rw [htag]; decide), htag])

/-- The table reads nothing of the station but its skew tolerance. -/
theorem recordedAs.congr {u : State} (h : s.recordedAs edge x y a) (hm : u.member = s.member) : u.recordedAs edge x y a := by
  unfold recordedAs settings at h ⊢
  rwa [hm]

/-! ## The record -/

theorem recordOutcome_records (hx : s.slot? n = some x) (ha : (s.entry? n).bind (·.agreedOpen) = some a) (ho : x.outcome = none)
    (hw : s.windowOver n = true) :
    s.recordOutcome n = (s.updSlot n (Slot.recordSync s.settings.skewTolerance (s.edgeFor n) a)).tryStartJob := by
  unfold recordOutcome
  rw [hx, ha, ownEdgeOf_eq]
  dsimp only
  rw [ho, hw]
  rfl

/-- A record changes slot records and the current job alone. -/
theorem recordOutcome_eq (n : Shot) (s : State) : s.recordOutcome n =
    { s with ring := { s.ring with slots := (s.recordOutcome n).ring.slots }, develop := (s.recordOutcome n).develop } := by
  unfold recordOutcome
  split
  · split
    · rw [tryStartJob_eq]
      rfl
    · rfl
  · rfl

theorem recordOutcome_same (n : Shot) (s : State) : s.recordOutcome n =
    { s with ring := (s.recordOutcome n).ring, develop := (s.recordOutcome n).develop } := by rw [recordOutcome_eq]

theorem recordOutcome_roster (n : Shot) (s : State) : (s.recordOutcome n).ring.roster = s.ring.roster := by rw [recordOutcome_eq]

theorem recordOutcome_entry? (n m : Shot) (s : State) : (s.recordOutcome n).entry? m = s.entry? m :=
  entry?_congr (recordOutcome_roster n s) m

/-- The slot record of a shot whose outcome is recorded. -/
theorem ringOk.recordOutcome_slot? (h : s.ringOk) (hx : s.slot? n = some x) (ha : (s.entry? n).bind (·.agreedOpen) = some a)
    (ho : x.outcome = none) (hw : s.windowOver n = true) :
    ∃ y, (s.recordOutcome n).slot? n = some y ∧ s.recordedAs (s.edgeFor n) x y a ∧ y.dark = x.dark := by
  have hok : (s.updSlot n (Slot.recordSync s.settings.skewTolerance (s.edgeFor n) a)).ringOk :=
    h.congr (updSlot_shots _ _ _ fun _ => by rfl)
  have hslot : (s.updSlot n (Slot.recordSync s.settings.skewTolerance (s.edgeFor n) a)).slot? n =
      some (x.recordSync s.settings.skewTolerance (s.edgeFor n) a) := by
    rw [updSlot_slot? _ _ _ _ fun _ => by rfl, hx, Option.map_some, if_pos rfl]
  obtain ⟨y, hy, hstarted⟩ := hok.tryStartJob_slot? hslot
  refine ⟨y, by rw [recordOutcome_records hx ha ho hw, hy], (recordSync_recordedAs _ a x s).started hstarted, ?_⟩
  rw [hstarted.same]
  rfl

/-- A record leaves of any slot record all but outcome, skew and the start of its job. -/
theorem ringOk.recordOutcome_outcome (h : s.ringOk) (n : Shot) (hx : s.slot? m = some x) :
    ∃ y, (s.recordOutcome n).slot? m = some y ∧ x.Outcome y := by
  have hsame : ∃ y, s.slot? m = some y ∧ x.Outcome y := ⟨x, hx, rfl, fun _ => rfl, .inl⟩
  unfold recordOutcome
  split
  next x' a' _ _ =>
    split
    · have hok : (s.updSlot n (Slot.recordSync s.settings.skewTolerance (s.ownEdgeOf n) a')).ringOk :=
        h.congr (updSlot_shots _ _ _ fun _ => by rfl)
      have hslot := updSlot_slot? n m (Slot.recordSync s.settings.skewTolerance (s.ownEdgeOf n) a') s fun _ => by rfl
      rw [hx, Option.map_some] at hslot
      obtain ⟨y, hy, hstarted⟩ := hok.tryStartJob_slot? hslot
      refine ⟨y, hy, ?_⟩
      have hy' := hstarted.same
      by_cases hm : m = n
      · rw [if_pos hm] at hstarted hy'
        exact ⟨by rw [hy']; rfl, hstarted.notRaw, hstarted.raw⟩
      · rw [if_neg hm] at hstarted hy'
        exact ⟨by rw [hy'], hstarted.notRaw, hstarted.raw⟩
    · exact hsame
  · exact hsame

/-- A record of one shot leaves of another's slot record all but the start of its job. -/
theorem ringOk.recordOutcome_other (h : s.ringOk) (hm : m ≠ n) (hx : s.slot? m = some x) :
    ∃ y, (s.recordOutcome n).slot? m = some y ∧ x.MayHaveStarted y := by
  unfold recordOutcome
  split
  next x' a' _ _ =>
    split
    · have hok : (s.updSlot n (Slot.recordSync s.settings.skewTolerance (s.ownEdgeOf n) a')).ringOk :=
        h.congr (updSlot_shots _ _ _ fun _ => by rfl)
      have hslot := updSlot_slot? n m (Slot.recordSync s.settings.skewTolerance (s.ownEdgeOf n) a') s fun _ => by rfl
      rw [hx, Option.map_some, if_neg hm] at hslot
      exact hok.tryStartJob_slot? hslot
    · exact ⟨x, hx, .refl x⟩
  · exact ⟨x, hx, .refl x⟩

/-! ## The agreed open -/

theorem Entry.openAt_eq (t : Time) (e : Entry) : e.openAt t = { e with
    agreedOpen := some (e.agreedOpen.getD t)
    agreedDuration := match e.agreedOpen, e.agreedClose with
      | none, some c => some ((c.toNat : Int) - t.toNat)
      | _, _ => e.agreedDuration } := by
  obtain ⟨shot, slot, open?, taken, opener, close?, duration, rest⟩ := e
  cases open? <;> cases close? <;> rfl

theorem agreeOpen_known (h : ∀ e, s.entry? n = some e → e.agreedOpen ≠ none) : s.agreeOpen n t = s := by
  refine if_neg ?_
  rw [Option.any_eq_true]
  rintro ⟨e, he, hno⟩
  exact h e he (Option.isNone_iff_eq_none.mp hno)

theorem agreeOpen_absent (he : s.entry? n = some e) (ho : e.agreedOpen = none) :
    s.agreeOpen n t = (s.updEntry n (Entry.openAt t)).recordOutcome n := by
  refine if_pos ?_
  rw [he, Option.any_some, ho]
  rfl

theorem openAt_entry? (he : s.entry? n = some e) : (s.updEntry n (Entry.openAt t)).entry? n = some (e.openAt t) := by
  rw [updEntry_entry? _ _ _ _ fun e => (Entry.openAt_same t e).1, he, Option.map_some, if_pos rfl]

theorem agreeOpen_entry? (he : s.entry? n = some e) : (s.agreeOpen n t).entry? n = some (e.openAt t) := by
  cases ho : e.agreedOpen with
  | none => rw [agreeOpen_absent he ho, recordOutcome_entry?, openAt_entry? he]
  | some a =>
    have hsame : e.openAt t = e := by rw [Entry.openAt, ho]
    rw [agreeOpen_known fun f hf => by rw [Option.some.inj (hf.symm.trans he), ho]; simp, he, hsame]

/-- An agreed open changes the ring and the current job alone. -/
theorem agreeOpen_eq (n : Shot) (t : Time) (s : State) : s.agreeOpen n t =
    { s with ring := { s.ring with slots := (s.agreeOpen n t).ring.slots, roster := (s.agreeOpen n t).ring.roster }
             develop := (s.agreeOpen n t).develop } := by
  unfold agreeOpen
  split
  · rw [recordOutcome_eq]
    rfl
  · rfl

theorem agreeOpen_otherEntries (n : Shot) (t : Time) (s : State) : sameOtherEntries n s (s.agreeOpen n t) := by
  intro m hm
  unfold agreeOpen
  split
  · rw [recordOutcome_entry?, updEntry_entry? _ _ _ _ fun e => (Entry.openAt_same t e).1]
    simp [hm]
  · rfl

end State

end Sys2Proof.Machine
end

section
/-! PROOF. The first Open of a shot, and what an Open leaves of the other shots (R60, R61). -/

namespace Sys2Proof.Machine

namespace State

variable {s : State} {n m : Shot} {x y : Slot} {a t E : Time} {e : Entry} {source : Node}

/-- The roster entry with its opener settled, in the entry's own words. -/
theorem openedBy_eq (own : Bool) (t : Time) (e : Entry) : e.openedBy own t =
    if e.openTaken then e.openAt t else { e.openAt t with openTaken := true, opener := own } := by
  obtain ⟨shot, slot, open?, taken, opener, rest⟩ := e
  rw [Entry.openAt_eq, Entry.openedBy]
  cases taken <;> rfl

/-! ## The opener -/

theorem settleOpener_settled (he : s.entry? n = some e) (ht : e.openTaken = true) : s.settleOpener source n = s := by
  unfold settleOpener
  rw [he]
  exact if_pos ht

theorem settleOpener_first (he : s.entry? n = some e) (ht : e.openTaken = false) : s.settleOpener source n =
    (s.updEntry n fun f => { f with openTaken := true, opener := source == s.self }).doIf (source == s.self) (raiseShotOpened n) := by
  unfold settleOpener
  rw [he]
  exact if_neg (by simp [ht])

theorem settleOpener_absent (he : s.entry? n = none) : s.settleOpener source n = s := by
  unfold settleOpener
  rw [he]

/-- The settling of an opener changes the roster and the notices alone. -/
theorem settleOpener_eq (source : Node) (n : Shot) (s : State) : s.settleOpener source n =
    { s with ring := { s.ring with roster := (s.settleOpener source n).ring.roster }, notices := (s.settleOpener source n).notices } := by
  unfold settleOpener
  split
  · rfl
  · split
    · rfl
    · unfold doIf
      split
      · unfold raiseShotOpened
        split
        · split <;> rfl
        · rfl
      · rfl

theorem settleOpener_slot? (source : Node) (n m : Shot) (s : State) : (s.settleOpener source n).slot? m = s.slot? m :=
  slot?_congr (by rw [settleOpener_eq]) m

theorem doIf_raiseShotOpened_entry? (b : Bool) (n m : Shot) (s : State) : (s.doIf b (raiseShotOpened n)).entry? m = s.entry? m :=
  entry?_congr (by cases b <;> simp) m

theorem settleOpener_entry? (he : s.entry? n = some e) : (s.settleOpener source n).entry? n =
    some (if e.openTaken then e else { e with openTaken := true, opener := source == s.self }) := by
  cases ht : e.openTaken with
  | true => rw [settleOpener_settled he ht, he, if_pos rfl]
  | false =>
    rw [settleOpener_first he ht, doIf_raiseShotOpened_entry?, updEntry_entry? _ _ _ _ fun _ => by rfl, he, Option.map_some, if_pos rfl]
    rfl

theorem settleOpener_otherEntries (source : Node) (n : Shot) (s : State) : sameOtherEntries n s (s.settleOpener source n) := by
  intro m hm
  cases he : s.entry? n with
  | none => rw [settleOpener_absent he]
  | some e =>
    cases ht : e.openTaken with
    | true => rw [settleOpener_settled he ht]
    | false =>
      rw [settleOpener_first he ht, doIf_raiseShotOpened_entry?]
      exact updEntry_sameOther n _ s (fun _ => by rfl) m hm

/-- ShotOpened, of a shot whose integration has ended. -/
theorem raiseShotOpened_ended (hx : s.slot? n = some x) (he : s.entry? n = some e) (hE : x.ownEnd = some E) :
    s.raiseShotOpened n = s.raise (.shotOpened n (e.agreedOpen.getD 0#64) E x.limit (BitVec.ofNat 8 (x.bounces.getD 0))) := by
  unfold raiseShotOpened
  rw [hx, he]
  dsimp only
  rw [hE]

theorem settleOpener_notices (he : s.entry? n = some e) (ht : e.openTaken = false) (hx : s.slot? n = some x) (hE : x.ownEnd = some E) :
    (s.settleOpener source n).notices = if source = s.self then
      s.notices.raise (.shotOpened n (e.agreedOpen.getD 0#64) E x.limit (BitVec.ofNat 8 (x.bounces.getD 0))) else s.notices := by
  rw [settleOpener_first he ht]
  by_cases hs : source = s.self
  · rw [if_pos hs, beq_iff_eq.mpr hs, doIf_true]
    have hopened := raiseShotOpened_ended (s := s.updEntry n fun f => { f with openTaken := true, opener := true })
      (e := { e with openTaken := true, opener := true }) hx
      (by rw [updEntry_entry? _ _ _ _ fun _ => by rfl, he, Option.map_some, if_pos rfl]) hE
    rw [hopened]
    rfl
  · rw [if_neg hs, beq_eq_false_iff_ne.mpr hs]
    rfl

/-! ## An Open taken -/

theorem takeAgreedOpen_absent (he : s.entry? n = none) : s.takeAgreedOpen source n t = s := by
  rw [takeAgreedOpen, agreeOpen_known (by simp [he]), settleOpener_absent he]

/-- An Open taken changes the ring's records, the current job and the notices alone. -/
theorem takeAgreedOpen_eq (source : Node) (n : Shot) (t : Time) (s : State) : s.takeAgreedOpen source n t = { s with
    ring := (s.takeAgreedOpen source n t).ring, notices := (s.takeAgreedOpen source n t).notices
    develop := (s.takeAgreedOpen source n t).develop } := by
  rw [takeAgreedOpen, settleOpener_eq, agreeOpen_eq]

theorem takeAgreedOpen_entry? (he : s.entry? n = some e) :
    (s.takeAgreedOpen source n t).entry? n = some (e.openedBy (source == s.self) t) := by
  have hself : (s.agreeOpen n t).self = s.self := by simp [State.self]
  have htaken : (e.openAt t).openTaken = e.openTaken := by rw [Entry.openAt_eq]
  rw [takeAgreedOpen, settleOpener_entry? (agreeOpen_entry? he), openedBy_eq, htaken, hself]

theorem takeAgreedOpen_otherEntries (source : Node) (n : Shot) (t : Time) (s : State) :
    sameOtherEntries n s (s.takeAgreedOpen source n t) := fun m hm =>
  (settleOpener_otherEntries source n _ m hm).trans (agreeOpen_otherEntries n t s m hm)

/-- An Open taken leaves of another shot's slot record all but the start of its job. -/
theorem ringOk.takeAgreedOpen_other (h : s.ringOk) (source : Node) (t : Time) (hm : m ≠ n) (hx : s.slot? m = some x) :
    ∃ y, (s.takeAgreedOpen source n t).slot? m = some y ∧ x.MayHaveStarted y := by
  rw [takeAgreedOpen, settleOpener_slot?]
  unfold agreeOpen
  split
  · exact recordOutcome_other (h.congr (updEntry_shots' _ _ _ fun e => Entry.openAt_same t e)) hm hx
  · exact ⟨x, hx, .refl x⟩

/-- The slot record of the shot itself keeps all but outcome, skew and the start of its job. -/
theorem ringOk.takeAgreedOpen_outcome (h : s.ringOk) (source : Node) (t : Time) (hx : s.slot? n = some x) :
    ∃ y, (s.takeAgreedOpen source n t).slot? n = some y ∧ x.Outcome y := by
  rw [takeAgreedOpen, settleOpener_slot?]
  unfold agreeOpen
  split
  · exact recordOutcome_outcome (h.congr (updEntry_shots' _ _ _ fun e => Entry.openAt_same t e)) n hx
  · exact ⟨x, hx, rfl, fun _ => rfl, .inl⟩

/-- An Open below the next shot number is no trigger. -/
theorem exec_openTaken_observes (hf : s.inForce) (hcalm : s.calm) (hn : n < s.ring.next) :
    exec (.openTaken source n t) s = .next (s.takeAgreedOpen source n t) := by
  have hno : s.triggers n = false := by
    rw [triggers, decide_eq_false (BitVec.not_le.mpr hn)]
    rfl
  have hexec : exec (.openTaken source n t) s = .next (captureOpen source n t s) :=
    (event_of_calm _ s hcalm).trans (congrArg _ (take_inForce _ _ hf))
  rw [hexec, captureOpen, hno]
  rfl

/-- An Open that gives the agreed open outside the shot's window records the outcome. -/
theorem ringOk.takeAgreedOpen_records (h : s.ringOk) (hx : s.slot? n = some x) (he : s.entry? n = some e) (ho : e.agreedOpen = none)
    (hout : x.outcome = none) (hw : s.windowOver n = true) :
    ∃ y, (s.takeAgreedOpen source n t).slot? n = some y ∧ s.recordedAs (s.edgeFor n) x y t ∧ y.dark = x.dark := by
  have hopened := openAt_entry? (t := t) he
  have hagreed : ((s.updEntry n (Entry.openAt t)).entry? n).bind (·.agreedOpen) = some t := by
    rw [hopened, Option.bind_some, Entry.openAt_eq, ho]
    rfl
  rw [takeAgreedOpen, settleOpener_slot?, agreeOpen_absent he ho]
  exact recordOutcome_slot? (s := s.updEntry n (Entry.openAt t)) (h.congr (updEntry_shots' _ _ _ fun e => Entry.openAt_same t e)) hx
    hagreed hout hw

/-- An Open inside the shot's window, or with the agreed open present, changes no slot record. -/
theorem takeAgreedOpen_silent (h : (∀ e, s.entry? n = some e → e.agreedOpen ≠ none) ∨
    (n = s.capture.current ∧ s.capture.windowEnded = false)) (m : Shot) :
    (s.takeAgreedOpen source n t).slot? m = s.slot? m ∧ (s.takeAgreedOpen source n t).develop = s.develop := by
  have hagree : (s.agreeOpen n t).ring.slots = s.ring.slots ∧ (s.agreeOpen n t).develop = s.develop := by
    obtain h | ⟨hn, hw⟩ := h
    · rw [agreeOpen_known h]
      exact ⟨rfl, rfl⟩
    · unfold agreeOpen
      split
      · rw [recordOutcome_inside (s := s.updEntry n (Entry.openAt t)) hn hw]
        exact ⟨rfl, rfl⟩
      · exact ⟨rfl, rfl⟩
  rw [takeAgreedOpen, settleOpener_slot?, settleOpener_eq]
  exact ⟨slot?_congr hagree.1 m, hagree.2⟩

/-! ## The end of the attribution window -/

/-- The station once the attribution timer's expiry has ended the window of the current shot. -/
def windowClosed (s : State) : State :=
  { s with clock := s.clockAfter .attribution, capture := { s.capture with windowEnded := true } }

theorem exec_attributionExpiry (h : s.expires .attribution) :
    exec .attributionExpiry s = .next (s.windowClosed.recordOutcome s.capture.current) :=
  congrArg _ (expire_expires h)

theorem windowClosed_over (n : Shot) (s : State) : s.windowClosed.windowOver n = true := Bool.or_true _

end State

end Sys2Proof.Machine
end

section
/-! PROOF. Triggers: a dark capture that gives way, and what a trigger makes of the slot records (R58-R60, R104). -/

namespace Sys2Proof.Machine

/-- A slot record once a dark capture has been abandoned: a shot that awaited it may be left without a dark frame, and the test of
R112 may have started its job. -/
structure Slot.GaveWay (x y : Slot) : Prop where
  same : y = { x with tag := y.tag, dark := y.dark }
  notRaw : x.tag ≠ .raw → y.tag = x.tag
  raw : x.tag = .raw → y.tag = .raw ∨ y.tag = .developing
  dark : y.dark = x.dark ∨ (x.dark = some .awaiting ∧ y.dark = some .none)

theorem Slot.GaveWay.refl (x : Slot) : x.GaveWay x := ⟨rfl, fun _ => rfl, .inl, .inl rfl⟩

namespace State

/-- A dark capture has the sensor tile. -/
abbrev inDark (s : State) : Prop := s.capture.state = .darkExposing ∨ s.capture.state = .darkReading

variable {s : State} {n m : Shot} {x y : Slot} {a t start : Time} {edge : Option Time} {e : Entry} {k : DarkCapture}

/-! ## A dark capture gives way -/

theorem inDark_true (h : s.inDark) : (s.capture.state == .darkExposing || s.capture.state == .darkReading) = true := by
  obtain h | h := h <;> simp [h]

theorem giveWay_still (h : ¬s.inDark) : s.giveWay = s := giveWay_none (fun hd => h (.inl hd)) fun hd => h (.inr hd)

theorem giveWay_abandons (h : s.inDark) (hk : s.dark.capture = some k) :
    s.giveWay = (((s.darkLeft k).tryStartJob).broadcast (.readDone k.shot .dark false)).onCapture Capture.settle := by
  unfold giveWay
  rw [inDark_true h, hk, abandonDark_eq hk]
  rfl

theorem giveWay_unheld (h : s.inDark) (hk : s.dark.capture = none) :
    s.giveWay = s.onCapture fun c => ({ c with exposure := none } : Capture).settle := by
  unfold giveWay
  rw [inDark_true h, hk]
  rfl

theorem darkLeft_ring (k : DarkCapture) (s : State) : (s.darkLeft k).ring = { s.ring with slots := (s.darkLeft k).ring.slots } := by
  unfold darkLeft
  cases k.shot != 0#32 <;> rfl

/-- The station once a dark capture in hand has given way (R58 step 1, R104). -/
theorem giveWay_dark (h : s.inDark) (hk : s.dark.capture = some k) : s.giveWay = { s with
    link := s.linkAfter 15#4 (.readDone k.shot .dark false)
    clock := { s.clock with timers := s.timersLeft k }
    dark := { s.dark with capture := none }
    capture := { s.capture with
      state := s.capture.settledState, haltPending := false, disarmPending := false, exposure := none }
    ring := { s.ring with slots := s.giveWay.ring.slots }, develop := s.giveWay.develop } := by
  have heq := (tryStartJob_eq (s.darkLeft k)).trans (congrArg (fun r : Ring => { s.darkLeft k with
    ring := { r with slots := (s.darkLeft k).tryStartJob.ring.slots }, develop := (s.darkLeft k).tryStartJob.develop }) (darkLeft_ring k s))
  rw [giveWay_abandons h hk, heq]
  rfl

theorem darkLeft_slot? (k : DarkCapture) (m : Shot) (s : State) : (s.darkLeft k).slot? m = (s.slot? m).map fun x =>
    if m = k.shot ∧ k.shot ≠ 0#32 ∧ x.dark = some .awaiting then { x with dark := some .none } else x := by
  have hring : (s.darkLeft k).slot? m = (s.doIf (k.shot != 0#32) (settleAwaiting k.shot .none)).slot? m := slot?_congr rfl m
  rw [hring]
  by_cases hz : k.shot = 0#32
  · simp [hz]
  · have hnz : (k.shot != 0#32) = true := bne_iff_ne.mpr hz
    rw [hnz, doIf_true, settleAwaiting, updSlot_slot? _ _ _ _ fun x => by split <;> rfl]
    refine congrArg (fun f => Option.map f _) (funext fun x => ?_)
    by_cases hm : m = k.shot
    · by_cases hd : x.dark = some .awaiting <;> simp [hm, hz, hd]
    · simp [hm]

theorem darkLeft_shots (k : DarkCapture) (s : State) : (s.darkLeft k).shots = s.shots := by
  have hring : (s.darkLeft k).shots = (s.doIf (k.shot != 0#32) (settleAwaiting k.shot .none)).shots := shots_congr rfl (by simp [darkLeft])
  rw [hring]
  simp

/-- The slot record of the shot that an abandoned dark capture served, and of every other. -/
theorem ringOk.darkLeft_slot (h : s.ringOk) (k : DarkCapture) (hx : s.slot? m = some x) :
    ∃ y, (s.darkLeft k).tryStartJob.slot? m = some y ∧ x.GaveWay y ∧
      (m = k.shot → k.shot ≠ 0#32 → x.dark = some .awaiting → y.dark = some .none) := by
  have hslot := darkLeft_slot? k m s
  rw [hx, Option.map_some] at hslot
  have hok : (s.darkLeft k).ringOk := h.congr (darkLeft_shots k s)
  obtain ⟨y, hy, hstarted⟩ := hok.tryStartJob_slot? hslot
  refine ⟨y, hy, ?_⟩
  have hsame := hstarted.same
  split at hstarted
  next hcond =>
    rw [if_pos hcond] at hsame
    exact ⟨⟨by rw [hsame], hstarted.notRaw, hstarted.raw, .inr ⟨hcond.2.2, by rw [hsame]⟩⟩, fun _ _ _ => by rw [hsame]⟩
  next hcond =>
    rw [if_neg hcond] at hsame
    exact ⟨⟨by rw [hsame], hstarted.notRaw, hstarted.raw, .inl (by rw [hsame])⟩, fun hm hz hd => absurd ⟨hm, hz, hd⟩ hcond⟩

theorem ringOk.giveWay_slot (h : s.ringOk) (hx : s.slot? m = some x) : ∃ y, s.giveWay.slot? m = some y ∧ x.GaveWay y := by
  by_cases hd : s.inDark
  · cases hk : s.dark.capture with
    | none =>
      rw [giveWay_unheld hd hk]
      exact ⟨x, hx, .refl x⟩
    | some k =>
      obtain ⟨y, hy, hway, -⟩ := h.darkLeft_slot k hx
      rw [giveWay_abandons hd hk]
      exact ⟨y, hy, hway⟩
  · rw [giveWay_still hd]
    exact ⟨x, hx, .refl x⟩

theorem giveWay_roster (s : State) : s.giveWay.ring.roster = s.ring.roster := by
  by_cases hd : s.inDark
  · cases hk : s.dark.capture with
    | none => rw [giveWay_unheld hd hk]; rfl
    | some k => rw [giveWay_dark hd hk]
  · rw [giveWay_still hd]

/-- The current shot and its window stay, and an exposure in hand goes with the dark capture. -/
theorem giveWay_current (s : State) : s.giveWay.capture.current = s.capture.current ∧
    s.giveWay.capture.exposure = if s.inDark then none else s.capture.exposure := by
  by_cases hd : s.inDark
  · rw [if_pos hd]
    cases hk : s.dark.capture with
    | none => rw [giveWay_unheld hd hk]; exact ⟨rfl, rfl⟩
    | some k => rw [giveWay_dark hd hk]; exact ⟨rfl, rfl⟩
  · rw [if_neg hd, giveWay_still hd]
    exact ⟨rfl, rfl⟩

/-! ## The first steps of a trigger -/

/-- The station at a trigger, before it records the outcome of the shot that was current. -/
def counted (n : Shot) (s : State) : State :=
  ((s.giveWay.onRing fun r => { r with next := nextShot n }).onCapture fun c => { c with current := n, windowEnded := false }).loadTimer
    .attribution Config.attributionWindow

theorem beginTrigger_counted (n : Shot) (s : State) : s.beginTrigger n = ((s.counted n).recordOutcome s.capture.current).fillQuiet := by
  have hcurrent : (s.giveWay.onRing fun r => { r with next := nextShot n }).capture.current = s.capture.current := (giveWay_current s).1
  unfold beginTrigger
  dsimp only
  rw [hcurrent]
  rfl

theorem beginTrigger_roster (n : Shot) (s : State) : (s.beginTrigger n).ring.roster = s.ring.roster := by
  have hfill : (s.beginTrigger n).ring = ((s.counted n).recordOutcome s.capture.current).ring := by
    rw [beginTrigger_counted]
    simp
  rw [hfill, recordOutcome_roster]
  exact giveWay_roster s

theorem Shots.RingOk.raise {r : Shots} (h : r.RingOk) {n : Shot} (hn : r.next ≤ n) : ({ r with next := n } : Shots).RingOk :=
  { h with
    below := fun p hp => by
      obtain hlt | hlast := h.below p hp
      · exact .inl (by rw [BitVec.lt_def] at hlt ⊢; rw [BitVec.le_def] at hn; exact hlt.trans_le hn)
      · refine .inr (BitVec.le_antisymm ?_ (hlast ▸ hn))
        rw [BitVec.le_def, lastShot]
        have := n.isLt
        simp only [BitVec.toNat_ofNat]
        omega }

theorem counted_shots (n : Shot) (s : State) : (s.counted n).shots = { s.shots with next := nextShot n } := by
  have hnext : (s.giveWay.onRing fun r => { r with next := nextShot n }).shots = { s.giveWay.shots with next := nextShot n } := rfl
  simp [counted, hnext]

theorem ringOk.counted (h : s.ringOk) (hn : s.ring.next ≤ n) : (s.counted n).ringOk := by
  have hle : s.ring.next ≤ nextShot n := BitVec.le_trans hn (le_nextShot n)
  rw [ringOk_iff, counted_shots]
  exact Shots.RingOk.raise ((ringOk_iff s).mp h) hle

theorem counted_edgeFor (n : Shot) (s : State) : (s.counted n).edgeFor s.capture.current = s.edgeAtTrigger := by
  have hexposure : (s.counted n).capture.exposure = s.giveWay.capture.exposure := rfl
  unfold edgeFor edgeAtTrigger
  rw [hexposure, (giveWay_current s).2]
  by_cases hd : s.inDark
  · rw [if_pos hd, if_pos hd]
  · rw [if_neg hd, if_neg hd]
    rfl

/-- A trigger records the outcome of the shot that was current (R58, R60, R104). -/
theorem ringOk.beginTrigger_records (h : s.ringOk) (hn : s.ring.next ≤ n) (hcur : s.capture.current ≠ n)
    (hx : s.slot? s.capture.current = some x) (ho : x.outcome = none)
    (ha : (s.entry? s.capture.current).bind (·.agreedOpen) = some a) :
    ∃ y, (s.beginTrigger n).slot? s.capture.current = some y ∧ s.recordedAtTrigger x y a := by
  obtain ⟨x', hx', hway⟩ := h.giveWay_slot hx
  have hx'' : (s.counted n).slot? s.capture.current = some x' := hx'
  have hout : x'.outcome = none := by rw [hway.same]; exact ho
  have hagreed : ((s.counted n).entry? s.capture.current).bind (·.agreedOpen) = some a := by
    rw [entry?_congr (t := s.counted n) (s := s) (giveWay_roster s), ha]
  have hover : (s.counted n).windowOver s.capture.current = true := Bool.or_eq_true_iff.mpr (.inl (bne_iff_ne.mpr hcur))
  obtain ⟨y, hy, hrec, hdark⟩ := (h.counted hn).recordOutcome_slot? hx'' hagreed hout hover
  rw [counted_edgeFor] at hrec
  have hmember : s.member = (s.counted n).member := by simp [State.counted]
  obtain ⟨hsame, hnotRaw, hraw, hrest⟩ := hrec.congr hmember
  have hslot : (s.beginTrigger n).slot? s.capture.current = some y := by
    rw [beginTrigger_counted, slot?_congr (s := (s.counted n).recordOutcome s.capture.current) (by simp), hy]
  refine ⟨y, hslot, ⟨?_, fun ht => ?_, fun ht => ?_, hrest⟩, ?_⟩
  · rw [hsame, hway.same]
  · have htag := hway.notRaw ht
    rw [hnotRaw (by rwa [htag]), htag]
  · obtain htag | htag := hway.raw ht
    · exact hraw htag
    · exact .inr (by rw [hnotRaw (by rw [htag]; decide), htag])
  · rw [hdark]
    exact hway.dark

/-! ## The decision of admission -/

theorem findSome?_set_none {α β : Type} {f : Option α → Option β} (hf : f none = none) {y : α} (hy : f (some y) = none) (l : List (Option α))
    (i : Nat) (hi : l.getD i none = none) : (l.set i (some y)).findSome? f = l.findSome? f := by
  induction l generalizing i with
  | nil => rfl
  | cons o os ih =>
    cases i with
    | zero =>
      have ho : o = none := hi
      rw [List.set_cons_zero, List.findSome?_cons, List.findSome?_cons, hy, ho, hf]
    | succ i => rw [List.set_cons_succ, List.findSome?_cons, List.findSome?_cons, ih i hi]

theorem refusal_none (h : s.admissionRefusal n = none) : n ≠ lastShot ∧ s.ring.slots.getD s.ring.after none = none := by
  unfold admissionRefusal at h
  split at h
  · cases h
  next hn =>
    refine ⟨hn, ?_⟩
    split at h
    case h_5 =>
      unfold Ring.refusal at h
      split at h
      next hfree => exact hfree
      next => split at h <;> cases h
    all_goals cases h

theorem admitTrigger_slots (n : Shot) (edge : Option Time) (start : Time) (s : State) :
    (s.admitTrigger n edge start).ring.slots = s.ring.slots.set s.ring.after (some (newSlot n start)) := by
  unfold admitTrigger
  cases edge <;> simp [admitShot, Ring.admitShot, onRing]

theorem admitTrigger_capture (n : Shot) (edge : Option Time) (start : Time) (s : State) : (s.admitTrigger n edge start).capture =
    { s.capture with state := .exposing, exposure := some (newExposure n edge start s.capture.shutter) } := by
  unfold admitTrigger
  cases edge <;> simp [admitShot, onCapture]

/-- A decision of admission leaves the slot records of other shots, and which shot is current. -/
theorem decideAdmission_slot? (hm : m ≠ n) (edge : Option Time) (start : Time) (s : State) :
    (s.decideAdmission n edge start).slot? m = s.slot? m := by
  unfold decideAdmission
  split
  · rfl
  next hnone =>
    have hnew : (some (newSlot n start)).filter (·.shot == m) = none := by
      have hnm : ¬n = m := fun h => hm h.symm
      simp [Option.filter, newSlot, hnm]
    rw [slot?, admitTrigger_slots]
    exact findSome?_set_none (f := fun o => o.filter (·.shot == m)) rfl hnew _ _ (refusal_none hnone).2

theorem decideAdmission_capture (n : Shot) (edge : Option Time) (start : Time) (s : State) :
    (s.decideAdmission n edge start).capture = { s.capture with
      state := (s.decideAdmission n edge start).capture.state, exposure := (s.decideAdmission n edge start).capture.exposure } := by
  unfold decideAdmission
  split
  · rfl
  · rw [admitTrigger_capture]

theorem trigger_slot? (hm : m ≠ n) (edge : Option Time) (start : Time) (s : State) :
    (s.trigger n edge start).slot? m = (s.beginTrigger n).slot? m := decideAdmission_slot? hm edge start _

theorem beginTrigger_capture (n : Shot) (s : State) :
    (s.beginTrigger n).capture.current = n ∧ (s.beginTrigger n).capture.windowEnded = false := by
  rw [beginTrigger_counted, fillQuiet_eq]
  simp [counted, onCapture, loadTimer, onTimer]

theorem trigger_capture (n : Shot) (edge : Option Time) (start : Time) (s : State) :
    (s.trigger n edge start).capture.current = n ∧ (s.trigger n edge start).capture.windowEnded = false := by
  rw [trigger, decideAdmission_capture]
  exact beginTrigger_capture n s

/-- In a ring that is in order no slot holds a shot that is still to be triggered. -/
theorem ringOk.not_in_slot (h : s.ringOk) (hn : s.ring.next ≤ n) : s.entry? n = none := by
  by_cases hl : n = lastShot
  · obtain ⟨-, -, -, -, -, -, hlast⟩ := h
    exact entry?_eq_none.mpr fun e he => hl ▸ hlast e he
  · exact entry?_eq_none.mpr (h.not_in_roster hn hl)

theorem ringOk.slot?_none (h : s.ringOk) (he : s.entry? n = none) : s.slot? n = none := by
  have hsome := h.slot?_isSome n
  rw [he] at hsome
  exact Option.isNone_iff_eq_none.mp (by simpa using hsome)

end State

end Sys2Proof.Machine
end

section
/-! PROOF. The one record of a shot's sync outcome (R58, R60, R104). -/

namespace Sys2Proof.Machine

namespace State

variable {s : State} {n m : Shot} {x y : Slot} {a t start : Time} {edge : Option Time} {source : Node} {reason : RefuseReason} {policy : Policy}

theorem ringOk.raiseNext (h : s.ringOk) (hn : s.ring.next ≤ n) : (s.raiseNext n).ringOk := by
  rw [raiseNext_eq hn]
  exact (ringOk_iff _).mpr (Shots.RingOk.raise ((ringOk_iff s).mp h) hn)

/-- What is recorded at a trigger does not look at next shot number or Sync Input. -/
theorem ringOk.raised_records (h : s.ringOk) (hn : s.ring.next ≤ n) (hcur : s.capture.current ≠ n)
    (hx : s.slot? s.capture.current = some x) (ho : x.outcome = none)
    (ha : (s.entry? s.capture.current).bind (·.agreedOpen) = some a) :
    ∃ y, ((s.raiseNext n).beginTrigger n).slot? s.capture.current = some y ∧ s.recordedAtTrigger x y a := by
  have hnext : (s.raiseNext n).ring.next ≤ n := by
    rw [raiseNext_eq hn]
    exact BitVec.le_refl _
  exact (h.raiseNext hn).beginTrigger_records hnext hcur hx ho ha

/-- A shot that holds a slot is not one that is still to be triggered. -/
theorem ringOk.current_ne (h : s.ringOk) (hn : s.ring.next ≤ n) (hx : s.slot? m = some x) : m ≠ n := by
  rintro rfl
  rw [h.slot?_none (h.not_in_slot hn)] at hx
  cases hx

/-! ## A dropped shot that has no slot -/

theorem freeUnread_absent (hx : s.slot? n = none) : s.freeUnread n = s := by
  unfold freeUnread
  rw [hx]
  rfl

/-- The drop of a shot without a slot leaves the ring. -/
theorem dropShot_ring (hx : s.slot? n = none) : (s.dropShot source n reason policy).ring = s.ring := by
  have hfree : (s.abandonShot n).freeUnread n = s.abandonShot n :=
    freeUnread_absent ((slot?_congr (by simp) n).trans hx)
  unfold dropShot
  rw [hfree]
  simp

theorem exec_refuseTaken (hf : s.inForce) (hcalm : s.calm) :
    exec (.refuseTaken source n reason policy) s = .next (s.captureRefuse source n reason policy) :=
  (event_of_calm _ s hcalm).trans (congrArg _ (take_inForce _ _ hf))

/-- A Refuse of a shot that is still to be triggered. -/
theorem captureRefuse_triggers (h : s.Names n) : s.captureRefuse source n reason policy =
    (((s.raiseNext n).beginTrigger n).dropShot source n reason policy).sleepTest := by
  rw [captureRefuse, h.triggers]
  rfl

/-- The first steps of a trigger give its shot no slot. -/
theorem ringOk.beginTrigger_unslotted (h : s.ringOk) (hn : s.ring.next ≤ n) : ((s.raiseNext n).beginTrigger n).slot? n = none := by
  have hentry : ((s.raiseNext n).beginTrigger n).entry? n = none :=
    (entry?_congr (beginTrigger_roster n (s.raiseNext n)) n).trans (h.not_in_slot hn)
  have hok : ((s.raiseNext n).beginTrigger n).ringOk := by
    have hnext : (s.raiseNext n).ring.next ≤ nextShot n := by
      rw [raiseNext_eq hn]
      exact le_nextShot n
    rw [ringOk_iff, beginTrigger_shots]
    exact Shots.RingOk.raise ((ringOk_iff _).mp (h.raiseNext hn)) hnext
  exact hok.slot?_none hentry

end State

open State in
/-- Settles O30: the record at a trigger, at the first Open, and at the end of the window. -/
theorem syncOutcomeIsRecordedOnce : Obligations.SyncOutcomeIsRecordedOnce := by
  refine ⟨fun x a s hcalm hok hx ho ha => ⟨fun source n time hf hn hlast => ?_, fun source n reason policy hf hn hlast => ?_,
    fun c hm hr hst => ?_⟩, fun source n time x e s hf hcalm hok hn hx he => ?_, fun s hexp => ?_⟩
  · obtain ⟨y, hy, hrec⟩ := hok.raised_records hn (hok.current_ne hn hx) hx ho ha
    refine ⟨_, y, exec_openTaken_triggers hf hcalm ⟨hn, hlast⟩, ?_, hrec⟩
    obtain ⟨hcurrent, hwindow⟩ := trigger_capture n none s.clock.linkTime (s.raiseNext n)
    rw [(takeAgreedOpen_silent (.inr ⟨hcurrent.symm, hwindow⟩) _).1, trigger_slot? (hok.current_ne hn hx), hy]
  · obtain ⟨y, hy, hrec⟩ := hok.raised_records hn (hok.current_ne hn hx) hx ho ha
    refine ⟨_, y, (exec_refuseTaken hf hcalm).trans (congrArg _ (captureRefuse_triggers ⟨hn, hlast⟩)), ?_, hrec⟩
    exact (slot?_congr (congrArg Ring.slots (dropShot_ring (hok.beginTrigger_unslotted hn))) _).trans hy
  · have hstate : s.capture.state ≠ .exposing ∧ s.capture.state ≠ .disarmed ∧ s.capture.state ≠ .halted := by
      obtain h | h | h | h := hst <;> simp [h]
    obtain ⟨he, hd, hh⟩ := hstate
    have hcur := hok.current_ne (BitVec.le_refl _) hx
    obtain ⟨y, hy, hrec⟩ := ringOk.beginTrigger_records
      (s := { s with sync := s.sync.accept s.settings.syncPolarity.closedLevel }) hok (BitVec.le_refl _) hcur hx ho ha
    exact ⟨_, y, exec_syncClosingEdge_triggers hm hcalm hr he hd hh, (trigger_slot? hcur _ _ _).trans hy, hrec⟩
  · refine ⟨fun hopen ho hw => ?_, fun hopen ho hcur hw => ?_, fun hopen => ?_⟩
    · have hover : s.windowOver n = true := by simpa [windowOver] using hw
      obtain ⟨y, hy, hrec, hdark⟩ := hok.takeAgreedOpen_records (source := source) (t := time) hx he hopen ho hover
      exact ⟨_, y, exec_openTaken_observes hf hcalm hn, hy, hrec, hdark, takeAgreedOpen_entry? he⟩
    · exact ⟨_, exec_openTaken_observes hf hcalm hn, (takeAgreedOpen_silent (.inr ⟨hcur, hw⟩) n).1.trans hx, takeAgreedOpen_entry? he⟩
    · have hknown : ∀ f, s.entry? n = some f → f.agreedOpen ≠ none := fun f hf' => by rwa [Option.some.inj (hf'.symm.trans he)]
      obtain ⟨hslot, hdevelop⟩ := takeAgreedOpen_silent (source := source) (t := time) (.inl hknown) n
      refine ⟨_, exec_openTaken_observes hf hcalm hn, hslot.trans hx, hdevelop, takeAgreedOpen_entry? he, fun ht => ?_⟩
      rw [takeAgreedOpen, agreeOpen_known hknown, settleOpener_settled he ht]
  · rw [exec_attributionExpiry hexp]
    refine ⟨fun hno => ?_, fun x e a hx he ha => ⟨fun ho => ?_, fun ho hok => ?_⟩⟩
    · refine congrArg _ (recordOutcome_none (s := s.windowClosed) fun x hx => ?_)
      obtain hno | hno := hno
      · exact absurd (hx.symm.trans hno) (by simp)
      · exact .inr hno
    · refine congrArg _ (recordOutcome_none (s := s.windowClosed) fun x' hx' => .inl ?_)
      rwa [Option.some.inj (hx'.symm.trans hx)]
    · have hagreed : (s.windowClosed.entry? s.capture.current).bind (·.agreedOpen) = some a := by
        refine (congrArg (fun o => Option.bind o _) he).trans ha
      obtain ⟨y, hy, hrec, hdark⟩ := ringOk.recordOutcome_slot? (s := s.windowClosed) hok hx hagreed ho (windowClosed_over _ s)
      refine ⟨_, y, rfl, hy, hrec, hdark, recordOutcome_same _ s.windowClosed, ?_, ?_, ?_⟩
      · rw [recordOutcome_roster]
        rfl
      · rw [recordOutcome_eq]
        rfl
      · rw [recordOutcome_eq]
        rfl

end Sys2Proof.Machine
end

section
/-! PROOF. A trigger that abandons a dark capture (R58, R59, R104). -/

namespace Sys2Proof.Machine

namespace State

variable {s u : State} {n m : Shot} {x y : Slot} {a t start : Time} {edge : Option Time} {e : Entry} {k : DarkCapture} {source : Node}
  {reason : RefuseReason} {policy : Policy}

/-! ## The first steps -/

theorem nextShot_eq (n : Shot) : nextShot n = if n = lastShot then lastShot else n + 1#32 := by
  unfold nextShot
  split
  next h => exact h
  next => rfl

theorem timersLeft_atTrigger (k : DarkCapture) (s : State) :
    { s.timersLeft k with
      attribution := { s.clock.timers.attribution with request := .load 200 }
      quiet := { s.clock.timers.quiet with request := .load ((2 * s.settings.exposureLimit + 4) * 10) } } =
      k.timersAbandoning s.timersAtTrigger := by
  unfold timersLeft DarkCapture.timersAbandoning timersAtTrigger
  by_cases hp : k.phase = .exposing
  · rw [if_pos hp, if_pos hp]
    rfl
  · rw [if_neg hp, if_neg hp]

theorem counted_dark (h : s.inDark) (hk : s.dark.capture = some k) (n : Shot) : s.counted n = { s with
    link := s.linkAfter 15#4 (.readDone k.shot .dark false)
    clock := { s.clock with timers := { s.timersLeft k with
      attribution := { s.clock.timers.attribution with request := .load 200 } } }
    dark := { s.dark with capture := none }
    capture := { s.capture with
      current := n, windowEnded := false, state := s.capture.settledState, haltPending := false, disarmPending := false, exposure := none }
    ring := { s.ring with next := if n = lastShot then lastShot else n + 1#32, slots := s.giveWay.ring.slots }
    develop := s.giveWay.develop } := by
  have hattribution : (s.timersLeft k).attribution = s.clock.timers.attribution := by
    unfold timersLeft
    split <;> rfl
  unfold counted
  rw [giveWay_dark h hk, nextShot_eq]
  simp [onRing, onCapture, loadTimer, onTimer, onClock, Timers.upd, Timer.load, Config.attributionWindow, hattribution]

/-- The first steps of a trigger that abandons a dark capture. -/
theorem beginTrigger_dark (h : s.inDark) (hk : s.dark.capture = some k) (n : Shot) : s.beginTrigger n = { s with
    link := s.linkAbandoning k.shot
    clock := { s.clock with timers := k.timersAbandoning s.timersAtTrigger }
    dark := { s.dark with capture := none }
    capture := { s.capture with
      current := n, quiet := s.memberNumbers, windowEnded := false, state := s.capture.settledState
      haltPending := false, disarmPending := false, exposure := none }
    ring := { s.ring with next := if n = lastShot then lastShot else n + 1#32, slots := (s.beginTrigger n).ring.slots }
    develop := (s.beginTrigger n).develop } := by
  have hquiet : (s.timersLeft k).quiet = s.clock.timers.quiet := by
    unfold timersLeft
    split <;> rfl
  rw [beginTrigger_counted, recordOutcome_eq, counted_dark h hk, fillQuiet_eq, ← timersLeft_atTrigger, ← hquiet]
  rfl

/-! ## Slots by their shots -/

theorem shots_getD (i : Nat) (s : State) : s.shots.slots.getD i none = (s.ring.slots.getD i none).map (·.shot) := by
  simp only [State.shots, List.getD_eq_getElem?_getD, List.getElem?_map]
  cases s.ring.slots[i]? <;> rfl

theorem mem_shots_none (s : State) : none ∈ s.shots.slots ↔ ∃ o ∈ s.ring.slots, o = none := by
  simp [State.shots]

theorem free_congr (h : u.shots.slots = s.shots.slots) {i : Nat} (hi : s.ring.slots.getD i none = none) : u.ring.slots.getD i none = none := by
  have hmap := shots_getD i u
  rw [h, shots_getD, hi] at hmap
  exact Option.map_eq_none_iff.mp hmap.symm

/-- The table of R59 looks at which slots are free, at TOP and at the policies. -/
theorem refuses_congr {st : CaptureState} (hm : u.member = s.member) (hs : u.shots.slots = s.shots.slots) (ht : u.ring.top = s.ring.top)
    (h : s.refuses st n reason policy) : u.refuses st n reason policy := by
  have hsome : (u.ring.slots.getD ((u.ring.top + 1) % 8) none).isSome = (s.ring.slots.getD ((s.ring.top + 1) % 8) none).isSome := by
    have hmap := congrArg (fun l => (l.getD ((s.ring.top + 1) % 8) none).isSome) hs
    rw [shots_getD, shots_getD, Option.isSome_map, Option.isSome_map] at hmap
    rw [ht, hmap]
  have hfree : (∃ o ∈ u.ring.slots, o = none) ↔ ∃ o ∈ s.ring.slots, o = none := by
    rw [← mem_shots_none, ← mem_shots_none, hs]
  have hfull : (∀ o ∈ u.ring.slots, o ≠ none) ↔ ∀ o ∈ s.ring.slots, o ≠ none := by
    have hnot := not_congr hfree
    push Not at hnot
    exact hnot
  unfold refuses settings at h ⊢
  rwa [hsome, hfree, hfull, hm]

theorem beginTrigger_slots (n : Shot) (s : State) : (s.beginTrigger n).shots.slots = s.shots.slots := by rw [beginTrigger_shots]

theorem beginTrigger_top (n : Shot) (s : State) : (s.beginTrigger n).ring.top = s.ring.top :=
  congrArg Shots.top (beginTrigger_shots n s)

/-- A trigger that the table turns away after it has abandoned a dark capture. -/
theorem trigger_dark_refused (h : s.inDark) (hk : s.dark.capture = some k) (edge : Option Time) (start : Time)
    (href : s.refuses s.capture.settledState n reason policy) :
    s.trigger n edge start = (s.beginTrigger n).broadcast (.refuse n reason policy) := by
  have hstate : (s.beginTrigger n).capture.state = s.capture.settledState := by rw [beginTrigger_dark h hk]
  refine decideAdmission_refuses edge start ?_
  rw [hstate]
  exact refuses_congr (by simp) (beginTrigger_slots n s) (beginTrigger_top n s) href

/-! ## What is left of the dark capture -/

theorem beginTrigger_awaiting (h : s.inDark) (hk : s.dark.capture = some k) (hok : s.ringOk) (hn : s.ring.next ≤ n)
    (hz : k.shot ≠ 0#32) (hx : s.slot? k.shot = some x) (ha : x.dark = some .awaiting) :
    ∃ y, (s.beginTrigger n).slot? k.shot = some y ∧ y.dark = some .none := by
  obtain ⟨y, hy, -, hdark⟩ := hok.darkLeft_slot k hx
  have hway : (s.counted n).slot? k.shot = some y := by
    have hgave : s.giveWay.slot? k.shot = some y := by
      rw [giveWay_abandons h hk]
      exact hy
    exact hgave
  obtain ⟨z, hz', hout⟩ := (hok.counted hn).recordOutcome_outcome s.capture.current hway
  refine ⟨z, ?_, ?_⟩
  · rw [beginTrigger_counted, slot?_congr (s := (s.counted n).recordOutcome s.capture.current) (by simp), hz']
  · rw [hout.same]
    exact hdark rfl hz ha

theorem decideAdmission_darkTimer (n : Shot) (edge : Option Time) (start : Time) (s : State) :
    (s.decideAdmission n edge start).timer .dark = s.timer .dark := by
  have hclock : ∀ e : Entry, ((s.onRing (Ring.admitShot n start e)).placeAtAdmission e).clock = s.clock := fun e => by simp
  unfold decideAdmission
  split
  · rfl
  · unfold admitTrigger admitShot doIf timer
    cases edge <;> dsimp only <;> split <;> simp [loadTimer, onTimer, onCapture, onClock, Timers.upd, Timers.get, broadcast, queue, onLink, hclock]

/-- A trigger during a dark capture abandons it. -/
theorem trigger_abandonedAt (h : s.inDark) (hk : s.dark.capture = some k) (hn : s.ring.next ≤ n) (edge : Option Time) (start : Time) :
    s.abandonedAt n k (s.trigger n edge start) := by
  have hbegun := beginTrigger_dark h hk n
  have hcapture := decideAdmission_capture n edge start (s.beginTrigger n)
  have hdecided : ((s.beginTrigger n).decideAdmission n edge start).dark = (s.beginTrigger n).dark := by simp
  refine ⟨?_, (trigger_capture n edge start s).1, ?_, ?_, fun hp => ?_, by simp, by simp, fun x hok hz hx ha => ?_, fun reason policy href => ?_⟩
  · rw [trigger, hdecided, hbegun]
  · rw [trigger, hcapture, hbegun]
  · rw [trigger, hcapture, hbegun]
  · rw [trigger, decideAdmission_darkTimer, hbegun]
    change (if k.phase = .exposing then _ else _ : Timer).request = _
    rw [if_pos hp]
  · have hne : k.shot ≠ n := hok.current_ne hn hx
    rw [trigger_slot? hne]
    exact beginTrigger_awaiting h hk hok hn hz hx ha
  · rw [trigger_dark_refused h hk edge start href]
    refine ⟨?_, ?_, ?_, fun _ => ?_⟩
    · exact congrArg (fun v : State => v.capture.state) hbegun
    · exact congrArg (fun v : State => v.capture.exposure) hbegun
    · exact congrArg (fun v : State => (v.broadcast (.refuse n reason policy)).link) hbegun
    · rw [hbegun]
      rfl

/-- The Open that has abandoned a dark capture leaves no more of it. -/
theorem abandonedAt.takeAgreedOpen (h : s.abandonedAt n k u) (hw : u.capture.windowEnded = false) (hok : s.ringOk → s.entry? n = none)
    (source : Node) (t : Time) : s.abandonedAt n k (u.takeAgreedOpen source n t) := by
  obtain ⟨hdark, hcur, hhalt, hdisarm, htimer, hpower, hmember, hslot, href⟩ := h
  have hframe := takeAgreedOpen_eq source n t u
  refine ⟨by simpa using hdark, by simpa using hcur, by simpa using hhalt, by simpa using hdisarm, fun hp => ?_, by simpa using hpower,
    by simpa using hmember, fun x hr hz hx ha => ?_, fun reason policy hr => ?_⟩
  · rw [hframe]
    exact htimer hp
  · rw [(takeAgreedOpen_silent (.inr ⟨hcur.symm, hw⟩) k.shot).1]
    exact hslot x hr hz hx ha
  · obtain ⟨hstate, hexposure, hlink, hsame⟩ := href reason policy hr
    refine ⟨by simpa using hstate, by simpa using hexposure, by simpa using hlink, fun hring => ?_⟩
    have hroster : u.ring.roster = s.ring.roster := by rw [hsame hring]
    rw [takeAgreedOpen_absent ((entry?_congr hroster n).trans (hok hring))]
    exact hsame hring

end State

end Sys2Proof.Machine
end

section
/-! PROOF. The admission after a dark capture has been abandoned (R58, R59, R104). -/

namespace Sys2Proof.Machine

namespace State

variable {s u : State} {n m : Shot} {x y : Slot} {a t start : Time} {edge : Option Time} {e : Entry} {k : DarkCapture} {source : Node}

theorem findSome?_set_new {α β : Type} {f : Option α → Option β} {y : α} {z : β} (hy : f (some y) = some z) (l : List (Option α))
    (hl : ∀ o ∈ l, f o = none) (i : Nat) (hi : i < l.length) : (l.set i (some y)).findSome? f = some z := by
  induction l generalizing i with
  | nil => exact absurd hi (Nat.not_lt_zero i)
  | cons o os ih =>
    cases i with
    | zero => rw [List.set_cons_zero, List.findSome?_cons, hy]
    | succ i =>
      rw [List.set_cons_succ, List.findSome?_cons, hl o List.mem_cons_self]
      exact ih (fun p hp => hl p (List.mem_cons_of_mem o hp)) i (Nat.lt_of_succ_lt_succ hi)

/-- A shot put into a slot of a ring that did not hold it. -/
theorem slot?_put {i : Nat} (hu : u.ring.slots = s.ring.slots.set i (some x)) (hi : i < s.ring.slots.length) (hs : s.slot? n = none)
    (hx : x.shot = n) : u.slot? n = some x := by
  rw [slot?, hu]
  refine findSome?_set_new (by simp [hx]) _ (fun o ho => ?_) i hi
  cases o with
  | none => rfl
  | some y =>
    have hne := slot?_eq_none.mp hs y ho
    simp [hne]

theorem entry?_append_other (hu : u.ring.roster = s.ring.roster ++ [e]) (hm : m ≠ e.shot) : u.entry? m = s.entry? m := by
  have hne : (e.shot == m) = false := beq_eq_false_iff_ne.mpr fun h => hm h.symm
  rw [entry?, entry?, hu, List.find?_append, List.find?_cons, hne, List.find?_nil, Option.or_none]

/-- What admits a shot once the dark capture has been abandoned. -/
structure AdmitsAfter (n : Shot) (s : State) : Prop where
  notLast : n ≠ lastShot
  settled : s.capture.settledState = .armed
  free : s.ring.slots.getD ((s.ring.top + 1) % 8) none = none
  ring : s.ringOk
  limit : 0 < s.settings.exposureLimit
  shutter : 0 < s.capture.shutter

theorem AdmitsAfter.admits (h : s.AdmitsAfter n) (hd : s.inDark) (hk : s.dark.capture = some k) : (s.beginTrigger n).Admits n := by
  have hbegun := beginTrigger_dark hd hk n
  refine ⟨?_, h.notLast, ?_, ?_, ?_⟩
  · rw [hbegun]
    exact h.settled
  · rw [beginTrigger_top]
    exact free_congr (beginTrigger_slots n s) h.free
  · simpa [settings] using h.limit
  · rw [hbegun]
    exact h.shutter

theorem trigger_dark_admits (h : s.AdmitsAfter n) (hd : s.inDark) (hk : s.dark.capture = some k) (edge : Option Time) (start : Time) :
    s.trigger n edge start = admitted n edge start (s.beginTrigger n) := (h.admits hd hk).decideAdmission edge start

/-- The roster once a trigger has admitted its shot after a dark capture. -/
theorem admitted_dark_roster (h : s.AdmitsAfter n) (hd : s.inDark) (hk : s.dark.capture = some k) (edge : Option Time) (start : Time) :
    (s.trigger n edge start).ring.roster = s.ring.roster ++ [s.entryAdmitted n] := by
  have hentry : (s.beginTrigger n).entryAdmitted n = s.entryAdmitted n := by rw [beginTrigger_dark hd hk]; rfl
  rw [trigger_dark_admits h hd hk]
  exact congrArg₂ (fun r f => r ++ [f]) (beginTrigger_roster n s) hentry

theorem admitted_dark_slot (h : s.AdmitsAfter n) (hd : s.inDark) (hk : s.dark.capture = some k) (hn : s.ring.next ≤ n)
    (edge : Option Time) (start : Time) : (s.trigger n edge start).slot? n = some (slotAdmitted n start) := by
  have hle : s.ring.next ≤ nextShot n := BitVec.le_trans hn (le_nextShot n)
  have hok : (s.beginTrigger n).ringOk := by
    rw [ringOk_iff, beginTrigger_shots]
    exact Shots.RingOk.raise ((ringOk_iff s).mp h.ring) hle
  have hnone : (s.beginTrigger n).slot? n = none :=
    hok.slot?_none ((entry?_congr (beginTrigger_roster n s) n).trans (h.ring.not_in_slot hn))
  rw [trigger_dark_admits h hd hk]
  exact slot?_put (s := s.beginTrigger n) rfl (by rw [hok.1]; exact Nat.mod_lt _ (by decide)) hnone rfl

/-- A station as it was before the next shot number was raised, or an edge accepted. -/
def countedFrom (next : Shot) (y : SyncInput) (s : State) : State := { s with ring := { s.ring with next := next }, sync := y }

variable {next : Shot} {sync : SyncInput}

/-- A trigger that abandons a dark capture admits its shot. -/
theorem trigger_admittedAfter (h : (s.countedFrom next sync).AdmitsAfter n) (hd : s.inDark) (hk : s.dark.capture = some k) (hn : next ≤ n)
    (edge : Option Time) (start : Time) :
    s.admittedAfter n k edge start (s.entryAdmitted n) ((s.countedFrom next sync).trigger n edge start) := by
  have hbegun := beginTrigger_dark (s := s.countedFrom next sync) hd hk n
  have hroster := admitted_dark_roster (s := s.countedFrom next sync) h hd hk edge start
  have hnew := entry?_eq_none.mp (h.ring.not_in_slot hn)
  have hreserve := reservedFor_agree (s := (s.countedFrom next sync).beginTrigger n) (u := { s with link := s.linkAbandoning k.shot }) n
    (by rw [hbegun]; rfl) (by rw [hbegun]; rfl) (by rw [hbegun]; rfl) (by rw [hbegun]; rfl) (beginTrigger_top n _)
  refine ⟨{ s with link := s.linkAbandoning k.shot }, reservedFor n { s with link := s.linkAbandoning k.shot }, rfl, rfl, ?_,
    admitted_dark_slot h hd hk hn edge start, entry?_last hroster rfl hnew,
    fun m hm => entry?_append_other (s := s.countedFrom next sync) hroster hm⟩
  have hadmit := trigger_dark_admits (s := s.countedFrom next sync) h hd hk edge start
  rw [hadmit]
  unfold admitted
  rw [hreserve, hbegun, if_neg h.notLast]
  rfl

/-- The Open that has triggered its shot gives it the agreed open and its opener. -/
theorem takeAgreedOpen_after (h : s.AdmitsAfter n) (hd : s.inDark) (hk : s.dark.capture = some k) (hn : s.ring.next ≤ n)
    (source : Node) (t : Time) (edge : Option Time) (start : Time) : (s.trigger n edge start).takeAgreedOpen source n t =
      { s.trigger n edge start with ring := { (s.trigger n edge start).ring with roster := s.ring.roster ++
        [{ s.entryAdmitted n with agreedOpen := some t, openTaken := true, opener := source == s.self }] } } := by
  have hnew := entry?_eq_none.mp (h.ring.not_in_slot hn)
  have hself : (s.trigger n edge start).self = s.self := by simp [State.self]
  obtain ⟨hcur, hwindow⟩ := trigger_capture n edge start s
  have hslot := admitted_dark_slot h hd hk hn edge start
  have htaken := takeAgreedOpen_admitted (n := n) (source := source) (time := t) (admitted_dark_roster h hd hk edge start) rfl hnew rfl rfl rfl
    hcur.symm hwindow fun x hx => by rw [← Option.some.inj (hslot.symm.trans hx)]; rfl
  rw [htaken, hself]

theorem trigger_opened_admittedAfter (h : (s.countedFrom next sync).AdmitsAfter n) (hd : s.inDark) (hk : s.dark.capture = some k)
    (hn : next ≤ n) (source : Node) (t : Time) (start : Time) : s.admittedAfter n k none start
      { s.entryAdmitted n with agreedOpen := some t, openTaken := true, opener := source == s.self }
      (((s.countedFrom next sync).trigger n none start).takeAgreedOpen source n t) := by
  have hnew := entry?_eq_none.mp (h.ring.not_in_slot hn)
  obtain ⟨u, v, hu, hv, hsame, hslot, -, -⟩ := trigger_admittedAfter h hd hk hn none start
  rw [takeAgreedOpen_after (s := s.countedFrom next sync) h hd hk hn]
  refine ⟨u, v, hu, hv, ?_, hslot, entry?_last rfl rfl hnew, fun m hm => entry?_append_other (s := s.countedFrom next sync) rfl hm⟩
  rw [hsame]

theorem abandonedAt.from (h : (s.countedFrom next sync).abandonedAt n k u) (hok : s.ringOk → (s.countedFrom next sync).ringOk) :
    s.abandonedAt n k u := by
  obtain ⟨hdark, hcur, hhalt, hdisarm, htimer, hpower, hmember, hslot, href⟩ := h
  refine ⟨hdark, hcur, hhalt, hdisarm, htimer, hpower, hmember, fun x hr => hslot x (hok hr), fun reason policy hr => ?_⟩
  obtain ⟨hstate, hexposure, hlink, hsame⟩ := href reason policy hr
  exact ⟨hstate, hexposure, hlink, fun hring => hsame (hok hring)⟩

end State

open State in
/-- Settles O25: what is left of the dark capture, and the admission or refusal after it. -/
theorem triggerAbandonsADarkCapture : Obligations.TriggerAbandonsADarkCapture := by
  refine ⟨fun source n time k s hf hcalm hn hlast hd hk => ?_, fun c k s hm hcalm hr hd hk => ?_⟩
  · have hraised : s.raiseNext n = s.countedFrom n s.sync := raiseNext_eq hn
    have hexec := exec_openTaken_triggers (source := source) (time := time) hf hcalm ⟨hn, hlast⟩
    rw [hraised] at hexec
    have hok : s.ringOk → (s.countedFrom n s.sync).ringOk := fun hok => hraised ▸ hok.raiseNext hn
    have hbegun := trigger_abandonedAt (s := s.countedFrom n s.sync) hd hk (BitVec.le_refl _) none s.clock.linkTime
    have hwindow := (trigger_capture n none s.clock.linkTime (s.countedFrom n s.sync)).2
    have hopened := hbegun.takeAgreedOpen hwindow (fun h => h.not_in_slot (BitVec.le_refl _)) source time
    refine ⟨_, hexec, hopened.from hok, by simp [countedFrom], fun hnl hset hfree hring hlim hshut => ?_⟩
    exact trigger_opened_admittedAfter (next := n) (sync := s.sync) ⟨hnl, hset, hfree, hok hring, hlim, hshut⟩ hd hk (BitVec.le_refl _) source time _
  · have hstate : s.capture.state ≠ .exposing ∧ s.capture.state ≠ .disarmed ∧ s.capture.state ≠ .halted := by
      obtain h | h := hd <;> simp [h]
    obtain ⟨he, hdis, hhalt⟩ := hstate
    have hexec := exec_syncClosingEdge_triggers hm hcalm hr he hdis hhalt
    have hbegun := trigger_abandonedAt (s := s.countedFrom s.ring.next (s.sync.accept s.settings.syncPolarity.closedLevel)) hd hk
      (BitVec.le_refl _) (some c.since) c.since
    refine ⟨_, hexec, hbegun.from id, by simp, fun hnl hset hfree hring hlim hshut => ?_⟩
    exact trigger_admittedAfter (sync := s.sync.accept s.settings.syncPolarity.closedLevel) (next := s.ring.next)
      ⟨hnl, hset, hfree, hring, hlim, hshut⟩ hd hk (BitVec.le_refl _) (some c.since) c.since

end Sys2Proof.Machine
end

section
/-! PROOF. A refused shot dropped (R58, R66, R67, R92, R105, R183). -/

namespace Sys2Proof.Machine

/-- What a Halt makes of the Capture Controller (R67). -/
def Capture.haltedBy (c : Capture) : Capture := { c with
  pendingRelease := none
  state := if c.state = .armed ∨ c.state = .disarmed then .halted else c.state
  disarmPending := if c.state = .armed ∨ c.state = .disarmed then false else c.disarmPending
  haltPending := if c.state.working then true else c.haltPending }

theorem Capture.settle_eq (c : Capture) : c.settle = { c with state := c.settledState, haltPending := false, disarmPending := false } := rfl

/-- A settled station is Armed, Disarmed or Halted, and a Halt leaves it Halted. -/
theorem Capture.haltedBy_settled (c : Capture) (h : c.state = .armed ∨ c.state = .disarmed ∨ c.state = .halted) (hd : c.disarmPending = false) :
    c.haltedBy = { c with pendingRelease := none, state := .halted } := by
  unfold Capture.haltedBy
  obtain h | h | h := h <;> simp [h, hd, CaptureState.working]

theorem Capture.settledState_cases (c : Capture) : c.settledState = .armed ∨ c.settledState = .disarmed ∨ c.settledState = .halted := by
  unfold Capture.settledState
  cases c.haltPending
  · cases c.disarmPending
    · exact .inl rfl
    · exact .inr (.inl rfl)
  · exact .inr (.inr rfl)

namespace State

variable {s u : State} {n m : Shot} {x y : Slot} {k : DarkCapture} {source : Node} {reason : RefuseReason} {policy : Policy} {e : Entry}

/-! ## The steps of a drop -/

theorem halt_eq (source : Node) (n : Shot) (reason : RefuseReason) (s : State) : s.halt source n reason = { s with
    capture := s.capture.haltedBy, clock := { s.clock with alarm := none }
    notices := if source = s.self then s.notices.raise (.halted n reason) else s.notices } := by
  have hself : (s.cancelRelease).self = s.self := rfl
  unfold halt Capture.haltedBy
  by_cases hs : source = s.self
  · rw [if_pos hs, beq_iff_eq.mpr hs]
    cases hc : s.capture.state <;> simp [cancelRelease, onCapture, onClock, hc, CaptureState.working, raise, onNotices]
  · rw [if_neg hs, beq_eq_false_iff_ne.mpr hs]
    cases hc : s.capture.state <;> simp [cancelRelease, onCapture, onClock, hc, CaptureState.working]

/-- The station once the drop of a shot has been told: the quiet set of the current shot is empty, and the refusing station has raised
ShotDropped (R66). -/
def dropTold (source : Node) (n : Shot) (reason : RefuseReason) (policy : Policy) (s : State) : State := { s with
  capture := { s.capture with quiet := if n = s.capture.current then [] else s.capture.quiet }
  clock := if n = s.capture.current then { s.clock with timers := { s.clock.timers with
    quiet := { s.clock.timers.quiet with request := .stop } } } else s.clock
  notices := if source = s.self then s.notices.raise (.shotDropped n reason policy) else s.notices }

theorem dropTold_eq (source : Node) (n : Shot) (reason : RefuseReason) (policy : Policy) (s : State) :
    (s.doIf (n == s.capture.current) clearQuiet).doIf (source == s.self) (raise (.shotDropped n reason policy)) =
      s.dropTold source n reason policy := by
  unfold dropTold
  by_cases hn : n = s.capture.current
  · rw [if_pos hn, if_pos hn, beq_iff_eq.mpr hn]
    by_cases hs : source = s.self
    · rw [if_pos hs, beq_iff_eq.mpr hs]
      rfl
    · rw [if_neg hs, beq_eq_false_iff_ne.mpr hs]
      rfl
  · rw [if_neg hn, if_neg hn, beq_eq_false_iff_ne.mpr hn]
    by_cases hs : source = s.self
    · rw [if_pos hs, beq_iff_eq.mpr hs]
      rfl
    · rw [if_neg hs, beq_eq_false_iff_ne.mpr hs]
      rfl

/-- Step by step: the shot's slot goes, the drop is told, and with policy Halt the station halts (R66, R67). -/
theorem dropShot_eq (hu : (s.abandonShot n).freeUnread n = u) (hcur : u.capture.current = s.capture.current) (hself : u.self = s.self) :
    s.dropShot source n reason policy =
      (u.dropTold source n reason policy).doIf (policy == .halt) (halt source n reason) := by
  have htold := dropTold_eq source n reason policy u
  rw [hcur, hself] at htold
  unfold dropShot
  rw [hu]
  exact congrArg (fun v : State => v.doIf (policy == .halt) (halt source n reason)) htold

/-- A shot neither exposed nor read, and with no unread slot, leaves the ring and the sensor tile as they are. -/
theorem abandonShot_still (h : ∀ x, s.capture.exposure = some x → x.shot = n → s.capture.state ≠ .exposing ∧ s.capture.state ≠ .reading) :
    s.abandonShot n = s := by
  refine if_neg ?_
  rw [exposesOrReads, Bool.and_eq_true, Option.any_eq_true]
  rintro ⟨hst, x, hx, hn⟩
  obtain ⟨he, hr⟩ := h x hx (eq_of_beq hn)
  obtain hst | hst := Bool.or_eq_true_iff.mp hst
  · exact he (eq_of_beq hst)
  · exact hr (eq_of_beq hst)

theorem freeUnread_still (h : ∀ y, s.slot? n = some y → y.tag ≠ .exposing ∧ y.tag ≠ .reading) : s.freeUnread n = s := by
  have hno : ((s.slot? n).any fun x => x.tag == .exposing || x.tag == .reading) = false := by
    cases hy : s.slot? n with
    | none => rfl
    | some y =>
      obtain ⟨he, hr⟩ := h y hy
      simp [he, hr]
  unfold freeUnread
  rw [hno]
  rfl

theorem freeUnread_frees (hy : s.slot? n = some y) (ht : y.tag = .exposing ∨ y.tag = .reading) : s.freeUnread n = s.freeSlot n := by
  have hyes : ((s.slot? n).any fun x => x.tag == .exposing || x.tag == .reading) = true := by
    rw [hy, Option.any_some]
    obtain ht | ht := ht <;> simp [ht]
  unfold freeUnread
  rw [hyes]
  rfl

/-- The drop of a shot that holds neither the sensor tile nor an unread slot. -/
theorem dropShot_still (h : ∀ x, s.capture.exposure = some x → x.shot = n → s.capture.state ≠ .exposing ∧ s.capture.state ≠ .reading)
    (hs : ∀ y, s.slot? n = some y → y.tag ≠ .exposing ∧ y.tag ≠ .reading) : s.dropShot source n reason policy =
      (s.dropTold source n reason policy).doIf (policy == .halt) (halt source n reason) :=
  dropShot_eq (u := s) (by rw [abandonShot_still h, freeUnread_still hs]) rfl rfl

theorem stopRunning_eq (id : TimerId) (s : State) : s.stopRunning id = { s with clock := (s.stopRunning id).clock } := by
  unfold stopRunning
  cases (s.timer id).running <;> rfl

theorem abandonShot_abandons {k : Exposure} (hk : s.capture.exposure = some k) (hn : k.shot = n)
    (hst : s.capture.state = .exposing ∨ s.capture.state = .reading) : s.abandonShot n = { s with
      clock := (s.abandonShot n).clock
      capture := { s.capture with
        state := s.capture.settledState, haltPending := false, disarmPending := false, exposure := none } } := by
  have hyes : s.exposesOrReads n = true := by
    rw [exposesOrReads, hk, Option.any_some, hn]
    obtain hst | hst := hst <;> simp [hst]
  unfold abandonShot
  rw [hyes, if_pos rfl, stopRunning_eq, stopRunning_eq .exposureLimit]
  rfl

/-- A shot that is exposed or read loses the sensor tile, its slot and its entry (R66). -/
theorem ringOk.freeUnread_abandoned (h : s.ringOk) {k : Exposure} (hk : s.capture.exposure = some k) (hn : k.shot = n)
    (hst : s.capture.state = .exposing ∨ s.capture.state = .reading) (hy : s.slot? n = some y) (ht : y.tag = .exposing ∨ y.tag = .reading)
    (hu : (s.abandonShot n).freeUnread n = u) : u.entry? n = none ∧ u.slot? n = none ∧ u.ring.top = s.ring.top ∧
      u.ring.next = s.ring.next ∧ u.member = s.member ∧ u.dark = s.dark ∧ u.sync = s.sync ∧ u.power = s.power ∧
      u.capture = { s.capture with
        state := s.capture.settledState, haltPending := false, disarmPending := false, exposure := none } := by
  have heq := abandonShot_abandons hk hn hst
  have hok : (s.abandonShot n).ringOk := h.congr (abandonShot_shots s n)
  have hslot : (s.abandonShot n).slot? n = some y := (slot?_congr (by simp) n).trans hy
  obtain ⟨e, he⟩ : ∃ e, (s.abandonShot n).entry? n = some e := by
    have hsome := hok.slot?_isSome n
    rw [hslot] at hsome
    exact Option.isSome_iff_exists.mp hsome.symm
  rw [freeUnread_frees hslot ht] at hu
  subst hu
  obtain ⟨hentry, hnone, htop, hnext, -, -, -, hmember, hcapture, hdark, hsync, hpower⟩ := (hok.freeSlot he).freedAs he
  exact ⟨hentry, hnone, htop.trans (by rw [heq]), hnext.trans (by rw [heq]), hmember.trans (by rw [heq]), hdark.trans (by rw [heq]),
    hsync.trans (by rw [heq]), hpower.trans (by rw [heq]), hcapture.trans (by rw [heq])⟩

/-! ## The Refuse of a shot already triggered, and of one still to be -/

theorem captureRefuse_known (h : n < s.ring.next ∨ (n = lastShot ∧ s.capture.current = lastShot)) :
    s.captureRefuse source n reason policy = (s.dropShot source n reason policy).sleepTest := by
  have hno : s.triggers n = false := by
    rw [triggers, Bool.and_eq_false_iff]
    obtain h | ⟨hn, hc⟩ := h
    · exact .inl (decide_eq_false (BitVec.not_le.mpr h))
    · exact .inr (by simp [hn, hc])
  rw [captureRefuse, hno]
  rfl

/-- A trigger has begun: the Refuse finds its shot triggered. -/
theorem begun_known (n : Shot) (s : State) : n < (s.begun n).ring.next ∨ (n = lastShot ∧ (s.begun n).capture.current = lastShot) := by
  by_cases hn : n = lastShot
  · exact .inr ⟨hn, hn⟩
  · refine .inl ?_
    have hlt := lt_nextShot hn
    rwa [nextShot_eq] at hlt

theorem begun_calm (h : s.calm) (n : Shot) : (s.begun n).calm := by
  refine h.imp id fun hdue id hid => ?_
  have hid' := hdue id hid
  cases id <;> exact hid'

end State

open State in
/-- Settles O28: the shot dropped in the station as it stands, after the first steps of its trigger, and after a dark capture. -/
theorem refuseDropsItsShot : Obligations.RefuseDropsItsShot := by
  refine fun source n reason policy s hf hcalm => ⟨fun hknown => ⟨fun k hk hn hst hok hslot => ?_, fun hexp hslot => ⟨fun hp => ?_, fun hp => ?_⟩⟩,
    fun hn hlast hno h1 h2 => ?_, fun k hn hlast hok hd hk => ?_⟩
  · obtain ⟨y, hy, ht⟩ := hslot
    obtain ⟨hentry, hnone, htop, hnext, hmember, hdark, hsync, hpower, hcapture⟩ := hok.freeUnread_abandoned hk hn hst hy ht rfl
    have hcur : ((s.abandonShot n).freeUnread n).capture.current = s.capture.current := by rw [hcapture]
    have hself : ((s.abandonShot n).freeUnread n).self = s.self := by rw [State.self, hmember]; rfl
    refine ⟨_, (exec_refuseTaken hf hcalm).trans (congrArg _ (captureRefuse_known hknown)), ?_⟩
    rw [dropShot_eq rfl hcur hself]
    generalize (s.abandonShot n).freeUnread n = u at *
    have hsettled : (u.dropTold source n reason policy).capture = { s.capture with
        state := s.capture.settledState, haltPending := false, disarmPending := false, exposure := none
        quiet := if n = s.capture.current then [] else s.capture.quiet } := by rw [dropTold, hcapture]
    refine ⟨fun hp => ?_, fun hp => ?_, ?_⟩
    · subst hp
      exact hsettled
    · subst hp
      rw [show (Policy.halt == Policy.halt) = true from rfl, doIf_true, halt_eq]
      refine ⟨rfl, ?_⟩
      dsimp only
      rw [hsettled, Capture.haltedBy_settled _ s.capture.settledState_cases rfl]
    · cases policy with
      | drop => exact ⟨hnone, hentry, htop, hnext, hsync, hdark, hpower, hmember⟩
      | halt =>
        rw [show (Policy.halt == Policy.halt) = true from rfl, doIf_true, halt_eq]
        exact ⟨hnone, hentry, htop, hnext, hsync, hdark, hpower, hmember⟩
  · subst hp
    rw [exec_refuseTaken hf hcalm, captureRefuse_known hknown, dropShot_still hexp hslot]
    rfl
  · subst hp
    refine ⟨_, (exec_refuseTaken hf hcalm).trans (congrArg _ ((captureRefuse_known hknown).trans (congrArg _ (dropShot_still hexp hslot)))), ?_⟩
    rw [show (Policy.halt == Policy.halt) = true from rfl, doIf_true, halt_eq]
    refine ⟨rfl, rfl, rfl, ?_, ?_⟩
    · dsimp only [dropTold]
      split <;> rfl
    · dsimp only [dropTold]
      by_cases hs : source = s.self
      · rw [if_pos hs, if_pos hs]
        exact if_pos hs
      · rw [if_neg hs, if_neg hs]
        exact if_neg hs
  · have hbegun : (s.raiseNext n).beginTrigger n = s.begun n := by
      rw [beginTrigger_begun (by exact h1) (by exact h2) (by exact hno), begun_raiseNext hn]
    rw [exec_refuseTaken hf hcalm, captureRefuse_triggers ⟨hn, hlast⟩, hbegun]
    refine Eq.trans ?_ (exec_refuseTaken (s := s.begun n) hf (begun_calm hcalm n)).symm
    rw [captureRefuse_known (begun_known n s)]
  · have hbegun := beginTrigger_dark (s := s.raiseNext n) hd hk n
    have hunslotted := hok.beginTrigger_unslotted hn
    refine ⟨_, (exec_refuseTaken hf hcalm).trans (congrArg _ (captureRefuse_triggers ⟨hn, hlast⟩)), ?_⟩
    have hdrop := dropShot_still (s := (s.raiseNext n).beginTrigger n) (source := source) (n := n) (reason := reason) (policy := policy)
      (fun x hx => by rw [hbegun] at hx; cases hx) fun y hy => by rw [hunslotted] at hy; cases hy
    have hcur : n = ((s.raiseNext n).beginTrigger n).capture.current := by rw [hbegun]
    have hself : ((s.raiseNext n).beginTrigger n).self = s.self := by rw [hbegun]; rfl
    refine ⟨?_, fun x hz hx ha => ?_⟩
    · rw [hdrop]
      cases policy with
      | drop =>
        rw [show (Policy.drop == Policy.halt) = false from rfl, doIf_false]
        unfold dropTold
        rw [if_pos hcur, if_pos hcur, hself, hbegun]
        rfl
      | halt =>
        have hsettled : (dropTold source n reason .halt ((s.raiseNext n).beginTrigger n)).capture = { s.capture with
            current := n, quiet := [], windowEnded := false, exposure := none, haltPending := false, disarmPending := false
            state := s.capture.settledState } := by
          unfold dropTold
          rw [if_pos hcur, if_pos hcur, hbegun]
          rfl
        have htold : (dropTold source n reason .halt ((s.raiseNext n).beginTrigger n)).self = s.self := hself
        rw [show (Policy.halt == Policy.halt) = true from rfl, doIf_true, halt_eq, hsettled, htold, Capture.haltedBy_settled _ s.capture.settledState_cases rfl]
        unfold dropTold
        rw [if_pos hcur, if_pos hcur, hself, hbegun]
        by_cases hs : source = s.self
        · simp only [if_pos hs, if_true]
          rfl
        · simp only [if_neg hs, if_true]
          rfl
    · obtain ⟨y, hy, hdark⟩ := beginTrigger_awaiting (s := s.raiseNext n) hd hk (hok.raiseNext hn)
        (by rw [raiseNext_eq hn]; exact BitVec.le_refl _) hz hx ha
      exact ⟨y, (slot?_congr (congrArg Ring.slots (dropShot_ring hunslotted)) _).trans hy, hdark⟩

end Sys2Proof.Machine
end

section
/-! PROOF. The end of integration by its four rules (R60-R65, R185). -/

namespace Sys2Proof.Machine

/-- In Pulse mode the shutter time is the agreed duration (R63). -/
def Entry.timed (mode : SyncMode) (shutter : Nat) (e : Entry) : Entry := if mode = .pulse then e.pulseDuration shutter else e

/-- The station once the integration of the exposure in hand has ended. -/
structure State.Ended (x : Exposure) (e : Entry) (E : Time) (s u : State) : Prop where
  capture : u.capture = { s.capture with state := .reading }
  sync : u.sync = { s.sync with bounces := 0 }
  slot : ∃ q, u.slot? x.shot = some q ∧ q.tag = .reading ∧ q.ownStart = x.ownStart ∧ q.ownEnd = some E ∧ q.limit = x.limit ∧
    q.bounces = some s.sync.bounces
  entry : u.entry? x.shot = some ((e.timed s.settings.syncMode x.shutter).openSupplied x.ownStart)
  others : sameOtherEntries x.shot s u
  clock : u.clock = s.clock.endingIntegration
  notices : u.notices = s.noticesEnding x e E x.limit
  link : u.link = s.link
  dark : u.dark = s.dark
  card : u.card = s.card
  member : u.member = s.member
  power : u.power = s.power

namespace State

variable {s u : State} {n m : Shot} {r y : Slot} {x : Exposure} {E time : Time} {source : Node} {e : Entry} {limit : Bool}

/-! ## The end of integration -/

theorem stopRunning_limit (s : State) : s.stopRunning .exposureLimit = { s with clock := { s.clock with timers := { s.clock.timers with
    exposureLimit := if s.clock.timers.exposureLimit.running then { s.clock.timers.exposureLimit with request := .stop }
      else s.clock.timers.exposureLimit } } } := by
  unfold stopRunning
  cases hr : (s.timer .exposureLimit).running with
  | true => rw [if_pos (show s.clock.timers.exposureLimit.running = true from hr)]; rfl
  | false => rw [if_neg (c := s.clock.timers.exposureLimit.running = true) fun h => Bool.false_ne_true (hr.symm.trans h)]; rfl

theorem stopRunning_pulse (s : State) : s.stopRunning .pulse = { s with clock := { s.clock with timers := { s.clock.timers with
    pulse := if s.clock.timers.pulse.running then { s.clock.timers.pulse with request := .stop } else s.clock.timers.pulse } } } := by
  unfold stopRunning
  cases hr : (s.timer .pulse).running with
  | true => rw [if_pos (show s.clock.timers.pulse.running = true from hr)]; rfl
  | false => rw [if_neg (c := s.clock.timers.pulse.running = true) fun h => Bool.false_ne_true (hr.symm.trans h)]; rfl

theorem stopRunning_ending (s : State) : (s.stopRunning .exposureLimit).stopRunning .pulse = { s with clock := s.clock.endingIntegration } := by
  rw [stopRunning_pulse, stopRunning_limit]
  rfl

/-- The station at the end of integration, before an absent agreed open is supplied. -/
def integrated (x : Exposure) (E : Time) (s : State) : State := { s with
  clock := s.clock.endingIntegration
  capture := { s.capture with state := .reading }
  sync := { s.sync with bounces := 0 }
  ring := ((s.updSlot x.shot (Slot.endIntegration x E s.sync.bounces)).doIf (s.settings.syncMode == .pulse)
    (updEntry x.shot (Entry.pulseDuration x.shutter))).ring }

theorem endIntegration_eq (hx : s.capture.exposure = some x) (E : Time) : s.endIntegration E =
    ((s.integrated x E).agreeOpen x.shot x.ownStart).doIf
      ((((s.integrated x E).agreeOpen x.shot x.ownStart).entry? x.shot).any (·.opener)) (raiseShotOpened x.shot) := by
  have hdone : (((((((s.stopRunning .exposureLimit).stopRunning .pulse).onCapture fun c => { c with state := .reading }).updSlot x.shot
      (Slot.endIntegration x E ((s.stopRunning .exposureLimit).stopRunning .pulse).sync.bounces)).onSync fun y =>
      { y with bounces := 0 })).doIf (s.settings.syncMode == .pulse) (updEntry x.shot (Entry.pulseDuration x.shutter))) =
      s.integrated x E := by
    rw [stopRunning_ending]
    unfold integrated
    cases s.settings.syncMode == .pulse <;> rfl
  unfold endIntegration
  rw [hx]
  dsimp only
  rw [show ((((s.stopRunning .exposureLimit).stopRunning .pulse).onCapture fun c => { c with state := .reading }).updSlot x.shot
      (Slot.endIntegration x E ((s.stopRunning .exposureLimit).stopRunning .pulse).sync.bounces)).settings = s.settings by simp [settings],
    hdone]

theorem integrated_slot? (hr : s.slot? x.shot = some r) (E : Time) :
    (s.integrated x E).slot? x.shot = some (Slot.endIntegration x E s.sync.bounces r) := by
  have hslot : (s.integrated x E).slot? x.shot = (s.updSlot x.shot (Slot.endIntegration x E s.sync.bounces)).slot? x.shot :=
    slot?_congr (by unfold integrated; cases s.settings.syncMode == .pulse <;> rfl) _
  rw [hslot, updSlot_slot? _ _ _ _ fun _ => by rfl, hr, Option.map_some, if_pos rfl]

theorem integrated_entries (x : Exposure) (E : Time) (s : State) (m : Shot) : (s.integrated x E).entry? m =
    (s.entry? m).map fun e => if m = x.shot then e.timed s.settings.syncMode x.shutter else e := by
  have hentry : (s.integrated x E).entry? m = (s.doIf (s.settings.syncMode == .pulse)
      (updEntry x.shot (Entry.pulseDuration x.shutter))).entry? m :=
    entry?_congr (by unfold integrated; cases s.settings.syncMode == .pulse <;> rfl) _
  rw [hentry]
  unfold Entry.timed
  by_cases hp : s.settings.syncMode = .pulse
  · rw [beq_iff_eq.mpr hp, doIf_true, updEntry_entry? _ _ _ _ fun _ => by rfl]
    simp only [if_pos hp]
  · rw [beq_eq_false_iff_ne.mpr hp, doIf_false]
    simp only [if_neg hp, ite_self, Option.map_id']

theorem integrated_shots (x : Exposure) (E : Time) (s : State) : (s.integrated x E).shots = s.shots := by
  have hshots : (s.integrated x E).shots = ((s.updSlot x.shot (Slot.endIntegration x E s.sync.bounces)).doIf
      (s.settings.syncMode == .pulse) (updEntry x.shot (Entry.pulseDuration x.shutter))).shots := by
    unfold integrated
    cases s.settings.syncMode == .pulse <;> rfl
  rw [hshots, doIf_shots, updEntry_shots' _ _ (Entry.pulseDuration x.shutter) fun _ => ⟨rfl, rfl⟩,
    updSlot_shots _ _ (Slot.endIntegration x E s.sync.bounces) fun _ => by rfl, ite_self]

theorem timed_keeps (mode : SyncMode) (shutter : Nat) (e : Entry) :
    e.timed mode shutter = { e with agreedDuration := (e.timed mode shutter).agreedDuration } := by
  unfold Entry.timed
  split <;> rfl

theorem openAt_supplied (t : Time) (e : Entry) : e.openAt t = e.openSupplied t := Entry.openAt_eq t e

theorem ringOk.endIntegration (h : s.ringOk) (hx : s.capture.exposure = some x) (hr : s.slot? x.shot = some r)
    (he : s.entry? x.shot = some e) (E : Time) : s.Ended x e E (s.endIntegration E) := by
  set f := (e.timed s.settings.syncMode x.shutter).openSupplied x.ownStart with hf
  have hentry : ((s.integrated x E).agreeOpen x.shot x.ownStart).entry? x.shot = some f := by
    have htimed : (s.integrated x E).entry? x.shot = some (e.timed s.settings.syncMode x.shutter) := by
      rw [integrated_entries, he, Option.map_some, if_pos rfl]
    rw [agreeOpen_entry? htimed, openAt_supplied]
  have hopener : f.opener = e.opener := by rw [hf, timed_keeps]; rfl
  have hopened : f.agreedOpen.getD 0#64 = e.agreedOpen.getD x.ownStart := by rw [hf, timed_keeps]; rfl
  have hok : ((s.integrated x E).updEntry x.shot (Entry.openAt x.ownStart)).ringOk := by
    refine h.congr ?_
    rw [updEntry_shots' _ _ _ fun e => Entry.openAt_same _ e, integrated_shots]
  obtain ⟨q, hq, hout⟩ : ∃ q, ((s.integrated x E).agreeOpen x.shot x.ownStart).slot? x.shot = some q ∧
      (Slot.endIntegration x E s.sync.bounces r).Outcome q := by
    unfold agreeOpen
    split
    · exact hok.recordOutcome_outcome x.shot (integrated_slot? hr E)
    · exact ⟨_, integrated_slot? hr E, rfl, fun _ => rfl, .inl⟩
  have htag : q.tag = .reading := hout.notRaw fun h => nomatch (h : Tag.reading = Tag.raw)
  have hlimit : q.limit = x.limit := by rw [hout.same]; rfl
  have hend : q.ownEnd = some E := by rw [hout.same]; rfl
  have hbounces : q.bounces = some s.sync.bounces := by rw [hout.same]; rfl
  have heq := endIntegration_eq hx E
  rw [hentry, Option.any_some, hopener] at heq
  have hagree := agreeOpen_eq x.shot x.ownStart (s.integrated x E)
  rw [heq]
  refine ⟨by simp [integrated], by simp [integrated], ⟨q, ?_, htag, by rw [hout.same]; rfl, hend, hlimit, hbounces⟩, ?_, fun m hm => ?_,
    by simp [integrated], ?_, by simp [integrated], by simp [integrated], by simp [integrated], by simp [integrated], by simp [integrated]⟩
  · exact (slot?_congr (by cases e.opener <;> simp) _).trans hq
  · rw [doIf_raiseShotOpened_entry?, hentry]
  · rw [doIf_raiseShotOpened_entry?, agreeOpen_otherEntries _ _ _ m hm, integrated_entries]
    simp [hm]
  · unfold noticesEnding
    cases ho : e.opener with
    | false =>
      rw [doIf_false, if_neg Bool.false_ne_true]
      simp [integrated]
    | true =>
      rw [doIf_true, raiseShotOpened_ended hq hentry hend, hopened, hlimit, hbounces, if_pos rfl]
      simp [integrated, raise, onNotices]

end State

end Sys2Proof.Machine
end

section
/-! PROOF. The four ends of an integration, and an Open after it (R60-R65, R185). -/

namespace Sys2Proof.Machine

namespace State

variable {s u : State} {n m : Shot} {r y : Slot} {x : Exposure} {E time : Time} {source : Node} {e : Entry} {limit : Bool}

theorem timed_follow {mode : SyncMode} (h : mode ≠ .pulse) (shutter : Nat) (e : Entry) : e.timed mode shutter = e := if_neg h

theorem timed_pulse (shutter : Nat) (e : Entry) (hc : e.agreedClose = none) (t : Time) :
    (e.timed .pulse shutter).openSupplied t = { e.openSupplied t with agreedDuration := some (shutter : Int) } := by
  have htimed : e.timed .pulse shutter = e.pulseDuration shutter := if_pos rfl
  rw [htimed]
  unfold Entry.openSupplied Entry.pulseDuration
  dsimp only
  rw [hc]
  cases e.agreedOpen <;> rfl

theorem closeKnown_eq (he : s.entry? n = some e) : s.closeKnown n = e.agreedClose.isSome := by
  rw [closeKnown, he, Option.any_some]

theorem exposes_true (hst : s.capture.state = .exposing) (hx : s.capture.exposure = some x) : s.exposes x.shot = true := by
  simp [exposes, hst, hx]

/-- The Close that ends an integration where none has been taken. -/
theorem doIf_close (h : s.Ended x e E u) (b : Bool) (t : Time) (hb : b = (s.settings.syncMode == .follow)) (limit : Bool) :
    (u.doIf (b && !e.agreedClose.isSome) (broadcast (.closeShot x.shot t limit))).link =
      if s.settings.syncMode = .follow ∧ e.agreedClose = none then s.linkAfter 15#4 (.closeShot x.shot t limit) else s.link := by
  rw [hb]
  by_cases hf : s.settings.syncMode = .follow
  · rw [beq_iff_eq.mpr hf]
    cases hc : e.agreedClose with
    | none =>
      rw [if_pos ⟨hf, rfl⟩]
      have hlink : (u.broadcast (.closeShot x.shot t limit)).link = u.linkAfter 15#4 (.closeShot x.shot t limit) := rfl
      refine hlink.trans ?_
      rw [linkAfter, linkAfter, h.member, h.link]
    | some c =>
      rw [if_neg (by simp)]
      exact h.link
  · rw [beq_eq_false_iff_ne.mpr hf, if_neg fun hc => hf hc.1]
    exact h.link

theorem doIf_broadcast (b : Bool) (msg : Msg) (s : State) :
    s.doIf b (broadcast msg) = { s with link := (s.doIf b (broadcast msg)).link } := by cases b <;> rfl

/-- A Close sent after the end changes the link alone. -/
theorem Ended.closed (h : s.Ended x e E u) {u' : State} (b : Bool) (msg : Msg) (hu : u' = u.doIf b (broadcast msg)) :
    u'.capture = { s.capture with state := .reading } ∧ u'.sync = { s.sync with bounces := 0 } ∧
    (∃ q, u'.slot? x.shot = some q ∧ q.tag = .reading ∧ q.ownStart = x.ownStart ∧ q.ownEnd = some E ∧ q.limit = x.limit ∧
      q.bounces = some s.sync.bounces) ∧
    u'.entry? x.shot = some ((e.timed s.settings.syncMode x.shutter).openSupplied x.ownStart) ∧ sameOtherEntries x.shot s u' ∧
    u'.clock = s.clock.endingIntegration ∧ u'.notices = s.noticesEnding x e E x.limit ∧ u'.dark = s.dark ∧ u'.card = s.card ∧
    u'.member = s.member ∧ u'.power = s.power := by
  rw [hu, doIf_broadcast]
  exact ⟨h.capture, h.sync, h.slot, h.entry, h.others, h.clock, h.notices, h.dark, h.card, h.member, h.power⟩

/-! ## The four rules -/

variable {c : Candidate}

theorem exec_openingEdge_ends (hm : s.maturingAwake s.settings.syncPolarity.openLevel c) (hcalm : s.calm) (hf : s.settings.syncMode = .follow)
    (hst : s.capture.state = .exposing) (hx : s.capture.exposure = some x) (he : s.entry? x.shot = some e) :
    exec .syncOpeningEdge s = .next (((s.atEdge s.settings.syncPolarity.openLevel).endIntegration c.since).doIf (!e.agreedClose.isSome)
      (broadcast (.closeShot x.shot c.since false))) := by
  have hexposure : (s.atEdge s.settings.syncPolarity.openLevel).capture.exposure = some x := hx
  have hends : ((s.atEdge s.settings.syncPolarity.openLevel).capture.state == .exposing &&
      (s.atEdge s.settings.syncPolarity.openLevel).settings.syncMode == .follow) = true :=
    Bool.and_eq_true_iff.mpr ⟨beq_iff_eq.mpr hst, beq_iff_eq.mpr hf⟩
  have hknown := closeKnown_eq (s := s.atEdge s.settings.syncPolarity.openLevel) he
  rw [exec_syncOpeningEdge ⟨hm, hcalm⟩, openingEdge, hexposure, ← hknown]
  exact congrArg _ (if_pos hends)

/-- The station once a first Close of the shot it exposes has been recorded (R62). -/
def closeTaken (x : Exposure) (time : Time) (limit : Bool) (s : State) : State :=
  { s.updEntry x.shot (Entry.closeAt time) with
    capture := { s.capture with exposure := some { x with limit := x.limit || limit } } }

theorem exec_closeTaken_ends (hf : s.inForce) (hcalm : s.calm) (hmode : s.settings.syncMode = .follow) (hst : s.capture.state = .exposing)
    (hx : s.capture.exposure = some x) (he : s.entry? x.shot = some e) (hc : e.agreedClose = none) :
    exec (.closeTaken source x.shot time limit) s = .next ((s.closeTaken x time limit).endIntegration s.clock.linkTime) := by
  have hexec : exec (.closeTaken source x.shot time limit) s = .next (s.captureClose x.shot time limit) :=
    (event_of_calm _ s hcalm).trans (congrArg _ (take_inForce _ _ hf))
  have hexposes := exposes_true hst hx
  have hexposes' : (s.updEntry x.shot (Entry.closeAt time)).exposes x.shot = true := hexposes
  have hmarked : (s.updEntry x.shot (Entry.closeAt time)).doIf limit (markLimit x.shot) = s.closeTaken x time limit := by
    unfold closeTaken
    cases limit with
    | false =>
      rw [doIf_false, Bool.or_false, ← hx]
      rfl
    | true =>
      rw [doIf_true, markLimit, hexposes', Bool.or_true]
      change State.onCapture (fun c => { c with exposure := c.exposure.map fun x => { x with limit := true } }) _ = _
      unfold onCapture
      rw [show (s.updEntry x.shot (Entry.closeAt time)).capture = s.capture from rfl]
      dsimp only
      rw [hx]
      rfl
  rw [hexec, captureClose, beq_iff_eq.mpr hmode, if_pos rfl, he, Option.any_some, hc]
  dsimp only [Option.isNone_none]
  rw [Bool.true_and, hmarked, hexposes]
  rfl

theorem exec_pulseExpiry_ends (h : s.expires .pulse) (hst : s.capture.state = .exposing) (hmode : s.settings.syncMode = .pulse) :
    exec .pulseTimerExpiry s = .next (State.endIntegration s.clock.linkTime { s with clock := s.clockAfter .pulse }) := by
  have hends : (s.capture.state == .exposing && s.settings.syncMode == .pulse) = true := by simp [hst, hmode]
  have hexec : exec .pulseTimerExpiry s = .next (pulseExpiry { s with clock := s.clockAfter .pulse }) := congrArg _ (expire_expires h)
  rw [hexec, pulseExpiry]
  exact congrArg (fun b => Host.Outcome.next (doIf b (endIntegration s.clock.linkTime) { s with clock := s.clockAfter .pulse })) hends

/-- The station once its exposure limit has been reached, before integration ends. -/
def limitReached (x : Exposure) (s : State) : State :=
  { s with clock := s.clockAfter .exposureLimit, capture := { s.capture with exposure := some { x with limit := true } } }

theorem exec_limitExpiry_ends (h : s.expires .exposureLimit) (hst : s.capture.state = .exposing) (hx : s.capture.exposure = some x)
    (he : s.entry? x.shot = some e) : exec .exposureLimitExpiry s = .next (((s.limitReached x).endIntegration s.clock.linkTime).doIf
      (s.settings.syncMode == .follow && !e.agreedClose.isSome)
      (broadcast (.closeShot x.shot s.clock.linkTime true))) := by
  have hexec : exec .exposureLimitExpiry s = .next (limitExpiry { s with clock := s.clockAfter .exposureLimit }) :=
    congrArg _ (expire_expires h)
  have hmarked : State.markLimit x.shot { s with clock := s.clockAfter .exposureLimit } = s.limitReached x := by
    rw [markLimit, show State.exposes x.shot { s with clock := s.clockAfter .exposureLimit } = true from exposes_true hst hx]
    unfold limitReached
    simp [onCapture, hx]
  have hends : (s.capture.state == .exposing) = true := beq_iff_eq.mpr hst
  rw [hexec]
  unfold limitExpiry
  dsimp only
  rw [hx, hends]
  dsimp only
  rw [hmarked, if_pos rfl, ← closeKnown_eq he]
  rfl

end State

open State in
/-- Settles O26: the end of integration after each rule's own step, and the Open that comes after it. -/
theorem integrationEndsByItsRule : Obligations.IntegrationEndsByItsRule := by
  refine ⟨fun x r e s hf hok hst hx hr he => ⟨fun c hcalm hm hmode => ?_, fun source time limit hcalm hmode hc => ?_,
    fun hexp hmode hc => ?_, fun hexp => ?_⟩, fun source n time E e r s hf hcalm hok hn he hr hE ht => ?_⟩
  · have hends := ringOk.endIntegration (s := s.atEdge s.settings.syncPolarity.openLevel) hok hx hr he c.since
    have htimed : e.timed s.settings.syncMode x.shutter = e := timed_follow (by simp [hmode]) _ e
    obtain ⟨hcapture, hsync, hslot, hentry, hothers, hclock, hnotices, hdark, hcard, hmember, hpower⟩ :=
      hends.closed (!e.agreedClose.isSome) (.closeShot x.shot c.since false) rfl
    have hlink := doIf_close hends true c.since (by simp [atEdge, settings] at hmode ⊢; simp [hmode]) false
    refine ⟨_, exec_openingEdge_ends hm hcalm hmode hst hx he, hcapture, hsync, hslot, ?_, hothers, hclock, ?_, hnotices, hdark, hcard,
      hmember, hpower⟩
    · exact hentry.trans (congrArg (fun f => some (Entry.openSupplied x.ownStart f)) htimed)
    · rw [Bool.true_and] at hlink
      rw [hlink]
      by_cases hc : e.agreedClose = none
      · rw [if_pos hc, if_pos ⟨hmode, hc⟩]
        rfl
      · rw [if_neg hc, if_neg fun h => hc h.2]
        rfl
  · have hok' : (s.closeTaken x time limit).ringOk :=
      hok.congr (updEntry_shots' s x.shot (Entry.closeAt time) fun e => Entry.closeAt_same time e)
    have hentry' : (s.closeTaken x time limit).entry? x.shot = some (e.closeAt time) := by
      refine (updEntry_entry? x.shot x.shot (Entry.closeAt time) s fun e => Entry.closeAt_shot time e).trans ?_
      rw [he, Option.map_some, if_pos rfl]
    have hends := ringOk.endIntegration (s := s.closeTaken x time limit) (x := { x with limit := x.limit || limit }) hok' rfl hr hentry'
      s.clock.linkTime
    have htimed : (e.closeAt time).timed s.settings.syncMode x.shutter = e.closeAt time := timed_follow (by simp [hmode]) _ _
    refine ⟨_, exec_closeTaken_ends hf hcalm hmode hst hx he hc, hends.capture, hends.sync, hends.slot, ?_, fun m hm => ?_, hends.clock, ?_,
      hends.link, hends.dark, hends.card, hends.member, hends.power⟩
    · refine hends.entry.trans (congrArg some ?_)
      refine (congrArg (Entry.openSupplied x.ownStart) htimed).trans ?_
      rw [Entry.closeAt_eq, hc]
      cases ho : e.agreedOpen <;> simp [Entry.openSupplied, ho]
    · exact (hends.others m hm).trans (updEntry_sameOther x.shot (Entry.closeAt time) s (fun e => Entry.closeAt_shot time e) m hm)
    · refine hends.notices.trans ?_
      have hopener : (e.closeAt time).opener = e.opener ∧ (e.closeAt time).agreedOpen = e.agreedOpen := by
        rw [Entry.closeAt_eq]
        split <;> exact ⟨rfl, rfl⟩
      unfold noticesEnding
      rw [hopener.1, hopener.2]
      rfl
  · have hends := ringOk.endIntegration (s := { s with clock := s.clockAfter .pulse }) hok hx hr he s.clock.linkTime
    refine ⟨_, exec_pulseExpiry_ends hexp hst hmode, hends.capture, hends.sync, hends.slot, hends.entry.trans (congrArg some ?_), hends.others,
      hends.clock, hends.notices, hends.link, hends.dark, hends.card, hends.member, hends.power⟩
    have hp := timed_pulse x.shutter e hc x.ownStart
    rw [← hmode] at hp
    exact hp
  · have hends := ringOk.endIntegration (s := s.limitReached x) (x := { x with limit := true }) hok rfl hr he s.clock.linkTime
    obtain ⟨hcapture, hsync, hslot, hentry, hothers, hclock, hnotices, hdark, hcard, hmember, hpower⟩ :=
      hends.closed (s.settings.syncMode == .follow && !e.agreedClose.isSome) (.closeShot x.shot s.clock.linkTime true) rfl
    refine ⟨_, exec_limitExpiry_ends hexp hst hx he, hcapture, hsync, hslot, fun hmode => ?_, fun hmode hc => ?_, hothers, hclock,
      doIf_close hends (s.settings.syncMode == .follow) _ rfl true, hnotices, hdark, hcard, hmember, hpower⟩
    · have htimed : e.timed s.settings.syncMode x.shutter = e := timed_follow (by simp [hmode]) _ e
      exact hentry.trans (congrArg (fun f => some (Entry.openSupplied x.ownStart f)) htimed)
    · have hp := timed_pulse x.shutter e hc x.ownStart
      rw [← hmode] at hp
      exact hentry.trans (congrArg some hp)
  · have htaken : (e.openAt time).openTaken = false := by rw [Entry.openAt_eq]; exact ht
    obtain ⟨q, hq, hout⟩ := hok.takeAgreedOpen_outcome source time hr
    have hq' : (s.agreeOpen n time).slot? n = some q := (settleOpener_slot? source n n _).symm.trans hq
    have hnotices := settleOpener_notices (source := source) (agreeOpen_entry? he) htaken hq' (E := E) (by rw [hout.same]; exact hE)
    refine ⟨_, exec_openTaken_observes hf hcalm hn, takeAgreedOpen_entry? he, ?_, takeAgreedOpen_eq source n time s,
      takeAgreedOpen_otherEntries source n time s⟩
    have hlimit : q.limit = r.limit ∧ q.bounces = r.bounces := by rw [hout.same]; exact ⟨rfl, rfl⟩
    have hopened : (e.openAt time).agreedOpen.getD 0#64 = e.agreedOpen.getD time := by rw [Entry.openAt_eq]; rfl
    have hself : (s.agreeOpen n time).self = s.self := by simp [State.self]
    have hsame : (s.agreeOpen n time).notices = s.notices := by simp
    rw [hopened, hlimit.1, hlimit.2, hself, hsame] at hnotices
    exact hnotices

end Sys2Proof.Machine
end

section
/-! PROOF. The sensor tile port, and a readout's completion (R53, R65, R68, R88, R97-R99). -/

namespace Sys2Proof.Machine

namespace State

variable {s u : State} {n m : Shot} {r y : Slot} {x : Exposure} {E : Time} {e : Entry} {samples : List Sample} {d : Int}

/-! ## Slot indices and roster entries in a ring that is in order -/

theorem ringOk.slotIndex (h : s.ringOk) (he : s.entry? n = some e) : s.slotIndex n = e.slot := by
  obtain ⟨-, -, hslots, hroster, hnodup, -, -⟩ := h
  obtain ⟨x, hx, hxe⟩ := hroster e (entry?_mem he)
  have hxn : x.shot = n := hxe.trans (entry?_shot he)
  obtain ⟨hi, -⟩ := List.getElem?_eq_some_iff.mp hx
  have hlt : s.slotIndex n < s.ring.slots.length :=
    List.findIdx_lt_length_of_exists ⟨some x, List.mem_of_getElem? hx, by simp [hxn]⟩
  have hfound := List.findIdx_getElem (w := hlt)
  rw [Option.any_eq_true] at hfound
  obtain ⟨z, hz, hzn⟩ := hfound
  have hz' : s.ring.slots[s.slotIndex n]? = some (some z) := (List.getElem?_eq_getElem hlt).trans (congrArg some hz)
  obtain ⟨f, hf, hfz, hfi⟩ := hslots _ z hz'
  have hef : f = e := List.inj_on_of_nodup_map hnodup hf (entry?_mem he) (hfz.trans ((eq_of_beq hzn).trans (entry?_shot he).symm))
  rw [← hfi, hef]

/-- In a ring that is in order a change of a shot's entry is one of the entry that its number finds. -/
theorem ringOk.updEntry_only (h : s.ringOk) (he : s.entry? n = some e) (f : Entry → Entry) : s.updEntry n f = s.updEntry n fun _ => f e := by
  have hroster : (s.ring.roster.map fun g => if g.shot = n then f g else g) = s.ring.roster.map fun g => if g.shot = n then f e else g := by
    refine List.map_congr_left fun g hg => ?_
    split
    next hgn =>
      have hge := h.entry? hg
      rw [hgn, he] at hge
      rw [Option.some.inj hge]
    · rfl
  unfold updEntry onRing Ring.updEntry
  rw [hroster]

theorem ringOk.updEntry_same (h : s.ringOk) (he : s.entry? n = some e) : (s.updEntry n fun _ => e) = s := by
  have hroster : (s.ring.roster.map fun g => if g.shot = n then e else g) = s.ring.roster := by
    refine (List.map_congr_left fun g hg => ?_).trans (List.map_id _)
    split
    next hgn =>
      have hge := h.entry? hg
      rw [hgn, he] at hge
      exact Option.some.inj hge
    · rfl
  unfold updEntry onRing Ring.updEntry
  rw [hroster]

/-! ## The port (R53) -/

theorem ringOk.portArea (h : s.ringOk) (hx : s.capture.exposure = some x) (he : s.entry? x.shot = some e) :
    s.portArea = some (.area e.slot) := by
  rw [State.portArea, hx, Option.map_some, h.slotIndex he]

theorem readoutDone_unasked (h : ∀ i, s.port ≠ .readOut (.area i)) : s.readoutDone samples = s := by
  unfold readoutDone
  split
  · rfl
  · rw [if_neg (h _)]

/-! ## The completion of a readout, step by step -/

/-- The samples in the slot area, and the agreed close supplied (R65, R68). -/
def readoutStored (n : Shot) (samples : List Sample) (s : State) : State :=
  (s.onRing (Ring.updArea (s.slotIndex n) fun a => { a with raw := samples })).supplyClose n

/-- The tile is Raw, and the completion test has been made (R68, R88). -/
def readoutRaw (n : Shot) (s : State) : State := (s.updSlot n fun y => { y with tag := .raw }).completionTest n

/-- Dark status, ReadDone and what the station does next (R68, R99). -/
def readoutTold (n : Shot) (s : State) : State :=
  (((s.doIf (s.slot? n).isSome (applyDark n)).broadcast (.readDone n .regular ((s.slot? n).isSome && s.decideDark n == .awaiting))).doIf
    (!((s.slot? n).isSome && s.decideDark n == .awaiting)) endReadout).tryStartJob

theorem readoutDone_eq (hst : s.capture.state = .reading) (hx : s.capture.exposure = some x) : s.readoutDone samples =
    (((s.readoutStored x.shot samples).readoutRaw x.shot).readoutTold x.shot).sleepTest := by
  have hport := (port_reading s x hx).mpr hst
  unfold readoutDone
  rw [hx]
  exact if_pos hport

theorem exec_readoutComplete (hcalm : s.calm) : exec (.readoutComplete samples) s = .next (s.readoutDone samples) :=
  event_of_calm _ s hcalm

/-! ## The agreed close (R65) -/

theorem closeAt_known (h : e.agreedClose ≠ none) (t : Time) : e.closeAt t = e := by
  unfold Entry.closeAt
  split
  next hc => exact absurd hc h
  · rfl

/-- The samples alone are in the slot area. -/
def sampled (n : Shot) (samples : List Sample) (s : State) : State :=
  s.onRing (Ring.updArea (s.slotIndex n) fun a => { a with raw := samples })

theorem sampled_shots (n : Shot) (samples : List Sample) (s : State) : (s.sampled n samples).shots = s.shots := rfl

theorem ringOk.sampled (h : s.ringOk) (n : Shot) (samples : List Sample) : (s.sampled n samples).ringOk := h

/-- In Pulse mode, and with the agreed close present, none is supplied. -/
theorem ringOk.readoutStored_known (h : s.ringOk) (he : s.entry? n = some e) (hc : s.settings.syncMode = .follow → e.agreedClose ≠ none) :
    s.readoutStored n samples = s.sampled n samples := by
  unfold readoutStored supplyClose
  split
  next t hmode _ =>
    have honly := ringOk.updEntry_only (s := s.sampled n samples) h he (Entry.closeAt t)
    rw [closeAt_known (hc hmode)] at honly
    exact honly.trans (ringOk.updEntry_same (s := s.sampled n samples) h he)
  · rfl

/-- In Follow mode an absent agreed close is supplied from the own end time. -/
theorem ringOk.readoutStored_supplies (h : s.ringOk) (he : s.entry? n = some e) (hr : s.slot? n = some r)
    (hmode : s.settings.syncMode = .follow) (hE : r.ownEnd = some E) :
    s.readoutStored n samples = (s.sampled n samples).updEntry n fun _ => e.closeAt E := by
  have hend : ((s.sampled n samples).slot? n).bind (·.ownEnd) = some E := by
    rw [show (s.sampled n samples).slot? n = s.slot? n from rfl, hr]
    exact hE
  have hmode' : (s.sampled n samples).settings.syncMode = .follow := hmode
  change (s.sampled n samples).supplyClose n = _
  unfold supplyClose
  rw [hmode', hend]
  exact ringOk.updEntry_only (s := s.sampled n samples) h he (Entry.closeAt E)

/-- The readout of a shot whose agreed close is absent is that of the shot with it supplied. -/
theorem ringOk.readout_supplied (h : s.ringOk) (he : s.entry? n = some e) (hr : s.slot? n = some r)
    (hmode : s.settings.syncMode = .follow) (hE : r.ownEnd = some E) :
    State.readoutStored n samples (s.updEntry n fun _ => e.closeAt E) = s.readoutStored n samples := by
  set v := s.updEntry n fun _ => e.closeAt E with hv
  have hclosed : s.updEntry n (Entry.closeAt E) = v := h.updEntry_only he (Entry.closeAt E)
  have hentry : v.entry? n = some (e.closeAt E) := by
    rw [← hclosed, updEntry_entry? _ _ _ _ (Entry.closeAt_shot E), he, Option.map_some, if_pos rfl]
  have hok : v.ringOk := by
    rw [← hclosed]
    exact h.congr (updEntry_shots' _ _ _ fun e => Entry.closeAt_same E e)
  have hsupplied : (e.closeAt E).agreedClose ≠ none := by
    rw [Entry.closeAt_eq]
    cases hc : e.agreedClose with
    | some c => simp [hc]
    | none => cases e.agreedOpen <;> simp
  rw [hok.readoutStored_known hentry fun _ => hsupplied, h.readoutStored_supplies he hr hmode hE]
  rfl

/-! ## The completion test (R88) -/

theorem raw_slot? (hr : s.slot? n = some r) : (s.updSlot n fun y => { y with tag := .raw }).slot? n = some { r with tag := .raw } := by
  rw [updSlot_slot? _ _ _ _ fun _ => by rfl, hr, Option.map_some, if_pos rfl]

theorem finished_iff (e : Entry) : e.finished = true ↔
    (∀ p ∈ e.parts, p.placement ≠ .reserved) ∧ ∃ p ∈ e.parts, p.placement = .committed := by
  simp [Entry.finished]

theorem readoutRaw_frees (he : s.entry? n = some e) (hr : s.slot? n = some r) (hf : e.finished = true) :
    s.readoutRaw n = (s.updSlot n fun y => { y with tag := .raw }).freeSlot n := by
  refine if_pos ?_
  rw [updSlot_entry?, he, raw_slot? hr, Option.any_some, Option.any_some, hf]
  rfl

theorem readoutRaw_keeps (he : s.entry? n = some e) (hf : e.finished = false) :
    s.readoutRaw n = s.updSlot n fun y => { y with tag := .raw } := by
  refine if_neg ?_
  rw [updSlot_entry?, he, Option.any_some, hf]
  exact Bool.false_ne_true

end State

end Sys2Proof.Machine
end

section
/-! PROOF. What follows the completion of a readout (R68, R88, R97-R99). -/

namespace Sys2Proof.Machine

namespace State

variable {s u : State} {n m : Shot} {r y : Slot} {x : Exposure} {E : Time} {e : Entry} {samples : List Sample} {d : Int}

/-! ## The dark status -/

theorem decideDark_eq (he : s.entry? n = some e) (hd : e.agreedDuration = some d) : s.decideDark n =
    if !needsDark s.settings d then .notNeeded else if s.darkFits d then .used else .awaiting := by
  rw [decideDark, he, Option.bind_some, hd, Option.getD_some]

/-- The station once ReadDone has gone out and the exposure in hand has ended (R54, R68). -/
def readoutOver (n : Shot) (s : State) : State := { s with
  link := s.linkAfter 15#4 (.readDone n .regular false)
  capture := { s.capture with
    state := s.capture.settledState, haltPending := false, disarmPending := false, exposure := none } }

theorem readoutTold_freed (hr : s.slot? n = none) : s.readoutTold n = (s.readoutOver n).tryStartJob := by
  unfold readoutTold
  rw [hr]
  rfl

theorem readoutTold_settled {k : DarkStatus} (hr : s.slot? n = some r) (hk : s.decideDark n = k) (hnot : k ≠ .awaiting) :
    s.readoutTold n = ((s.updSlot n fun x => { x with dark := some k }).readoutOver n).tryStartJob := by
  have hno : (k == DarkStatus.awaiting) = false := beq_eq_false_iff_ne.mpr hnot
  have happly : s.applyDark n = s.updSlot n fun x => { x with dark := some k } := by
    unfold applyDark
    rw [hk, hno]
    rfl
  unfold readoutTold
  rw [hr, hk, hno, Option.isSome_some, doIf_true, happly]
  rfl

theorem readoutTold_awaiting (he : s.entry? n = some e) (hd : e.agreedDuration = some d) (hr : s.slot? n = some r)
    (hk : s.decideDark n = .awaiting) : s.readoutTold n =
      ((((s.updSlot n fun x => { x with dark := some .awaiting }).startDark n (cappedDark d))).broadcast
        (.readDone n .regular true)).tryStartJob := by
  have hyes : (DarkStatus.awaiting == DarkStatus.awaiting) = true := rfl
  have hduration : ((s.entry? n).bind (·.agreedDuration)).getD 0 = d := by rw [he, Option.bind_some, hd]; rfl
  have happly : s.applyDark n = (s.updSlot n fun x => { x with dark := some .awaiting }).startDark n (cappedDark d) := by
    unfold applyDark
    rw [hk, hyes, hduration]
    rfl
  unfold readoutTold
  rw [hr, hk, hyes, Option.isSome_some, doIf_true, happly]
  rfl

/-- The test of R112 does not start the job of a tile that awaits a dark frame. -/
theorem tryStartJob_awaits (hr : s.slot? n = some r) (hd : r.dark = some .awaiting) : s.tryStartJob.slot? n = some r := by
  obtain he | ⟨x, hx, hmay, -, -, -, he⟩ := s.tryStartJob_cases
  · rw [he, hr]
  · have hne : n ≠ x.shot := by
      rintro rfl
      rw [Option.some.inj (hx.symm.trans hr), Slot.mayDevelop, hd] at hmay
      cases hmay
    rw [he, startJob_slot?, hr, Option.map_some, if_neg hne]

/-! ## The tile of the shot -/

/-- The station with the samples in the slot area and the tile Raw. -/
def rawTile (n : Shot) (samples : List Sample) (s : State) : State := (s.sampled n samples).updSlot n fun y => { y with tag := .raw }

theorem rawTile_slot? (hr : s.slot? n = some r) (samples : List Sample) : (s.rawTile n samples).slot? n = some { r with tag := .raw } :=
  raw_slot? (s := s.sampled n samples) hr

theorem ringOk.rawTile (h : s.ringOk) (n : Shot) (samples : List Sample) : (s.rawTile n samples).ringOk :=
  ringOk.congr (s := s.sampled n samples) h (updSlot_shots _ n (fun y => { y with tag := .raw }) fun _ => by rfl)

theorem rawTile_raw (n : Shot) (samples : List Sample) (s : State) :
    ((s.rawTile n samples).ring.areas.getD (s.slotIndex n) {}).raw = if s.slotIndex n < s.ring.areas.length then samples else [] := by
  change ((s.ring.areas.modify (s.slotIndex n) fun a => { a with raw := samples }).getD (s.slotIndex n) {}).raw = _
  rw [List.getD_eq_getElem?_getD, List.getElem?_modify_eq]
  split
  next hlt => rw [List.getElem?_eq_getElem hlt]; rfl
  next hlt => rw [List.getElem?_eq_none (Nat.not_lt.mp hlt)]; rfl

/-- The readout of a shot that is not freed: the tile is Raw, and what follows is told. -/
theorem ringOk.readoutDone_keeps (h : s.ringOk) (hst : s.capture.state = .reading) (hx : s.capture.exposure = some x)
    (he : s.entry? x.shot = some e) (hc : s.settings.syncMode = .follow → e.agreedClose ≠ none)
    (hno : (∀ p ∈ e.parts, p.placement ≠ .committed) ∨ ∃ p ∈ e.parts, p.placement = .reserved) :
    s.readoutDone samples = ((s.rawTile x.shot samples).readoutTold x.shot).sleepTest := by
  have hunfinished : e.finished = false := by
    rw [Bool.eq_false_iff, ne_eq, finished_iff]
    rintro ⟨hres, p, hp, hcommitted⟩
    obtain hno | ⟨q, hq, hreserved⟩ := hno
    · exact hno p hp hcommitted
    · exact hres q hq hreserved
  rw [readoutDone_eq hst hx, h.readoutStored_known he hc, readoutRaw_keeps (s := s.sampled x.shot samples) he hunfinished]
  rfl

/-- The readout of a shot that is freed at its retagging to Raw (R68, R88). -/
theorem ringOk.readoutDone_frees (h : s.ringOk) (hst : s.capture.state = .reading) (hx : s.capture.exposure = some x)
    (hr : s.slot? x.shot = some r) (he : s.entry? x.shot = some e) (hc : s.settings.syncMode = .follow → e.agreedClose ≠ none)
    (hf : e.finished = true) : (s.rawTile x.shot samples).freedAs x.shot ((s.rawTile x.shot samples).freeSlot x.shot) ∧
      s.readoutDone samples = ((((s.rawTile x.shot samples).freeSlot x.shot).readoutOver x.shot).tryStartJob).sleepTest := by
  have hraw := readoutRaw_frees (s := s.sampled x.shot samples) he hr hf
  have hfreed := ((h.rawTile x.shot samples).freeSlot he).freedAs he
  have ⟨_, hnone, _⟩ := hfreed
  refine ⟨hfreed, ?_⟩
  rw [readoutDone_eq hst hx, h.readoutStored_known he hc, hraw]
  exact congrArg sleepTest (readoutTold_freed (s := (s.rawTile x.shot samples).freeSlot x.shot) hnone)

/-- The readout of a shot that needs no dark frame, or has one that fits. -/
theorem readoutTold_over {k : DarkStatus} (hr : u.slot? n = some r) (hk : u.decideDark n = k) (hnot : k ≠ .awaiting) (hok : u.ringOk)
    (htag : r.tag = .raw) : ∃ q, (u.readoutTold n).slot? n = some q ∧ q = { r with tag := q.tag, dark := some k } ∧
      (q.tag = .raw ∨ q.tag = .developing) ∧
      u.readoutTold n = { u with
        capture := (u.readoutOver n).capture, link := (u.readoutOver n).link
        ring := { u.ring with slots := (u.readoutTold n).ring.slots }, develop := (u.readoutTold n).develop } := by
  have hslot : ((u.updSlot n fun x => { x with dark := some k }).readoutOver n).slot? n = some { r with dark := some k } := by
    refine (updSlot_slot? n n (fun x => { x with dark := some k }) u fun _ => by rfl).trans ?_
    rw [hr, Option.map_some, if_pos rfl]
  have hok' : ((u.updSlot n fun x => { x with dark := some k }).readoutOver n).ringOk :=
    hok.congr (updSlot_shots u n (fun x => { x with dark := some k }) fun _ => by rfl)
  obtain ⟨q, hq, hstarted⟩ := hok'.tryStartJob_slot? hslot
  rw [readoutTold_settled hr hk hnot]
  refine ⟨q, hq, hstarted.same, hstarted.raw htag, ?_⟩
  exact tryStartJob_eq _

/-- The readout of a shot that awaits a dark frame: a dark capture begins (R99). -/
theorem readoutTold_dark (he : u.entry? n = some e) (hd : e.agreedDuration = some d) (hr : u.slot? n = some r)
    (hk : u.decideDark n = .awaiting) (hpos : 0 < d) :
    (u.readoutTold n).slot? n = some { r with dark := some .awaiting } ∧ u.readoutTold n = { u with
      capture := { u.capture with state := .darkExposing }
      dark := { u.dark with
        valid := false
        capture := some { phase := .exposing, shot := n, duration := cappedDark d, captureEnd := none, scanned := 0 } }
      clock := { u.clock with timers := { u.clock.timers with
        dark := { u.clock.timers.dark with request := .load ((cappedDark d + 9) / 10) } } }
      link := u.linkAfter 15#4 (.readDone n .regular true)
      ring := { u.ring with slots := (u.readoutTold n).ring.slots }, develop := (u.readoutTold n).develop } := by
  have hcapped : 1 ≤ cappedDark d := by
    unfold cappedDark Config.darkCap
    omega
  have hmarked : (u.updSlot n fun x => { x with dark := some .awaiting }).slot? n = some { r with dark := some .awaiting } := by
    rw [updSlot_slot? _ _ _ _ fun _ => by rfl, hr, Option.map_some, if_pos rfl]
  have hslot : ((u.updSlot n fun x => { x with dark := some .awaiting }).startDark n (cappedDark d)).slot? n =
      some { r with dark := some .awaiting } := by
    rw [startDark_slot?, invalidateDark_slot?, hmarked, Option.map_some]
    obtain ⟨hsame, -, hother⟩ := loseDark_dark (State.develop (u.updSlot n fun x => { x with dark := some .awaiting }) |>.job.any
      (·.phase == .base)) { r with dark := some .awaiting }
    rw [hother (by simp)] at hsame
    rw [hsame]
  have hstart := startDark_eq n (cappedDark d) hcapped (u.updSlot n fun x => { x with dark := some .awaiting })
  rw [readoutTold_awaiting he hd hr hk]
  refine ⟨tryStartJob_awaits hslot rfl, (tryStartJob_eq _).trans ?_⟩
  rw [hstart]
  rfl

end State

open State in
/-- Settles O31: the port by the capture state, and the completion step by step. -/
theorem readoutCompletes : Obligations.ReadoutCompletes := by
  refine ⟨fun s => ⟨fun h => ?_, fun h => ?_, fun x e hok hx he => ⟨fun h => ?_, fun h => ?_⟩, fun h => ?_, fun k h hk hp => ?_,
    fun samples hcalm hport => ?_, fun samples hcalm hport => ?_⟩,
    fun samples x r e s hcalm hok hst hx hr he => ⟨fun E hmode hc hE => ?_, fun hc hres hcom => ?_⟩,
    fun samples x r e d s hcalm hok hst hx hr he hd hc hno ht => ⟨fun hfits => ?_, fun hneeds hfit hpos => ?_⟩⟩
  · obtain h | h := h <;> simp [port, h]
  · simp [port, h]
  · simp [port, h, hok.portArea hx he]
  · simp [port, h, hok.portArea hx he]
  · simp [port, h]
  · simp [port, h, hk, hp]
  · rw [exec_readoutComplete hcalm, readoutDone_unasked hport]
  · exact (event_of_calm _ s hcalm).trans (congrArg _ (if_neg hport))
  · have hclosed : e.closeAt E = { e with
        agreedClose := some E
        agreedDuration := match e.agreedOpen with
          | some o => some ((E.toNat : Int) - o.toNat)
          | none => e.agreedDuration } := by
      rw [Entry.closeAt_eq, hc]
      cases e.agreedOpen <;> rfl
    have hsupplied := hok.readout_supplied (samples := samples) he hr hmode hE
    rw [hclosed] at hsupplied
    rw [exec_readoutComplete hcalm, readoutDone_eq hst hx, ← hsupplied]
    exact ((exec_readoutComplete (s := s.updEntry x.shot fun _ => _) hcalm).trans (congrArg _ (readoutDone_eq hst hx))).symm
  · obtain ⟨hfreed, hdone⟩ := hok.readoutDone_frees (samples := samples) hst hx hr he hc ((finished_iff e).mpr ⟨hres, hcom⟩)
    obtain ⟨hentry, hslot, htop, hnext, -, -, -, hmember, hcapture, hdark, hsync, hpower⟩ := hfreed
    refine ⟨_, ((s.rawTile x.shot samples).freeSlot x.shot).link, (exec_readoutComplete hcalm).trans (congrArg _ hdone),
      tryStartJob_slot?_none hslot, (tryStartJob_entry? _ _).trans hentry, ?_, ?_, (tryStartJob_top _).trans htop, ?_, ?_, ?_, ?_, ?_⟩
    · rw [tryStartJob_eq]
      unfold readoutOver
      rw [hcapture]
      rfl
    · rw [tryStartJob_eq]
      unfold readoutOver linkAfter
      rw [hmember]
      rfl
    · rw [tryStartJob_eq]
      exact hnext
    · rw [tryStartJob_eq]
      exact hmember
    · rw [tryStartJob_eq]
      exact hsync
    · rw [tryStartJob_eq]
      exact hdark
    · rw [tryStartJob_eq]
      exact hpower
  · have hdecided := decideDark_eq (s := s.rawTile x.shot samples) he hd
    have hstatus : (s.rawTile x.shot samples).decideDark x.shot = if needsDark s.settings d then .used else .notNeeded := by
      refine hdecided.trans ?_
      change (if !needsDark s.settings d then _ else if s.darkFits d then _ else _) = _
      obtain hfits | hfits := hfits
      · rw [hfits]
        rfl
      · rw [hfits]
        cases needsDark s.settings d <;> rfl
    have hnot : (if needsDark s.settings d then DarkStatus.used else .notNeeded) ≠ .awaiting := by
      split <;> decide
    obtain ⟨q, hq, hsame, htag, hframe⟩ := readoutTold_over (rawTile_slot? hr samples) hstatus hnot (hok.rawTile x.shot samples) rfl
    refine ⟨_, q, (exec_readoutComplete hcalm).trans (congrArg _ (hok.readoutDone_keeps hst hx he hc hno)), hq, hsame, htag, ?_, ?_, ?_,
      ?_, ?_⟩
    · rw [hframe]
      exact rawTile_raw x.shot samples s
    all_goals rw [hframe]
    all_goals rfl
  · have hstatus : (s.rawTile x.shot samples).decideDark x.shot = .awaiting := by
      refine (decideDark_eq (s := s.rawTile x.shot samples) he hd).trans ?_
      change (if !needsDark s.settings d then _ else if s.darkFits d then _ else _) = _
      rw [hneeds, hfit]
      rfl
    obtain ⟨hslot, hframe⟩ := readoutTold_dark (u := s.rawTile x.shot samples) he hd (rawTile_slot? hr samples) hstatus hpos
    refine ⟨_, _, (exec_readoutComplete hcalm).trans (congrArg _ (hok.readoutDone_keeps hst hx he hc hno)), hslot, rfl, ?_, ?_, ?_, ?_, ?_, ?_⟩
    all_goals rw [hframe]
    all_goals rfl

end Sys2Proof.Machine
end

section
/-! PROOF. Reservations: the table of R144, at admission, in Overflow and at re-placement (R79, R144-R148). -/

namespace Sys2Proof.Machine

namespace State

variable {s u t : State} {n : Shot} {k : Socket} {e : Entry} {p : Part} {r : Roll} {reason : PlaceReason} {source : Node}

/-! ## The table (R144) -/

theorem tryReserve_announces {q : Placed} (hk : s.card.letter = some k) (hq : s.card.placed? e.shot = some q) :
    s.tryReserve e = { s with
      link := s.linkAfter 15#4 (.place e.shot k (.reserved (BitVec.ofNat 16 q.frameNo) (BitVec.ofNat 32 q.firstBlock))) } := by
  unfold tryReserve
  rw [hk]
  dsimp only
  rw [hq]
  rfl

theorem reservation_ok (hs : s.card.state = .ready) (hr : s.card.roll = some r) (hi : r.index ≠ 1024)
    (hb : r.write + shotExtent s.settings e.members.length ≤ r.blocks) : s.reservation e = .ok r := by
  have hi' : ¬r.index = Config.indexCapacity := hi
  unfold reservation
  rw [hs, hr]
  dsimp only
  rw [if_neg hi', if_neg (Nat.not_lt.mpr hb)]

theorem tryReserve_reserves (hk : s.card.letter = some k) (hq : s.card.placed? e.shot = none) (hres : s.reservation e = .ok r) :
    s.tryReserve e = (s.onCard (Card.reserve e r (shotExtent s.settings e.members.length))).announce e.shot k (r.index + 1) r.write := by
  unfold tryReserve
  rw [hk]
  dsimp only
  rw [hq, hres]

theorem tryReserve_refuses (hk : s.card.letter = some k) (hq : s.card.placed? e.shot = none) (hres : s.reservation e = .error reason) :
    s.tryReserve e = (s.doIf (reason == .full || reason == .indexFull) (raise (.cardFull e.shot (some k) reason))).broadcast
      (.place e.shot k (.refused reason)) := by
  unfold tryReserve
  rw [hk]
  dsimp only
  rw [hq, hres]

theorem reservation_full (hs : s.card.state = .ready) (hr : s.card.roll = some r)
    (h : r.index = 1024 ∧ reason = .indexFull ∨
      r.index ≠ 1024 ∧ r.blocks < r.write + shotExtent s.settings e.members.length ∧ reason = .full) : s.reservation e = .error reason := by
  unfold reservation
  rw [hs, hr]
  dsimp only
  obtain ⟨hi, hreason⟩ | ⟨hi, hb, hreason⟩ := h
  · rw [if_pos (show r.index = Config.indexCapacity from hi), hreason]
  · rw [if_neg (show ¬r.index = Config.indexCapacity from hi), if_pos hb, hreason]

theorem reservation_unready (h : (s.card.state = .empty ∨ s.card.state = .unformatted ∨ s.card.state = .released ∨ s.card.state = .failed) ∧
      reason = .noCard ∨ (s.card.state = .mounting ∨ s.card.state = .formatting) ∧ reason = .mounting ∨
      s.card.state = .ejecting ∧ reason = .ejecting) : s.reservation e = .error reason := by
  unfold reservation
  obtain ⟨hs | hs | hs | hs, hr⟩ | ⟨hs | hs, hr⟩ | ⟨hs, hr⟩ := h
  all_goals rw [hs, hr]

theorem unready_untold (h : (s.card.state = .empty ∨ s.card.state = .unformatted ∨ s.card.state = .released ∨ s.card.state = .failed) ∧
      reason = .noCard ∨ (s.card.state = .mounting ∨ s.card.state = .formatting) ∧ reason = .mounting ∨
      s.card.state = .ejecting ∧ reason = .ejecting) : (reason == .full || reason == .indexFull) = false := by
  obtain ⟨-, hr⟩ | ⟨-, hr⟩ | ⟨-, hr⟩ := h
  all_goals rw [hr]; rfl

/-! ## Admission (R79, R145) -/

/-- An admitted shot is placed as its roster entry is, at the link that the trigger leaves. -/
theorem reservedFor_begun (n : Shot) (he : e.shot = n) (hm : e.members = s.memberNumbers) (hu : u = { s with link := s.linkAtTrigger }) :
    (s.placesAtAdmission → ((s.begun n).reservedFor n).card = (u.tryReserve e).card ∧
      ((s.begun n).reservedFor n).notices = (u.tryReserve e).notices ∧ ((s.begun n).reservedFor n).link = (u.tryReserve e).link) ∧
    (¬s.placesAtAdmission → ((s.begun n).reservedFor n).card = s.card ∧ ((s.begun n).reservedFor n).notices = s.notices ∧
      ((s.begun n).reservedFor n).link = s.linkAtTrigger) := by
  have hagree := reservedFor_agree (s := s.begun n) (u := u) n (by rw [hu]; rfl) (by rw [hu]; rfl) (by rw [hu]; rfl) (by rw [hu]; rfl)
    (by rw [hu]; rfl)
  have hplaces : u.placesAtAdmission ↔ s.placesAtAdmission := by
    rw [hu]
    exact Iff.rfl
  have hentry : u.tryReserve (u.entryAdmitted n) = u.tryReserve e := tryReserve_congr he.symm (by rw [hm, hu]; rfl) u
  refine ⟨fun h => ?_, fun h => ?_⟩
  · have hreserved : u.reservedFor n = u.tryReserve e := (if_pos (hplaces.mpr h)).trans hentry
    rw [hagree, hreserved]
    exact ⟨rfl, rfl, rfl⟩
  · have hreserved : u.reservedFor n = u := if_neg (hplaces.not.mpr h)
    rw [hagree, hreserved, hu]
    exact ⟨rfl, rfl, rfl⟩

/-! ## Overflow (R146) -/

/-- In Overflow the unmirrored flag stands, so that the entry is the one with its socket left. -/
theorem unplaceAt_overflow (hp : e.part .a = some p) (hmode : s.settings.storageMode = .overflow) :
    ((e.unplaceAt s.settings.storageMode .a).updPart .a fun q => { q with transfer := .idle, grants := 0 }) =
      e.updPart .a fun q =>
        { q with placement := if q.placement = .reserved then .void else q.placement, transfer := .idle, grants := 0 } := by
  by_cases hr : p.placement = .reserved
  · rw [Entry.unplaceAt_reserved hp hr, Entry.settleUnmirrored_stands (.inl (by rw [hmode]; decide)), Entry.updPart_updPart]
    exact Entry.updPart_congr hp (by simp [hr])
  · rw [Entry.unplaceAt_stays hp hr]
    exact Entry.updPart_congr hp (by simp [hr])

/-- Where socket B takes a shot over, the Unplace of socket A frees nothing. -/
theorem overflowsTo.stays {x : Slot} (h : s.overflowsTo source e) (hp : e.part .a = some p) (mode : StorageMode) :
    (p.placement == .reserved) = false ∨ (e.unplaceAt mode .a).finished = false ∨ x.tag.settled = false := by
  by_cases hr : p.placement = .reserved
  · refine .inr (.inl ?_)
    obtain ⟨-, -, -, -, -, hb⟩ := h
    rw [Bool.eq_false_iff, ne_eq, Entry.unplaceAt_finished hp hr]
    rintro ⟨-, k', q, hk', hq, hc⟩
    obtain rfl : k' = .b := Socket.ne_iff.mp hk'
    exact hb (by rw [Entry.placement?_of_part hq, hc])
  · exact .inl (by simpa using hr)

/-! ## Re-placement (R147) -/

theorem placesAgain_eq (mode : StorageMode) (k : Socket) (e : Entry) : (e.wanted mode k && e.unplaced k) = placesAgain mode k e := by
  rw [Bool.eq_iff_iff, Bool.and_eq_true, Entry.unplaced_iff, placesAgain, decide_eq_true_iff]
  have hwanted : e.wanted mode k = true ↔ mode = .mirror ∨ (mode = .single ∧ k = .a) ∨
      (mode = .overflow ∧ k = .a ∧ e.placement? .b ≠ some .reserved ∧ e.placement? .b ≠ some .committed) ∨
      (mode = .overflow ∧ k = .b ∧ (e.placement? .a = some .refused ∨ e.placement? .a = some .void)) := by
    have hgone : (e.placement? .a).any Placement.gone = true ↔ e.placement? .a = some .refused ∨ e.placement? .a = some .void := by
      cases e.placement? .a with
      | none => simp
      | some q => cases q <;> simp [Placement.gone]
    cases mode <;> cases k <;> simp [Entry.wanted, Entry.unplaced_iff, hgone]
  rw [hwanted]
  tauto

theorem rePlace_tries (hk : s.card.letter = some k) (hc : s.card.state = .ready) (hm : s.member.state = .ready) : s.rePlace =
    (s.ring.roster.filter (placesAgain s.settings.storageMode k)).foldl (fun t e => t.tryReserve e) s := by
  have hyes : (s.card.state == .ready && s.member.state == .ready) = true := by rw [hc, hm]; rfl
  have hfilter : (fun e : Entry => e.wanted s.settings.storageMode k && e.unplaced k) = placesAgain s.settings.storageMode k :=
    funext fun e => placesAgain_eq _ k e
  unfold rePlace
  rw [hk]
  dsimp only
  rw [if_pos hyes, hfilter]

theorem rePlace_waits (h : s.card.letter = none ∨ s.card.state ≠ .ready ∨ s.member.state ≠ .ready) : s.rePlace = s := by
  unfold rePlace
  split
  · rfl
  next k hk =>
    refine if_neg ?_
    rw [Bool.and_eq_true, beq_iff_eq, beq_iff_eq]
    rintro ⟨hc, hm⟩
    obtain h | h | h := h
    · exact Option.some_ne_none k (hk.symm.trans h)
    · exact h hc
    · exact h hm

/-- Reservations look at membership, link, card and notices alone. -/
theorem reserveAll_agree (es : List Entry) (hm : s.member = u.member) (hl : s.link = u.link) (hc : s.card = u.card) (hn : s.notices = u.notices) :
    (es.foldl (fun t e => t.tryReserve e) s).card = (es.foldl (fun t e => t.tryReserve e) u).card := by
  induction es generalizing s u with
  | nil => exact hc
  | cons e es ih =>
    have hagree := tryReserve_agree e hm hl hc hn
    have hmember : (s.tryReserve e).member = (u.tryReserve e).member := by simpa using hm
    exact ih (s := s.tryReserve e) (u := u.tryReserve e) hmember (by rw [hagree]) (by rw [hagree]) (by rw [hagree])

theorem rePlace_agree (hm : s.member = u.member) (hl : s.link = u.link) (hc : s.card = u.card) (hn : s.notices = u.notices)
    (hr : s.ring.roster = u.ring.roster) : s.rePlace.card = u.rePlace.card := by
  unfold rePlace settings
  rw [hc, hm, hr]
  split
  · exact hc
  · split
    · exact reserveAll_agree _ hm hl hc hn
    · exact hc

theorem mountDone_ready {m : Medium} (h : s.card.state = .mounting) (hm : s.card.medium = some m) (ho : s.mountOutcome m = (.ready, some r)) :
    s.mountDone = State.rePlace { s with
      card := { s.card with state := .ready, roll := some r }
      notices := s.notices.raise (.cardState s.card.letter .ready r.identity (BitVec.ofNat 16 r.index) (BitVec.ofNat 32 r.write)) } := by
  unfold mountDone
  rw [hm]
  dsimp only
  rw [if_pos h, ho]
  rfl

theorem formatDone_ready {m : Medium} (h : s.card.state = .formatting) (hm : s.card.medium = some m) (hr : s.card.roll = some r) :
    s.formatDone = State.rePlace { s with
      card := { s.card with state := .ready, medium := some { m with bytes := formatBytes r.identity r.blocks m.bytes } }
      notices := s.notices.raise (.cardState s.card.letter .ready r.identity (BitVec.ofNat 16 r.index) (BitVec.ofNat 32 r.write)) } := by
  unfold formatDone
  rw [hm, hr]
  dsimp only
  rw [if_pos h]
  unfold changeCard raiseCardState Card.reported onCard
  dsimp only
  rw [← hr]
  rfl

end State

open State in
/-- Settles O37: the table of R144, and where each of R145-R147 tries a reservation. -/
theorem reservationFollowsTheTable : Obligations.ReservationFollowsTheTable := by
  refine ⟨fun e k s hk => ⟨fun q hq => tryReserve_announces hk hq, fun hq => ⟨fun r hs hr hi hb => ?_, fun r reason hs hr h => ?_,
      fun reason h => ?_⟩⟩,
    fun e s u hu hcalm ha hno hlim hshut hfree hmem => ⟨fun source n time hf hn hlast hok he => ?_, fun c hm hr hlast he => ?_⟩,
    fun source n e s ht hcalm hok he hover => ⟨fun reason => ?_, fun reason p hp => ?_⟩,
    fun source n k e reason s ht hcalm hok he h => ?_,
    fun s => ⟨fun k hk hc hm => rePlace_tries hk hc hm, rePlace_waits, fun m hcalm hst hm hroll hlabel hblank => ?_,
      fun m i last hcalm hst hm hroll hlabel hgood hlast hk hblank => ?_, fun m r hcalm hst hm hr => ?_, fun h hcalm hp hst hpass => ?_⟩⟩
  · rw [tryReserve_reserves hk hq (reservation_ok hs hr hi hb)]
    rfl
  · rw [tryReserve_refuses hk hq (reservation_full hs hr h)]
    obtain ⟨-, rfl⟩ | ⟨-, -, rfl⟩ := h <;> rfl
  · rw [tryReserve_refuses hk hq (reservation_unready h), unready_untold h]
    rfl
  · obtain ⟨hplaced, hnot⟩ := reservedFor_begun n he hmem hu
    exact ⟨_, exec_openTaken_admitted hf hcalm hn ⟨ha, hlast, hfree, hlim, hshut⟩ hno hok, hplaced, hnot⟩
  · have hexec := exec_syncClosingEdge_triggers hm hcalm hr (by simp [ha]) (by simp [ha]) (by simp [ha])
    rw [trigger_admits (s := { s with sync := s.sync.accept s.settings.syncPolarity.closedLevel }) ⟨ha, hlast, hfree, hlim, hshut⟩
      (by exact hno)] at hexec
    obtain ⟨hplaced, hnot⟩ := reservedFor_begun s.ring.next he hmem hu
    have hsame := reservedFor_agree (s := begun s.ring.next { s with sync := s.sync.accept s.settings.syncPolarity.closedLevel })
      (u := s.begun s.ring.next) s.ring.next rfl rfl rfl rfl rfl
    refine ⟨_, hexec, fun hp => ?_, fun hp => ?_⟩
    · obtain ⟨hcard, hnotices, hlink⟩ := hplaced hp
      rw [← hcard, ← hnotices, ← hlink]
      unfold admitted
      rw [hsame]
      exact ⟨rfl, rfl, rfl⟩
    · obtain ⟨hcard, hnotices, hlink⟩ := hnot hp
      unfold admitted
      rw [hsame, hcard, hnotices, hlink]
      exact ⟨rfl, rfl, rfl⟩
  · rw [exec_placeTaken ht hcalm, blocksPlace_takes he hover]
    exact ⟨_, chooseTile_chosen _ (ringPlace_nodup _ hok), rfl⟩
  · obtain ⟨x, hx⟩ : ∃ x, s.slot? n = some x := by
      have hsome := hok.slot?_isSome n
      rw [he] at hsome
      exact Option.isSome_iff_exists.mp hsome
    have h : s.Concerns n .a e p x := ⟨hok, he, hp, hx⟩
    have hstay := hover.stays (x := x) hp s.settings.storageMode
    have hleft := h.leaves (unplaceAt_keepsPlace s.settings.storageMode .a) hstay .idle
    have ⟨_, _, hmode, _⟩ := hover
    rw [unplaceAt_overflow hp hmode] at hleft
    refine ⟨s.unplaced n .a p, ?_, hleft⟩
    rw [exec_unplaceTaken ht hcalm, h.blocksUnplace, h.unplaced_takes hstay hover]
  · rw [exec_placeTaken ht hcalm, blocksPlace_stays fun f hf => ?_]
    · exact ⟨_, chooseTile_chosen _ (ringPlace_nodup _ hok), rfl⟩
    · rintro ⟨hk, -, hto⟩
      cases he.symm.trans hf
      obtain hb | hnot := h
      · exact nomatch hk.symm.trans hb
      · exact hnot hto
  · obtain ⟨hnofault, hstop, hcursor⟩ := scanIndex_blank (limit := (cardLabel m.bytes).2.2.2) hblank
    have hout := mountOutcome_labelled (s := s) hroll hlabel
    rw [hnofault, hstop, hcursor] at hout
    exact (exec_mountComplete hcalm).trans (congrArg _ (mountDone_ready hst hm hout))
  · have hnofault : (scanIndex (cardLabel m.bytes).2.2.2 0 (cardIndex m.bytes) {}).fault = false := by
      rw [← Bool.not_eq_true, scanIndex_fault]
      exact fun ⟨j, hj⟩ => hgood j hj
    obtain ⟨hstop, hcursor⟩ := scanIndex_last (limit := (cardLabel m.bytes).2.2.2) hlast hk hblank
    have hout := mountOutcome_labelled (s := s) hroll hlabel
    rw [hnofault, hstop, hcursor] at hout
    exact (exec_mountComplete hcalm).trans (congrArg _ (mountDone_ready hst hm hout))
  · exact ⟨_, (exec_formatComplete hcalm).trans (congrArg _ (formatDone_ready hst hm hr))⟩
  · have hact : actBegin s = (State.enterReady ((s.onMember Membership.begin).onCapture fun c => { c with state := .disarmed }), .done) := by
      rw [actBegin, beginFailure_none hpass]
    have hexec := event_configuring (h := h) (code := 0x02#8) hact (.inr rfl) hcalm hp hst
    refine ⟨_, hexec, ?_⟩
    have hcard : ∀ v : State, v.enterReady.card = v.rePlace.card := fun v => by simp [enterReady]
    have hmember : ∀ v : State, v.enterReady.member = v.member := fun v => by simp
    refine (hcard _).trans (rePlace_agree ?_ rfl rfl rfl rfl)
    exact (hmember ((s.onMember Membership.begin).onCapture fun c => { c with state := .disarmed })).symm

end Sys2Proof.Machine
end

section
/-! PROOF. Shots freed while every block is restarting (R89, R93, R149). -/

namespace Sys2Proof.Machine

/-! ## Writes that leave the queue -/

theorem mem_cancelWrites_of_not {p : Write → Bool} {l : List Write} {w : Write} (hw : w ∈ l) (hp : p w = false) : w ∈ cancelWrites p l := by
  cases l with
  | nil => exact hw
  | cons h rest =>
    obtain rfl | hw := List.mem_cons.mp hw
    · rw [cancelWrites, hp]
      exact List.mem_cons_self
    · exact List.mem_cons_of_mem _ (List.mem_filter.mpr ⟨hw, by rw [hp]; rfl⟩)

/-- What stands in a queue once writes have left it stood there, or is a write that the card has begun and now ends cancelled. -/
theorem of_mem_cancelWrites {p : Write → Bool} {l : List Write} {w : Write} (hw : w ∈ cancelWrites p l) :
    (w ∈ l ∧ p w = false) ∨ (w.cancelled = true ∧ ∃ v ∈ l, w = { v with cancelled := true }) := by
  cases l with
  | nil => exact nomatch hw
  | cons h rest =>
    obtain rfl | hw := List.mem_cons.mp hw
    · cases hp : p h with
      | true => exact .inr ⟨rfl, h, List.mem_cons_self, rfl⟩
      | false => exact .inl ⟨List.mem_cons_self, hp⟩
    · obtain ⟨hw, hp⟩ := List.mem_filter.mp hw
      exact .inl ⟨List.mem_cons_of_mem _ hw, by simpa using hp⟩

/-- Every queued block write ends without its bytes (R150). -/
def Card.blocksCancelled (c : Card) : Prop := ∀ w ∈ c.writes, w.kind = .block → w.cancelled = true

/-- A card once the placement of a freed entry has been voided, with no claim waiting and no grant made (R149). -/
def Card.voidOf (e : Entry) (c : Card) : Card :=
  match c.placed? e.shot with
  | none => c
  | some p => { c with
      placements := c.placements.eraseP (·.shot == e.shot)
      writes := cancelWrites (Write.ofPlaced p) c.writes ++ [p.voidRecord p.closeFlags e] }

namespace Card

variable {c : Card} {e : Entry} {p : Placed}

theorem voidOf_none (h : c.placed? e.shot = none) : c.voidOf e = c := by
  rw [voidOf, h]

theorem voidOf_some (h : c.placed? e.shot = some p) : c.voidOf e = { c with
    placements := c.placements.eraseP (·.shot == e.shot)
    writes := cancelWrites (Write.ofPlaced p) c.writes ++ [p.voidRecord p.closeFlags e] } := by
  rw [voidOf, h]

theorem voidOf_same (e : Entry) (c : Card) :
    c.voidOf e = { c with placements := (c.voidOf e).placements, writes := (c.voidOf e).writes } := by
  unfold voidOf
  split <;> rfl

theorem voidOf_placements (e : Entry) (c : Card) : (c.voidOf e).placements = c.placements.eraseP (·.shot == e.shot) := by
  cases hp : c.placed? e.shot with
  | none =>
    rw [voidOf_none hp, List.eraseP_of_forall_not]
    exact List.find?_eq_none.mp hp
  | some p => rw [voidOf_some hp]

theorem voidOf_keeps {w : Write} (hw : w ∈ c.writes) (h : w.shot ≠ e.shot ∨ w.kind = .void) : w ∈ (c.voidOf e).writes := by
  cases hp : c.placed? e.shot with
  | none => rwa [voidOf_none hp]
  | some p =>
    have hshot : p.shot = e.shot := by simpa using List.find?_some hp
    have hno : Write.ofPlaced p w = false := by
      obtain h | h := h <;> simp [Write.ofPlaced, hshot, h]
    rw [voidOf_some hp]
    exact List.mem_append_left _ (mem_cancelWrites_of_not hw hno)

theorem voidOf_voids (hp : c.placed? e.shot = some p) : p.voidRecord p.closeFlags e ∈ (c.voidOf e).writes := by
  rw [voidOf_some hp]
  exact List.mem_append_right _ (List.mem_singleton_self _)

theorem blocksCancelled.voidOf (h : c.blocksCancelled) (e : Entry) : (c.voidOf e).blocksCancelled := by
  cases hp : c.placed? e.shot with
  | none => rwa [voidOf_none hp]
  | some p =>
    rw [voidOf_some hp]
    intro w hw hblock
    obtain hw | hw := List.mem_append.mp hw
    · obtain ⟨hw, -⟩ | ⟨hc, -⟩ := of_mem_cancelWrites hw
      · exact h w hw hblock
      · exact hc
    · rw [List.mem_singleton.mp hw] at hblock
      cases hblock

theorem find?_eraseP_shot {m n : Shot} (hm : m ≠ n) (l : List Placed) :
    (l.eraseP (·.shot == n)).find? (·.shot == m) = l.find? (·.shot == m) := by
  induction l with
  | nil => rfl
  | cons p ps ih =>
    by_cases hn : p.shot = n
    · have hne : n ≠ m := fun h => hm h.symm
      rw [List.eraseP_cons_of_pos (by simp [hn]), List.find?_cons_of_neg (by simp [hn, hne])]
    · rw [List.eraseP_cons_of_neg (by simp [hn]), List.find?_cons, List.find?_cons, ih]

/-- In a list with one placement of each shot, what is left when a shot's is taken out. -/
theorem eraseP_shot {n : Shot} {l : List Placed} (hl : (l.map (·.shot)).Nodup) :
    l.eraseP (·.shot == n) = l.filter (·.shot != n) := by
  induction l with
  | nil => rfl
  | cons p ps ih =>
    obtain ⟨hp, hps⟩ := List.nodup_cons.mp hl
    by_cases hn : p.shot = n
    · rw [List.eraseP_cons_of_pos (by simp [hn]), List.filter_cons_of_neg (by simp [hn]), List.filter_eq_self.mpr fun q hq => ?_]
      have hne : q.shot ≠ n := fun h => hp (List.mem_map.mpr ⟨q, hq, h.trans hn.symm⟩)
      simpa using hne
    · rw [List.eraseP_cons_of_neg (by simp [hn]), List.filter_cons_of_pos (by simp [hn]), ih hps]

end Card

/-! ## One shot freed -/

namespace State

/-- A station outside Ready in which no block has anything in hand, as every block's Restart handling leaves it. -/
structure Cleared (s : State) : Prop where
  notReady : s.member.state ≠ .ready
  job : s.develop.job = none
  owed : s.develop.owed = []
  store : s.develop.store = []
  current : s.transfer.current = none
  bulk : s.link.bulk = none
  grants : s.card.grants = []
  waiting : s.card.waiting = []

/-- The shots of a list that the freeing of the list frees: those of the roster. -/
def frees (ns : List Shot) (s : State) (m : Shot) : Bool := ns.contains m && (s.entry? m).isSome

/-- What the freeing of some shots leaves of a cleared station. -/
structure Left (ns : List Shot) (s t : State) : Prop where
  same : t = { s with
    ring := { s.ring with slots := t.ring.slots, roster := t.ring.roster }
    card := { s.card with placements := t.card.placements, writes := t.card.writes } }
  slots : t.ring.slots = s.ring.slots.map (Option.filter fun x => !s.frees ns x.shot)
  entry? : ∀ m, t.entry? m = if m ∈ ns then none else s.entry? m
  placed? : ∀ m, m ∉ ns → t.card.placed? m = s.card.placed? m
  placements : (s.card.placements.map (·.shot)).Nodup →
    t.card.placements = s.card.placements.filter fun p => !s.frees ns p.shot
  kept : ∀ w ∈ s.card.writes, w.shot ∉ ns ∨ w.kind = .void → w ∈ t.card.writes
  cancelled : s.card.blocksCancelled → t.card.blocksCancelled
  voids : ∀ (n : Shot) (e : Entry) (p : Placed), n ∈ ns → s.entry? n = some e → s.card.placed? n = some p →
    p.voidRecord p.closeFlags e ∈ t.card.writes

variable {s t u : State} {n m : Shot} {ns ms : List Shot} {e : Entry}

theorem voidPlacement_unclaimed (hg : s.card.grants = []) (hw : s.card.waiting = []) :
    s.voidPlacement e = { s with card := s.card.voidOf e } := by
  cases hp : s.card.placed? e.shot with
  | none => rw [Card.voidOf_none hp, voidPlacement_unplaced rfl hp]
  | some p =>
    have hshot : p.shot = e.shot := by simpa using List.find?_some hp
    rw [voidPlacement_eq e p s hp hw, Card.voidOf_some hp]
    simp only [onCard, Card.dropPlaced, Card.dropGrants, hg, hw, hshot, List.filter_nil]
    rfl

theorem Cleared.freeSlot (h : s.Cleared) (he : s.entry? n = some e) :
    s.freeSlot n = { s with ring := Ring.remove n s.ring, card := s.card.voidOf e } := by
  have hdevelop : { s.develop with owed := s.develop.owed.filter (·.1 != n), store := s.develop.store.filter (·.shot != n) } = s.develop := by
    have ho := h.owed
    have hs := h.store
    cases hd : s.develop with
    | mk => rw [hd] at ho hs; subst ho hs; rfl
  rw [freeSlot_restarting n e s he h.notReady h.job h.current h.bulk, hdevelop]
  exact voidPlacement_unclaimed (s := { s with ring := Ring.remove n s.ring }) h.grants h.waiting

theorem Cleared.left_one (h : s.Cleared) (n : Shot) : s.Left [n] (s.freeSlot n) := by
  cases he : s.entry? n with
  | none =>
    have hno : s.frees [n] = fun _ => false := by
      funext m
      by_cases hm : m = n
      · simp [frees, hm, he]
      · simp [frees, hm]
    rw [freeSlot_none he]
    refine ⟨rfl, ?_, fun m => ?_, fun _ _ => rfl, fun _ => ?_, fun w hw _ => hw, id, fun m e p hm hsome => ?_⟩
    · rw [hno]
      exact ((List.map_congr_left fun o _ => by cases o <;> rfl).trans (List.map_id _)).symm
    · by_cases hm : m = n
      · simp [hm, he]
      · simp [hm]
    · rw [hno]
      simp
    · rw [List.mem_singleton.mp hm, he] at hsome
      cases hsome
  | some e =>
    have hfrees : s.frees [n] = fun m => m == n := by
      funext m
      by_cases hm : m = n
      · simp [frees, hm, he]
      · simp [frees, hm]
    have hshot := entry?_shot he
    rw [h.freeSlot he]
    refine ⟨?_, ?_, fun m => ?_, fun m hm => ?_, fun hnodup => ?_, fun w hw hkeep => ?_, fun hb => hb.voidOf e, fun m e' p hm hsome hp => ?_⟩
    · rw [s.card.voidOf_same e]
      rfl
    · rw [hfrees]
      refine List.map_congr_left fun o _ => ?_
      cases o with
      | none => rfl
      | some x => by_cases hx : x.shot = n <;> simp [Option.filter, hx]
    · rw [entry?_congr (t := { s with ring := Ring.remove n s.ring, card := s.card.voidOf e }) (s := s.onRing (Ring.remove n)) rfl,
        remove_entry?]
      simp
    · change (s.card.voidOf e).placements.find? _ = s.card.placements.find? _
      rw [Card.voidOf_placements, hshot]
      exact Card.find?_eraseP_shot (fun h => hm (List.mem_singleton.mpr h)) _
    · rw [show s.frees [n] = _ from hfrees]
      exact (s.card.voidOf_placements e).trans (by rw [hshot]; exact Card.eraseP_shot hnodup)
    · exact Card.voidOf_keeps hw (hkeep.imp_left fun hne h => hne (by rw [h, hshot]; exact List.mem_singleton_self n))
    · rw [List.mem_singleton.mp hm, he] at hsome
      cases hsome
      rw [List.mem_singleton.mp hm, ← hshot] at hp
      exact Card.voidOf_voids hp

/-! ## Several shots freed -/

theorem Left.cleared (h : s.Left ns t) (hs : s.Cleared) : t.Cleared := by
  rw [h.same]
  exact ⟨hs.notReady, hs.job, hs.owed, hs.store, hs.current, hs.bulk, hs.grants, hs.waiting⟩

/-- A shot that two lists free in turn is one that the two together free. -/
theorem Left.frees (h : s.Left ns t) (ms : List Shot) (m : Shot) :
    State.frees (ns ++ ms) s m = (State.frees ns s m || State.frees ms t m) := by
  by_cases hn : m ∈ ns <;> by_cases hm : m ∈ ms <;> simp [State.frees, h.entry?, hn, hm]

theorem Left.trans (h : s.Left ns t) (h' : t.Left ms u) : s.Left (ns ++ ms) u where
  same := by
    have hsame := h'.same
    rw [h.same] at hsame
    exact hsame
  slots := by
    rw [h'.slots, h.slots, List.map_map]
    refine List.map_congr_left fun o _ => ?_
    rw [Function.comp_apply, Option.filter_filter]
    refine congrArg (fun p => Option.filter p o) (funext fun x => ?_)
    rw [h.frees, Bool.not_or, Bool.and_comm]
  entry? m := by
    rw [h'.entry?, h.entry?]
    by_cases hn : m ∈ ns <;> by_cases hm : m ∈ ms <;> simp [hn, hm]
  placed? m hm := by
    rw [List.mem_append, not_or] at hm
    rw [h'.placed? m hm.2, h.placed? m hm.1]
  placements hnodup := by
    have hfirst := h.placements hnodup
    have hnodup' : (t.card.placements.map (·.shot)).Nodup := by
      rw [hfirst]
      exact hnodup.sublist (List.filter_sublist.map _)
    rw [h'.placements hnodup', hfirst, List.filter_filter]
    refine List.filter_congr fun p _ => ?_
    rw [h.frees, Bool.not_or, Bool.and_comm]
  kept w hw hkeep := by
    refine h'.kept w (h.kept w hw (hkeep.imp_left fun hno hn => hno (List.mem_append_left _ hn))) ?_
    exact hkeep.imp_left fun hno hm => hno (List.mem_append_right _ hm)
  cancelled hb := h'.cancelled (h.cancelled hb)
  voids n e p hn he hp := by
    by_cases hns : n ∈ ns
    · exact h'.kept _ (h.voids n e p hns he hp) (.inr rfl)
    · have hms := (List.mem_append.mp hn).resolve_left hns
      exact h'.voids n e p hms (by rw [h.entry?, if_neg hns, he]) (by rw [h.placed? n hns, hp])

theorem Left.nothing (s : State) : s.Left [] s where
  same := rfl
  slots := ((List.map_congr_left fun o _ => by cases o <;> rfl).trans (List.map_id _)).symm
  entry? _ := rfl
  placed? _ _ := rfl
  placements _ := (List.filter_eq_self.mpr fun _ _ => rfl).symm
  kept _ hw _ := hw
  cancelled := id
  voids _ _ _ hn := nomatch hn

theorem Cleared.left (h : s.Cleared) (ns : List Shot) : s.Left ns (ns.foldl (fun t n => t.freeSlot n) s) := by
  induction ns generalizing s with
  | nil => exact .nothing s
  | cons n ns ih => exact (h.left_one n).trans (ih ((h.left_one n).cleared h))

/-- A shot's slot record, where some slots have been cleared by shot. -/
theorem findSome?_filter_shot (p : Shot → Bool) (m : Shot) (l : List (Option Slot)) :
    (l.map (Option.filter fun x => p x.shot)).findSome? (fun o => o.filter (·.shot == m)) =
      if p m then l.findSome? fun o => o.filter (·.shot == m) else none := by
  induction l with
  | nil => simp
  | cons o os ih =>
    rw [List.map_cons, List.findSome?_cons, List.findSome?_cons, ih]
    cases o with
    | none => rfl
    | some x =>
      by_cases hm : x.shot = m
      · cases hp : p m <;> simp [Option.filter, hm, hp]
      · cases hp : p x.shot <;> simp [Option.filter, hm, hp]

theorem Left.slot? (h : s.Left ns t) (m : Shot) : t.slot? m = if s.frees ns m then none else s.slot? m := by
  unfold State.slot?
  rw [h.slots, findSome?_filter_shot (fun n => !State.frees ns s n)]
  cases State.frees ns s m <;> rfl

end State

end Sys2Proof.Machine
end

section
/-! PROOF. Every block's Restart handling, but for the slots it frees (R31, R73, R93, R132, R150). -/

namespace Sys2Proof.Machine

/-- The slot of the current job's shot is Raw again (R132). -/
def Slot.rawAgain (job : Option Shot) (x : Slot) : Slot :=
  { x with tag := if job = some x.shot ∧ x.tag = .developing then .raw else x.tag }

/-- The shot that an abandoned dark capture served has no dark frame (R105). -/
def Slot.darkless (dark : Option Shot) (x : Slot) : Slot :=
  { x with dark := if dark = some x.shot ∧ x.shot ≠ 0#32 ∧ x.dark = some .awaiting then some .none else x.dark }

/-- A slot record that a Restart keeps. -/
def Slot.begunAgain (job dark : Option Shot) (x : Slot) : Slot := Slot.darkless dark (Slot.rawAgain job x)

theorem Slot.begunAgain_shot (job dark : Option Shot) (x : Slot) : (Slot.begunAgain job dark x).shot = x.shot := rfl

theorem Slot.begunAgain_tag (job dark : Option Shot) (x : Slot) :
    (Slot.begunAgain job dark x).tag = if job = some x.shot ∧ x.tag = .developing then .raw else x.tag := rfl

theorem Slot.begunAgain_dark (job dark : Option Shot) (x : Slot) : (Slot.begunAgain job dark x).dark =
    if dark = some x.shot ∧ x.shot ≠ 0#32 ∧ x.dark = some .awaiting then some .none else x.dark := rfl

namespace State

variable {s : State} {b : Bool}

/-! ## The blocks one by one -/

theorem developRestart_eq (s : State) : s.developRestart = { s with
    develop := { s.develop with job := none, owed := [], store := [] }
    ring := { s.ring with slots := s.ring.slots.map (Option.map (Slot.rawAgain (s.develop.job.map (·.shot)))) }
    clock := { s.clock with timers := { s.clock.timers with seam := s.developRestart.clock.timers.seam } } } := by
  cases hj : s.develop.job with
  | none =>
    have hid : s.ring.slots.map (Option.map (Slot.rawAgain none)) = s.ring.slots := by
      refine (List.map_congr_left fun o _ => ?_).trans (List.map_id _)
      cases o with
      | none => rfl
      | some x => simp [Slot.rawAgain]
    simp only [developRestart, hj, Option.map_none, hid, onDevelop]
  | some j =>
    have hslots : ∀ x : Slot, (if x.shot = j.shot then { x with tag := if x.tag = .developing then .raw else x.tag } else x) =
        Slot.rawAgain (some j.shot) x := by
      intro x
      by_cases hx : x.shot = j.shot
      · simp [Slot.rawAgain, hx]
      · have hne : ¬j.shot = x.shot := fun h => hx h.symm
        simp [Slot.rawAgain, hx, hne]
    cases hw : j.waiting <;>
      simp [developRestart, stopJob, hj, hw, updSlot, Ring.updSlot, onRing, onDevelop, doIf, hslots, stopTimer, onTimer, onClock,
        Timers.upd]

theorem developRestart_timers (s : State) : s.developRestart.clock.timers.restart = s.clock.timers.restart := by
  unfold developRestart stopJob
  cases s.develop.job with
  | none => rfl
  | some j => cases hw : j.waiting <;> simp [hw, doIf] <;> rfl

theorem darkLeft_slots (k : DarkCapture) (s : State) :
    (s.darkLeft k).ring = { s.ring with slots := s.ring.slots.map (Option.map (Slot.darkless (some k.shot))) } := by
  have hring : (s.darkLeft k).ring = (s.doIf (k.shot != 0#32) (settleAwaiting k.shot .none)).ring := rfl
  rw [hring]
  by_cases hz : k.shot = 0#32
  · have hid : s.ring.slots.map (Option.map (Slot.darkless (some k.shot))) = s.ring.slots := by
      refine (List.map_congr_left fun o _ => ?_).trans (List.map_id _)
      cases o with
      | none => rfl
      | some x =>
        have hno : ¬(some k.shot = some x.shot ∧ x.shot ≠ 0#32 ∧ x.dark = some .awaiting) :=
          fun ⟨h, hne, _⟩ => hne ((Option.some.inj h).symm.trans hz)
        rw [Option.map_some, Slot.darkless, if_neg hno]
        rfl
    rw [hid, show (k.shot != 0#32) = false by simp [hz]]
    rfl
  · have hslots : ∀ x : Slot, (if x.shot = k.shot then if (x.dark == some .awaiting) = true then { x with dark := some .none } else x else x) =
        Slot.darkless (some k.shot) x := by
      intro x
      by_cases hx : x.shot = k.shot
      · have hxz : x.shot ≠ 0#32 := by rwa [hx]
        by_cases hd : x.dark = some .awaiting <;> simp [Slot.darkless, ← hx, hxz, hd]
      · have hne : ¬k.shot = x.shot := fun h => hx h.symm
        simp [Slot.darkless, hx, hne]
    rw [show (k.shot != 0#32) = true by simp [hz]]
    refine congrArg (fun l => { s.ring with slots := l }) (List.map_congr_left fun o _ => ?_)
    exact congrArg (fun f => Option.map f o) (funext hslots)

theorem captureRestart_eq (hm : s.member.state ≠ .ready) : s.captureRestart b = { s with
    dark := { s.dark with capture := none }
    ring := { s.ring with slots := s.ring.slots.map (Option.map (Slot.darkless (s.dark.capture.map (·.shot)))) }
    clock := { s.clock with alarm := none, timers := s.clock.timers.restart }
    capture := { s.capture with
      state := .disarmed, exposure := none, quiet := [], disarmPending := false, haltPending := false
      pendingRelease := none, shutter := if b then 8000 else s.capture.shutter } } := by
  cases hk : s.dark.capture with
  | none =>
    have hid : s.ring.slots.map (Option.map (Slot.darkless none)) = s.ring.slots := by
      refine (List.map_congr_left fun o _ => ?_).trans (List.map_id _)
      cases o <;> rfl
    rw [captureRestart, abandonDark_nothing hk, Option.map_none, hid, ← hk]
    rfl
  | some k =>
    have hwaits : (s.darkLeft k).tryStartJob = s.darkLeft k := tryStartJob_waits (s.darkLeft k) hm
    rw [captureRestart, abandonDark_eq hk, hwaits, Option.map_some, ← darkLeft_slots k s]
    have htimers : (s.timersLeft k).restart = s.clock.timers.restart := by
      unfold timersLeft
      split <;> rfl
    rw [← htimers]
    rfl

end State

end Sys2Proof.Machine
end

section
/-! PROOF. The station that a Restart leaves before the new roll call (R31, R34, R93, R132, R150). -/

namespace Sys2Proof.Machine

namespace State

variable {s t : State} {b : Bool}

/-! ## Every block's handling, in turn -/

/-- The station once every block has made its Restart handling, but for the slots that go. -/
def restarting (b : Bool) (s : State) : State := { s with
  member := s.member.restart b
  capture := { s.capture with
    state := .disarmed, exposure := none, quiet := [], disarmPending := false, haltPending := false
    pendingRelease := none, shutter := if b then 8000 else s.capture.shutter }
  clock := { s.clock with alarm := none, timers := s.clock.timers.restart }
  link := s.link.restart
  notices := { records := List.replicate 11 none }
  develop := { s.develop with job := none, owed := [], store := [] }
  dark := { s.dark with capture := none }
  transfer := { current := none }
  ring := { s.ring with
    slots := s.ring.slots.map (Option.map (Slot.begunAgain (s.develop.job.map (·.shot)) (s.dark.capture.map (·.shot))))
    roster := s.ring.roster.map Entry.resetTransfer }
  card := s.card.clearBuffers
  power := s.powerAtArm }

/-- The station once the slots that are Exposing or Reading have gone. -/
def unreadGone (b : Bool) (s : State) : State := (s.restarting b).unreadShots.foldl (fun t n => t.freeSlot n) (s.restarting b)

/-- The station once the placements kept and the owed Seams have begun again. -/
def keptAgain (b : Bool) (s : State) : State := ((s.unreadGone b).onCard Card.restart).refillOwed

/-- The station before the new roll call, with a ring emptied where the tile size has changed. -/
def begunAgain (b : Bool) (s : State) : State :=
  (s.keptAgain b).doIf (!sameSize s.settings (s.member.restart b).settings) resized

theorem jobAndCaptureRestart_eq (hm : s.member.state ≠ .ready) : s.developRestart.captureRestart b = { s with
    capture := { s.capture with
      state := .disarmed, exposure := none, quiet := [], disarmPending := false, haltPending := false
      pendingRelease := none, shutter := if b then 8000 else s.capture.shutter }
    clock := { s.clock with alarm := none, timers := s.clock.timers.restart }
    develop := { s.develop with job := none, owed := [], store := [] }
    dark := { s.dark with capture := none }
    ring := { s.ring with
      slots := s.ring.slots.map (Option.map (Slot.begunAgain (s.develop.job.map (·.shot)) (s.dark.capture.map (·.shot)))) } } := by
  have hslots : ∀ (job dark : Option Shot), s.ring.slots.map (Option.map (Slot.begunAgain job dark)) =
      (s.ring.slots.map (Option.map (Slot.rawAgain job))).map (Option.map (Slot.darkless dark)) := fun job dark => by
    rw [List.map_map]
    refine List.map_congr_left fun o _ => ?_
    cases o <;> rfl
  have hmember : s.developRestart.member.state ≠ .ready := by rwa [developRestart_eq]
  rw [captureRestart_eq hmember, developRestart_timers, developRestart_eq, hslots]

theorem blocksRestart_eq (b : Bool) (s : State) (hm : (s.member.restart b).state ≠ .ready) :
    ((({ s with
      power := s.powerAtArm, link := s.link.restart, notices := { records := List.replicate 11 none }
      member := s.member.restart b } : State).onCard Card.clearBuffers).developRestart.captureRestart b).ringRestart = s.unreadGone b := by
  have hblocks := jobAndCaptureRestart_eq (b := b) (s := ({ s with
    power := s.powerAtArm, link := s.link.restart, notices := { records := List.replicate 11 none }
    member := s.member.restart b } : State).onCard Card.clearBuffers) hm
  rw [hblocks]
  rfl

theorem restart_eq (toAll b : Bool) (s : State) :
    s.restart toAll b = ((s.begunAgain b).doIf (!toAll) redoFilling).setupRollCall (!toAll) := by
  have hm : (s.member.restart b).state ≠ .ready := by cases b <;> exact nofun
  have hblocks := blocksRestart_eq b s hm
  unfold restart
  rw [leaveDoze_eq]
  dsimp only
  unfold begunAgain keptAgain
  rw [← hblocks]
  rfl

theorem restarting_cleared (b : Bool) (s : State) : (s.restarting b).Cleared where
  notReady := by cases b <;> exact nofun
  job := rfl
  owed := rfl
  store := rfl
  current := rfl
  bulk := rfl
  grants := rfl
  waiting := rfl

theorem unreadGone_left (b : Bool) (s : State) : (s.restarting b).Left (s.restarting b).unreadShots (s.unreadGone b) :=
  (restarting_cleared b s).left _

end State

end Sys2Proof.Machine
end

section
/-! PROOF. The shots of the ring in order, those that a Restart frees, and the Seams owed for those it keeps (R82, R93, R123, R132). -/

namespace Sys2Proof.Machine

/-! ## Owed Seams of several shots -/

/-- Shots that owe nothing come to owe, in turn, each neighbour-facing edge in order (R123, R132). -/
theorem addOwed_each (facing : List (Direction × Nat)) (hf : (facing.map (·.1)).Nodup) (l : List Slot) (owed : List (Shot × Direction))
    (hl : (l.map (·.shot)).Nodup) (ho : ∀ x ∈ l, ∀ d, (x.shot, d) ∉ owed) :
    l.foldl (fun o x => addOwed x.shot facing o) owed = owed ++ l.flatMap fun x => facing.map fun f => (x.shot, f.1) := by
  induction l generalizing owed with
  | nil => simp
  | cons x xs ih =>
    obtain ⟨hx, hxs⟩ := List.nodup_cons.mp hl
    rw [List.foldl_cons, addOwed_new x.shot facing owed hf fun d _ => ho x List.mem_cons_self d, ih _ hxs, List.flatMap_cons,
      List.append_assoc]
    intro y hy d hmem
    obtain hmem | hmem := List.mem_append.mp hmem
    · exact ho y (List.mem_cons_of_mem _ hy) d hmem
    · obtain ⟨f, -, hf⟩ := List.mem_map.mp hmem
      exact hx (List.mem_map.mpr ⟨y, hy, (congrArg Prod.fst hf).symm⟩)

theorem facingEdges_none (n : Nat) : facingEdges none n = [] := by
  simp [facingEdges, neighbour?]

theorem facingEdges_nodup (g : Option GridShape) (n : Nat) : ((facingEdges g n).map (·.1)).Nodup := by
  rw [facingEdges_dirs]
  exact List.Nodup.filter _ (by decide)

/-! ## The ring in order -/

theorem Ring.inOrder_perm (r : Ring) : r.inOrder.Perm (r.slots.filterMap id) := by
  unfold Ring.inOrder
  refine List.Perm.filterMap _ ?_
  exact List.perm_append_comm.trans (by rw [List.take_append_drop])

theorem Ring.mem_inOrder {r : Ring} {x : Slot} : x ∈ r.inOrder ↔ some x ∈ r.slots := by
  rw [r.inOrder_perm.mem_iff]
  simp

/-- The slots in order, where every record has been changed or cleared. -/
theorem Ring.inOrder_filterMap {r q : Ring} (f : Slot → Option Slot) (hslots : q.slots = r.slots.map (Option.bind · f)) (htop : q.top = r.top) :
    q.inOrder = r.inOrder.filterMap f := by
  unfold Ring.inOrder
  rw [hslots, htop, ← List.map_drop, ← List.map_take, ← List.map_append, List.filterMap_map, List.filterMap_filterMap]
  rfl

/-- Records changed or cleared that a test does not see keep the shots that pass the test. -/
theorem map_shot_filterMap (f : Slot → Option Slot) (p : Slot → Bool) (l : List Slot)
    (hnone : ∀ x ∈ l, f x = none → p x = false) (hsome : ∀ x ∈ l, ∀ y, f x = some y → p y = p x ∧ y.shot = x.shot) :
    ((l.filterMap f).filter p).map (·.shot) = (l.filter p).map (·.shot) := by
  induction l with
  | nil => rfl
  | cons x xs ih =>
    have hxs := ih (fun y hy => hnone y (List.mem_cons_of_mem _ hy)) fun y hy => hsome y (List.mem_cons_of_mem _ hy)
    cases hf : f x with
    | none => rw [List.filterMap_cons_none hf, List.filter_cons_of_neg (by simp [hnone x List.mem_cons_self hf]), hxs]
    | some y =>
      obtain ⟨hp, hshot⟩ := hsome x List.mem_cons_self y hf
      rw [List.filterMap_cons_some hf, List.filter_cons, List.filter_cons, hp]
      cases p x with
      | true => simp [hxs, hshot]
      | false => simpa using hxs

namespace State

variable {s : State} {n : Shot} {x : Slot} {b : Bool}

theorem ringOk.slots_nodup (h : s.ringOk) : ((s.ring.slots.filterMap id).map (·.shot)).Nodup := by
  have hpair : s.ring.slots.Pairwise fun o q => ∀ x, o = some x → ∀ y, q = some y → x.shot ≠ y.shot := by
    rw [List.pairwise_iff_getElem]
    intro i j hi hj hij x hx y hy hshot
    obtain ⟨-, -, hentry, -, hnodup, -⟩ := h
    obtain ⟨e, he, hex, hei⟩ := hentry i x (by rw [List.getElem?_eq_getElem hi, hx])
    obtain ⟨g, hg, hgy, hgj⟩ := hentry j y (by rw [List.getElem?_eq_getElem hj, hy])
    have heg : e = g := List.inj_on_of_nodup_map hnodup he hg (hex.trans (hshot.trans hgy.symm))
    rw [← hei, ← hgj, heg] at hij
    exact lt_irrefl _ hij
  rw [List.Nodup, List.pairwise_map, List.pairwise_filterMap]
  exact hpair

theorem ringOk.inOrder_nodup (h : s.ringOk) : (s.ring.inOrder.map (·.shot)).Nodup :=
  (s.ring.inOrder_perm.map _).nodup_iff.mpr h.slots_nodup

/-! ## The shots that go -/

theorem keepsShot_eq_false : s.keepsShot n = false ↔ ∃ x, s.slot? n = some x ∧ (x.tag = .exposing ∨ x.tag = .reading) := by
  unfold keepsShot
  cases hx : s.slot? n with
  | none => simp
  | some x =>
    simp only [Option.all_some, Bool.and_eq_false_iff, bne_eq_false_iff_eq, Option.some.injEq, exists_eq_left']

theorem ringOk.mem_unreadShots (h : s.ringOk) : n ∈ s.unreadShots ↔ s.keepsShot n = false := by
  rw [keepsShot_eq_false, unreadShots]
  simp only [List.mem_map, List.mem_filter, List.mem_filterMap, id_eq, exists_eq_right, Bool.or_eq_true, beq_iff_eq]
  constructor
  · rintro ⟨x, ⟨hx, ht⟩, rfl⟩
    exact ⟨x, h.slot? hx, ht⟩
  · rintro ⟨x, hx, ht⟩
    exact ⟨x, ⟨slot?_mem hx, ht⟩, slot?_shot hx⟩

end State

end Sys2Proof.Machine
end

section
/-! PROOF. Ring, placement list and write queue once every block has made its Restart handling (R93, R149, R150). -/

namespace Sys2Proof.Machine

/-! ## Records that begin again -/

theorem Entry.resetTransfer_voidRecord (flags : OutcomeFlags) (e : Entry) (p : Placed) :
    p.voidRecord flags e.resetTransfer = p.voidRecord flags e := rfl

theorem Placed.restart_begunAgain (p : Placed) : p.restart = p.begunAgain := by
  unfold Placed.restart Placed.begunAgain
  split <;> rfl

@[simp] theorem Placed.begunAgain_shot (p : Placed) : p.begunAgain.shot = p.shot := rfl

@[simp] theorem Placed.begunAgain_phase (p : Placed) : p.begunAgain.phase = p.phase := rfl

theorem Placed.begunAgain_members (p : Placed) : p.begunAgain.progress.map (·.member) = p.progress.map (·.member) := by
  unfold Placed.begunAgain
  split
  · rw [List.map_map]
    rfl
  · rfl

/-- A Filling placement that has begun again has no close fields (R150). -/
theorem Placed.begunAgain_closeFlags (p : Placed) :
    p.begunAgain.closeFlags = if p.phase = .filling then {} else p.closeFlags := by
  unfold Placed.closeFlags Placed.begunAgain
  by_cases hf : p.phase = .filling
  · rw [if_pos hf, if_pos hf, List.foldl_map]
    induction p.progress with
    | nil => rfl
    | cons m ms ih => exact ih
  · rw [if_neg hf, if_neg hf]

theorem Placed.begunAgain_voidRecord (p : Placed) (e : Entry) :
    p.begunAgain.voidRecord p.begunAgain.closeFlags e = p.voidRecord (if p.phase = .filling then {} else p.closeFlags) e := by
  rw [Placed.begunAgain_closeFlags]
  rfl

theorem Card.restart_placements (c : Card) : c.restart.placements = c.placements.map Placed.begunAgain :=
  List.map_congr_left fun p _ => p.restart_begunAgain

theorem Card.restart_placed? (n : Shot) (c : Card) : c.restart.placed? n = (c.placed? n).map Placed.begunAgain := by
  rw [placed?, restart_placements, List.find?_map]
  rfl

theorem Card.clearBuffers_cancels (c : Card) : c.clearBuffers.blocksCancelled := by
  intro w hw hblock
  obtain ⟨-, hno⟩ | ⟨hc, -⟩ := of_mem_cancelWrites (show w ∈ cancelWrites (·.kind == .block) c.writes from hw)
  · simp [hblock] at hno
  · exact hc

theorem Card.clearBuffers_keeps {c : Card} {w : Write} (hw : w ∈ c.writes) (hk : w.kind ≠ .block) : w ∈ c.clearBuffers.writes :=
  mem_cancelWrites_of_not hw (by simpa using hk)

namespace State

variable {s : State} {n : Shot} {x : Slot} {b : Bool} {e : Entry} {p : Placed}

/-! ## Before the slots go -/

/-- The record of a kept slot, as a Restart of this station leaves it. -/
abbrev slotAgain (s : State) : Slot → Slot := Slot.begunAgain (s.develop.job.map (·.shot)) (s.dark.capture.map (·.shot))

theorem restarting_slot? (b : Bool) (n : Shot) (s : State) : (s.restarting b).slot? n = (s.slot? n).map s.slotAgain :=
  findSome?_mapAll_shot n s.slotAgain (fun x => Slot.begunAgain_shot _ _ x) s.ring.slots

theorem restarting_entry? (b : Bool) (n : Shot) (s : State) : (s.restarting b).entry? n = (s.entry? n).map Entry.resetTransfer :=
  List.find?_map ..

theorem slotAgain_unread (s : State) (x : Slot) : (((s.slotAgain x).tag == .exposing || (s.slotAgain x).tag == .reading)) =
    (x.tag == .exposing || x.tag == .reading) := by
  rw [Slot.begunAgain_tag]
  split
  next h => rw [h.2]; rfl
  · rfl

theorem slotAgain_done (s : State) (x : Slot) : (((s.slotAgain x).tag == .held || (s.slotAgain x).tag == .developed)) =
    (x.tag == .held || x.tag == .developed) := by
  rw [Slot.begunAgain_tag]
  split
  next h => rw [h.2]; rfl
  · rfl

theorem restarting_unreadShots (b : Bool) (s : State) : (s.restarting b).unreadShots = s.unreadShots := by
  have hids : (s.ring.slots.map (Option.map s.slotAgain)).filterMap id = (s.ring.slots.filterMap id).map s.slotAgain := by
    rw [List.filterMap_map, List.map_filterMap]
    rfl
  have hslots : (s.restarting b).ring.slots = s.ring.slots.map (Option.map s.slotAgain) := rfl
  unfold unreadShots
  rw [hslots, hids, List.filter_map, List.map_map]
  simp only [Function.comp_def, slotAgain_unread, Slot.begunAgain_shot]

theorem restarting_shots (b : Bool) (s : State) : (s.restarting b).shots = s.shots := by
  have hslots : (s.restarting b).shots.slots = s.shots.slots := by
    simp only [shots, restarting, List.map_map]
    refine List.map_congr_left fun o _ => ?_
    cases o with
    | none => rfl
    | some x => exact congrArg some (Slot.begunAgain_shot _ _ x)
  have hroster : (s.restarting b).shots.roster = s.shots.roster := by
    simp only [shots, restarting, List.map_map]
    rfl
  calc (s.restarting b).shots
      = { s.shots with slots := (s.restarting b).shots.slots, roster := (s.restarting b).shots.roster } := rfl
    _ = s.shots := by rw [hslots, hroster]

theorem ringOk.restarting_frees (h : s.ringOk) (b : Bool) (n : Shot) : (s.restarting b).frees s.unreadShots n = !s.keepsShot n := by
  unfold State.frees
  rw [restarting_entry?, Option.isSome_map]
  cases hk : s.keepsShot n with
  | true =>
    have hno : n ∉ s.unreadShots := fun hn => by simp [h.mem_unreadShots.mp hn] at hk
    simp [hno]
  | false =>
    obtain ⟨x, hx, -⟩ := keepsShot_eq_false.mp hk
    have hentry : (s.entry? n).isSome = true := by rw [← h.slot?_isSome, hx]; rfl
    simp [h.mem_unreadShots.mpr hk, hentry]

/-! ## Once they have gone -/

theorem unreadGone_leaves (b : Bool) (s : State) : (s.restarting b).Left s.unreadShots (s.unreadGone b) := by
  have h := unreadGone_left b s
  rwa [restarting_unreadShots] at h

theorem ringOk.unreadGone_slot? (h : s.ringOk) (b : Bool) (n : Shot) :
    (s.unreadGone b).slot? n = if s.keepsShot n then (s.slot? n).map s.slotAgain else none := by
  rw [(unreadGone_leaves b s).slot?, h.restarting_frees, restarting_slot?]
  cases s.keepsShot n <;> rfl

theorem ringOk.unreadGone_entry? (h : s.ringOk) (b : Bool) (n : Shot) :
    (s.unreadGone b).entry? n = if s.keepsShot n then (s.entry? n).map Entry.resetTransfer else none := by
  rw [(unreadGone_leaves b s).entry?, restarting_entry?]
  cases hk : s.keepsShot n with
  | true =>
    have hno : n ∉ s.unreadShots := fun hn => by simp [h.mem_unreadShots.mp hn] at hk
    rw [if_neg hno]
    rfl
  | false =>
    rw [if_pos (h.mem_unreadShots.mpr hk)]
    rfl

theorem ringOk.unreadGone_placements (h : s.ringOk) (b : Bool) (hn : (s.card.placements.map (·.shot)).Nodup) :
    (s.unreadGone b).card.placements = s.card.placements.filter fun p => s.keepsShot p.shot := by
  rw [(unreadGone_leaves b s).placements hn]
  refine List.filter_congr fun p _ => ?_
  rw [h.restarting_frees, Bool.not_not]

theorem ringOk.unreadGone_ok (h : s.ringOk) (b : Bool) : (s.unreadGone b).ringOk := by
  have hok : (s.restarting b).ringOk := h.congr (restarting_shots b s)
  exact (hok.freeAll (restarting_cleared b s).notReady _).ok

/-- The Void write of a placement whose slot was Exposing or Reading (R93, R149). -/
theorem unreadGone_voids (b : Bool) (hn : n ∈ s.unreadShots) (he : s.entry? n = some e) (hp : s.card.placed? n = some p) :
    p.voidRecord p.closeFlags e ∈ (s.unreadGone b).card.writes := by
  have hentry : (s.restarting b).entry? n = some e.resetTransfer := by rw [restarting_entry?, he]; rfl
  exact (unreadGone_leaves b s).voids n e.resetTransfer p hn hentry hp

theorem unreadGone_cancels (b : Bool) (s : State) : (s.unreadGone b).card.blocksCancelled :=
  (unreadGone_leaves b s).cancelled s.card.clearBuffers_cancels

theorem ringOk.unreadGone_keeps (h : s.ringOk) (b : Bool) {w : Write} (hw : w ∈ s.card.writes) (hk : w.kind ≠ .block)
    (hs : s.keepsShot w.shot = true) : w ∈ (s.unreadGone b).card.writes := by
  refine (unreadGone_leaves b s).kept w (Card.clearBuffers_keeps hw hk) (.inl fun hn => ?_)
  simp [h.mem_unreadShots.mp hn] at hs

/-- The Held and Developed shots in ring order are those that stood there. -/
theorem ringOk.unreadGone_done (h : s.ringOk) (b : Bool) :
    ((s.unreadGone b).ring.inOrder.filter fun x => x.tag == .held || x.tag == .developed).map (·.shot) =
      (s.ring.inOrder.filter fun x => x.tag == .held || x.tag == .developed).map (·.shot) := by
  have hleft := unreadGone_leaves b s
  have hslots : (s.unreadGone b).ring.slots = s.ring.slots.map
      (Option.bind · fun x => if s.keepsShot x.shot then some (s.slotAgain x) else none) := by
    rw [hleft.slots]
    change (s.ring.slots.map (Option.map s.slotAgain)).map _ = _
    rw [List.map_map]
    refine List.map_congr_left fun o _ => ?_
    cases o with
    | none => rfl
    | some x =>
      simp only [Function.comp_apply, Option.map_some, Option.bind_some, Option.filter, h.restarting_frees, Bool.not_not, Slot.begunAgain_shot]
      rfl
  have htop : (s.unreadGone b).ring.top = s.ring.top := by rw [hleft.same]; rfl
  rw [Ring.inOrder_filterMap _ hslots htop]
  refine map_shot_filterMap _ _ _ (fun x hx hnone => ?_) fun x hx y hy => ?_
  · have hkeep : s.keepsShot x.shot = false := by
      rw [← Bool.not_eq_true]
      intro hk
      simp [hk] at hnone
    obtain ⟨y, hy, ht⟩ := keepsShot_eq_false.mp hkeep
    rw [h.slot? (Ring.mem_inOrder.mp hx)] at hy
    cases hy
    obtain ht | ht := ht <;> simp [ht]
  · split at hy
    · cases hy
      exact ⟨s.slotAgain_done x, Slot.begunAgain_shot _ _ x⟩
    · cases hy

end State

end Sys2Proof.Machine
end

section
/-! PROOF. The owed Seams and the ring that a Restart leaves, with and without a change of the tile size (R34, R96, R132). -/

namespace Sys2Proof.Machine

namespace State

variable {s t u : State} {n : Shot} {x : Slot} {b : Bool} {e : Entry} {p : Placed}

/-! ## The placements kept and the owed Seams -/

theorem keptAgain_eq (b : Bool) (s : State) : s.keptAgain b = { s.unreadGone b with
    card := (s.unreadGone b).card.restart
    develop := { (s.unreadGone b).develop with owed := (s.keptAgain b).develop.owed } } := rfl

theorem keptAgain_owed (b : Bool) (s : State) : (s.keptAgain b).develop.owed =
    ((s.unreadGone b).ring.inOrder.filter fun x => x.tag == .held || x.tag == .developed).foldl
      (fun o x => addOwed x.shot (facingEdges (s.member.restart b).settings.gridShape s.self.toNat) o) [] := by
  have hsame := (unreadGone_leaves b s).same
  have hmember : (s.unreadGone b).member = s.member.restart b := by rw [hsame]; rfl
  have howed : (s.unreadGone b).develop.owed = [] := by rw [hsame]; rfl
  have hstraps : (s.member.restart b).straps = s.member.straps := by cases b <;> rfl
  have hself : (s.unreadGone b).self = s.self := by rw [self, hmember, hstraps]; rfl
  have hfacing : (s.unreadGone b).facing = facingEdges (s.member.restart b).settings.gridShape s.self.toNat := by
    rw [facing, settings, hmember, hself]
  rw [← hfacing, ← howed]
  rfl

/-- Reconfigured, a station has no neighbours, and owes nothing (R31, R132). -/
theorem keptAgain_owed_reconfigured (s : State) : (s.keptAgain true).develop.owed = [] := by
  rw [keptAgain_owed, show (s.member.restart true).settings.gridShape = none from rfl, facingEdges_none]
  induction (s.unreadGone true).ring.inOrder.filter fun x => x.tag == .held || x.tag == .developed with
  | nil => rfl
  | cons x xs ih => exact ih

theorem ringOk.keptAgain_owed (h : s.ringOk) : (s.keptAgain false).develop.owed = s.bandsOwed := by
  have hshots := h.unreadGone_done false
  have hnodup : (((s.unreadGone false).ring.inOrder.filter fun x => x.tag == .held || x.tag == .developed).map (·.shot)).Nodup := by
    rw [hshots]
    exact h.inOrder_nodup.sublist (List.filter_sublist.map _)
  have heach : ∀ l : List Slot, (l.flatMap fun x => (facingEdges s.settings.gridShape s.self.toNat).map fun f => (x.shot, f.1)) =
      (l.map (·.shot)).flatMap fun n =>
        (directions.filter fun d => (neighbour? s.settings.gridShape s.self.toNat d).isSome).map fun d => (n, d) := by
    intro l
    rw [List.flatMap_map, ← facingEdges_dirs]
    simp only [List.map_map, Function.comp_def]
  rw [State.keptAgain_owed, addOwed_each _ (facingEdges_nodup _ _) _ _ hnodup fun _ _ _ => List.not_mem_nil, List.nil_append,
    show (s.member.restart false).settings = s.settings from rfl, heach, hshots, List.flatMap_map]
  rfl

theorem keptAgain_cleared (s : State) : (s.keptAgain true).Cleared := by
  have hcleared := (unreadGone_leaves true s).cleared (restarting_cleared true s)
  exact { hcleared with owed := keptAgain_owed_reconfigured s }

theorem ringOk.keptAgain_ok (h : s.ringOk) (b : Bool) : (s.keptAgain b).ringOk := by
  refine (h.unreadGone_ok b).congr ?_
  exact InStep.cardRestart_shots (s.unreadGone b)

theorem ringOk.keptAgain_placements (h : s.ringOk) (b : Bool) (hn : (s.card.placements.map (·.shot)).Nodup) :
    (s.keptAgain b).card.placements = (s.card.placements.filter fun p => s.keepsShot p.shot).map Placed.begunAgain := by
  rw [← h.unreadGone_placements b hn]
  exact Card.restart_placements _

/-! ## A changed tile size -/

theorem invalidateDark_jobless (h : s.develop.job = none) : s.invalidateDark = { s with
    dark := { s.dark with valid := false }, ring := { s.ring with slots := s.invalidateDark.ring.slots } } := by
  have hsame : { s.develop with job := s.develop.job.map Job.loseDark } = s.develop := by rw [h, Option.map_none, ← h]
  calc s.invalidateDark = { s with
        dark := { s.dark with valid := false }, ring := { s.ring with slots := s.invalidateDark.ring.slots }
        develop := { s.develop with job := s.develop.job.map Job.loseDark } } := rfl
    _ = _ := by rw [hsame]

theorem Cleared.invalidateDark (h : s.Cleared) : s.invalidateDark.Cleared := by
  rw [invalidateDark_jobless h.job]
  exact { h with }

theorem Cleared.resized_left (h : s.Cleared) : s.invalidateDark.Left s.invalidateDark.risingShots s.resized := h.invalidateDark.left _

end State

end Sys2Proof.Machine
end

section
/-! PROOF. The obligation on the Restart (R31, R93, R132, R149, R150, R171). -/

namespace Sys2Proof.Machine

namespace State

variable {s t u : State} {n : Shot} {x : Slot} {b : Bool} {e : Entry} {p : Placed}

/-! ## Before the new roll call -/

theorem begunAgain_sameSize (h : b = false ∨ (s.settings.tileRows = 3072 ∧ s.settings.tileColumns = 4096)) :
    s.begunAgain b = s.keptAgain b := by
  have hsame : sameSize s.settings (s.member.restart b).settings = true := by
    rw [sameSize_iff]
    obtain rfl | ⟨hrows, hcolumns⟩ := h
    · exact ⟨rfl, rfl⟩
    · cases b
      · exact ⟨rfl, rfl⟩
      · exact ⟨hrows.symm, hcolumns.symm⟩
  rw [begunAgain, hsame]
  rfl

theorem begunAgain_resized (h : s.settings.tileRows ≠ 3072 ∨ s.settings.tileColumns ≠ 4096) :
    s.begunAgain true = (s.keptAgain true).resized := by
  have hdiff : sameSize s.settings (s.member.restart true).settings = false := by
    rw [← Bool.not_eq_true, sameSize_iff]
    rintro ⟨hrows, hcolumns⟩
    exact h.elim (fun hne => hne hrows.symm) fun hne => hne hcolumns.symm
  rw [begunAgain, hdiff]
  rfl

theorem begunAgain_cases (b : Bool) (s : State) :
    s.begunAgain b = s.keptAgain b ∨ (b = true ∧ s.begunAgain b = (s.keptAgain true).resized) := by
  cases b with
  | false => exact .inl (begunAgain_sameSize (.inl rfl))
  | true =>
    by_cases hsize : s.settings.tileRows = 3072 ∧ s.settings.tileColumns = 4096
    · exact .inl (begunAgain_sameSize (.inr hsize))
    · exact .inr ⟨rfl, begunAgain_resized (not_and_or.mp hsize)⟩

/-- What of the station a Restart leaves to ring, placement list, write queue, owed Seams and dark slot. -/
def BegunFrom (b : Bool) (s u : State) : Prop := u = { s.restarting b with
  ring := { (s.restarting b).ring with slots := u.ring.slots, roster := u.ring.roster }
  card := { (s.restarting b).card with placements := u.card.placements, writes := u.card.writes }
  develop := { (s.restarting b).develop with owed := u.develop.owed }
  dark := { (s.restarting b).dark with valid := u.dark.valid } }

theorem keptAgain_begunFrom (b : Bool) (s : State) : s.BegunFrom b (s.keptAgain b) := by
  have hleft := (unreadGone_leaves b s).same
  have hkept := keptAgain_eq b s
  have hvalid : (s.keptAgain b).dark.valid = (s.restarting b).dark.valid := by
    rw [hkept, hleft]
  rw [BegunFrom, hvalid]
  rw [hleft] at hkept
  exact hkept

/-- A ring emptied after a changed tile size, from what the blocks' Restart handling leaves. -/
theorem resized_left (s : State) :
    (s.keptAgain true).invalidateDark.Left (s.keptAgain true).invalidateDark.risingShots (s.keptAgain true).resized :=
  (keptAgain_cleared s).resized_left

theorem resized_valid (s : State) : (s.keptAgain true).resized.dark.valid = false := by
  rw [(resized_left s).same]
  rfl

theorem resized_owed (s : State) : (s.keptAgain true).resized.develop.owed = (s.keptAgain true).develop.owed := by
  rw [(resized_left s).same]
  rfl

theorem begunAgain_begunFrom (b : Bool) (s : State) : s.BegunFrom b (s.begunAgain b) := by
  obtain h | ⟨rfl, h⟩ := begunAgain_cases b s
  · rw [h]
    exact keptAgain_begunFrom b s
  · rw [h]
    have hleft := (resized_left s).same
    rw [BegunFrom, resized_valid, resized_owed]
    generalize (s.keptAgain true).resized = r at hleft ⊢
    rw [invalidateDark_jobless (keptAgain_cleared s).job, keptAgain_begunFrom true s] at hleft
    exact hleft

theorem begunAgain_cancels (b : Bool) (s : State) : (s.begunAgain b).card.blocksCancelled := by
  have hkept : (s.keptAgain b).card.blocksCancelled := unreadGone_cancels b s
  obtain h | ⟨rfl, h⟩ := begunAgain_cases b s
  · rwa [h]
  · rw [h]
    exact (resized_left s).cancelled hkept

theorem ringOk.begunAgain_owed (h : s.ringOk) : (s.begunAgain b).develop.owed = if b then [] else s.bandsOwed := by
  cases b with
  | false => rw [begunAgain_sameSize (.inl rfl), h.keptAgain_owed]; rfl
  | true =>
    obtain hb | ⟨-, hb⟩ := begunAgain_cases true s
    · rw [hb]
      exact keptAgain_owed_reconfigured s
    · rw [hb, (resized_left s).same]
      exact keptAgain_owed_reconfigured s

/-- A Void write stays in the queue to the end of the Restart (R141). -/
theorem begunAgain_keepsVoids {w : Write} (hw : w ∈ (s.unreadGone b).card.writes) (hk : w.kind = .void) :
    w ∈ (s.begunAgain b).card.writes := by
  obtain h | ⟨rfl, h⟩ := begunAgain_cases b s
  · rwa [h]
  · rw [h]
    exact (resized_left s).kept w hw (.inr hk)

/-! ## The ring kept -/

theorem ringOk.keptAgain_restarted (h : s.ringOk) (b : Bool) : s.ringRestarted (s.keptAgain b) := by
  intro n x e hx he
  have hslot : (s.keptAgain b).slot? n = if s.keepsShot n then some (s.slotAgain x) else none := by
    have hunread := h.unreadGone_slot? b n
    rwa [hx] at hunread
  have hentry : (s.keptAgain b).entry? n = if s.keepsShot n then some e.resetTransfer else none := by
    have hunread := h.unreadGone_entry? b n
    rwa [he] at hunread
  have hshot : x.shot = n := slot?_shot hx
  refine ⟨fun hgone => ?_, fun hkeep => ⟨?_, s.slotAgain x, ?_, rfl, fun ⟨ht, hj⟩ => ?_, fun hno => ?_,
    fun ⟨hd, hn, hk⟩ => ?_, fun hno => ?_⟩⟩
  · rw [hslot, hentry, hgone]
    exact ⟨rfl, rfl⟩
  · rw [hentry, if_pos hkeep]
    rfl
  · rw [hslot, if_pos hkeep]
  · rw [Slot.begunAgain_tag, if_pos ⟨by rw [hj, hshot], ht⟩]
  · rw [Slot.begunAgain_tag, if_neg]
    rintro ⟨hj, ht⟩
    exact hno.elim (fun hne => hne ht) fun hne => hne (by rw [hj, hshot])
  · rw [Slot.begunAgain_dark, if_pos ⟨by rw [hk, hshot], by rwa [hshot], hd⟩]
  · rw [Slot.begunAgain_dark, if_neg]
    rintro ⟨hk, -, hd⟩
    exact hno.elim (fun hne => hne hd) fun hne => hne (by rw [hk, hshot])

/-! ## The ring emptied -/

theorem ringOk.keptAgain_resized (h : s.ringOk) :
    (s.keptAgain true).resized.ring.roster = [] ∧ ∀ o ∈ (s.keptAgain true).resized.ring.slots, o = none := by
  obtain ⟨hring, -⟩ := (h.keptAgain_ok true).resized_parts (keptAgain_cleared s).notReady
  rw [hring]
  exact ⟨rfl, fun o ho => (List.mem_replicate.mp ho).2⟩

theorem loseDark_entry? (n : Shot) (s : State) : s.invalidateDark.entry? n = s.entry? n := entry?_congr rfl n

theorem keptAgain_invalidated_entry? (n : Shot) (s : State) : (s.keptAgain true).invalidateDark.entry? n = (s.unreadGone true).entry? n :=
  (loseDark_entry? n (s.keptAgain true)).trans (entry?_congr (by rw [keptAgain_eq]) n)

/-- Every placement of a shot of the roster goes with its slot. -/
theorem ringOk.resized_placements (h : s.ringOk) (hn : (s.card.placements.map (·.shot)).Nodup)
    (hentries : ∀ p ∈ s.card.placements, s.entry? p.shot ≠ none) : (s.keptAgain true).resized.card.placements = [] := by
  have hkept := h.keptAgain_placements true hn
  have hnodup : ((s.keptAgain true).card.placements.map (·.shot)).Nodup := by
    rw [hkept, List.map_map]
    exact hn.sublist (List.filter_sublist.map _)
  rw [(resized_left s).placements hnodup]
  refine List.filter_eq_nil_iff.mpr fun q hq => ?_
  obtain ⟨p, hp, rfl⟩ := List.mem_map.mp (hkept ▸ hq : q ∈ (s.card.placements.filter fun p => s.keepsShot p.shot).map Placed.begunAgain)
  obtain ⟨hp, hk⟩ := List.mem_filter.mp hp
  obtain ⟨e, he⟩ := Option.ne_none_iff_exists'.mp (hentries p hp)
  have hentry : (s.keptAgain true).invalidateDark.entry? p.shot = some e.resetTransfer := by
    rw [keptAgain_invalidated_entry?, h.unreadGone_entry?, if_pos hk, he]
    rfl
  have hrising : p.shot ∈ (s.keptAgain true).invalidateDark.risingShots := mem_risingShots.mpr (by simp [hentry])
  simp [frees, hentry, hrising]

/-- The Void write of a placement that a changed tile size takes away with its slot (R34, R149, R150). -/
theorem ringOk.resized_voids (h : s.ringOk) (hk : s.keepsShot e.shot = true) (he : s.entry? e.shot = some e)
    (hp : s.card.placed? e.shot = some p) :
    p.voidRecord (if p.phase = .filling then {} else p.closeFlags) e ∈ (s.keptAgain true).resized.card.writes := by
  have hentry : (s.keptAgain true).invalidateDark.entry? e.shot = some e.resetTransfer := by
    rw [keptAgain_invalidated_entry?, h.unreadGone_entry?, if_pos hk, he]
    rfl
  have hno : e.shot ∉ s.unreadShots := fun hmem => by simp [h.mem_unreadShots.mp hmem] at hk
  have hunread : (s.unreadGone true).card.placed? e.shot = some p := ((unreadGone_leaves true s).placed? e.shot hno).trans hp
  have hplaced : (s.keptAgain true).invalidateDark.card.placed? e.shot = some p.begunAgain := by
    refine (Card.restart_placed? e.shot (s.unreadGone true).card).trans ?_
    rw [hunread]
    rfl
  have hvoid := (resized_left s).voids e.shot _ _ (mem_risingShots.mpr (by simp [hentry])) hentry hplaced
  rwa [Entry.resetTransfer_voidRecord, Placed.begunAgain_voidRecord] at hvoid

end State

end Sys2Proof.Machine
end

section
/-! PROOF. The Redos and the new roll call of a Restart, and the obligation on it (R19, R22, R23, R31, R171). -/

namespace Sys2Proof.Machine

namespace State

variable {s t u : State} {n : Shot} {x : Slot} {b toAll : Bool} {e : Entry} {p : Placed} {k : Socket}

/-- The station once the Redos of a Restart addressed to it alone have been held. -/
def redoesHeld (toAll : Bool) (s : State) : State := s.doIf (!toAll) redoFilling

/-- The Redos of the placements in Filling. -/
def redosOf (k : Socket) (l : List Placed) : List Frame := (l.filter (·.phase == .filling)).flatMap fun p =>
  p.progress.map fun m => { dst := 15#4, msg := .redo p.shot (m.member.setWidth 8) k .restarted }

theorem redoesHeld_unlettered (h : s.card.letter = none) : s.redoesHeld toAll = s := by
  cases toAll with
  | true => rfl
  | false =>
    change s.redoFilling = s
    rw [redoFilling, h]

theorem redoesHeld_lettered (h : s.card.letter = some k) (hm : s.member.state = .rolling) (hs : s.self ≠ 6#3 ∧ s.self ≠ 7#3) :
    s.redoesHeld false = { s with link := { s.link with rollHeld := s.link.rollHeld ++ redosOf k s.card.placements } } :=
  redoFilling_held k s h hm hs

/-- The Redos join what is held during the roll call, and nothing else changes (R22). -/
theorem redoesHeld_same (toAll : Bool) (hm : s.member.state = .rolling) (hs : s.self ≠ 6#3 ∧ s.self ≠ 7#3) :
    s.redoesHeld toAll = { s with link := { s.link with rollHeld := (s.redoesHeld toAll).link.rollHeld } } := by
  cases toAll with
  | true => rfl
  | false =>
    cases hk : s.card.letter with
    | none => rw [redoesHeld_unlettered hk]
    | some k => rw [redoesHeld_lettered hk hm hs]

/-- Entries kept in Filling name the Redos that their Restart holds (R150, R171). -/
theorem redosOf_begunAgain (k : Socket) (s : State) :
    redosOf k ((s.card.placements.filter fun p => s.keepsShot p.shot).map Placed.begunAgain) = s.redosHeld k := by
  have hfilling : ∀ p : Placed, p.begunAgain.progress.map (fun m =>
      ({ dst := 15#4, msg := .redo p.begunAgain.shot (m.member.setWidth 8) k .restarted } : Frame)) =
      p.progress.map fun m => { dst := 15#4, msg := .redo p.shot (m.member.setWidth 8) k .restarted } := fun p => by
    have hmembers := congrArg (List.map fun m : Node =>
      ({ dst := 15#4, msg := .redo p.shot (m.setWidth 8) k .restarted } : Frame)) p.begunAgain_members
    rwa [List.map_map, List.map_map] at hmembers
  rw [redosOf, redosHeld, List.filter_map, List.flatMap_map, List.filter_filter]
  simp only [hfilling, Function.comp_def, Placed.begunAgain_phase, Bool.and_comm]

/-! ## The whole Restart -/

theorem restart_redoesHeld (toAll b : Bool) (s : State) :
    s.restart toAll b = ((s.begunAgain b).redoesHeld toAll).setupRollCall (!toAll) := restart_eq toAll b s

theorem restarting_self (b : Bool) (s : State) : (s.restarting b).self = s.self := by cases b <;> rfl

theorem begunAgain_member (b : Bool) (s : State) : (s.begunAgain b).member = s.member.restart b := by
  rw [begunAgain_begunFrom b s]
  rfl

theorem powerAtArm_awake (hawake : s.power.state ≠ .sleep) : s.powerAtArm = { s.power with
    state := .active, sleepPending := if s.power.state = .doze then false else s.power.sleepPending } := by
  unfold powerAtArm
  cases hp : s.power.state with
  | sleep => exact absurd hp hawake
  | doze => rfl
  | active => exact (congrArg (fun st => { s.power with state := st }) hp)

/-- A Restart that is taken, record by record. -/
theorem restart_taken (toAll b : Bool) (hawake : s.power.state ≠ .sleep) (hs : s.self ≠ 6#3 ∧ s.self ≠ 7#3)
    (hd : s.clock.timers.roll.due = false) : s.restart toAll b = { s with
      member := { s.member with
        state := .rolling, rejoin := !toAll, ownRollOut := false, table := [], highest := s.ring.next
        settings := if b then {} else s.member.settings
        retainedValid := if b then false else s.member.retainedValid }
      capture := { s.capture with
        state := .disarmed, exposure := none, quiet := [], disarmPending := false, haltPending := false
        pendingRelease := none, shutter := if b then 8000 else s.capture.shutter }
      clock := { s.clock with alarm := none, timers := s.timersAtRestart }
      link := { s.link with
        urgent := [], control := s.rollAtEntry (!toAll), urgentHeld := [], controlHeld := []
        rollHeld := ((s.begunAgain b).redoesHeld toAll).link.rollHeld
        bulk := none, detached := false, phase := .free, frameStart := none }
      notices := { records := List.replicate 11 none }
      develop := { s.develop with job := none, store := [], owed := (s.begunAgain b).develop.owed }
      dark := { s.dark with capture := none, valid := (s.begunAgain b).dark.valid }
      transfer := { current := none }
      ring := { s.ring with slots := (s.begunAgain b).ring.slots, roster := (s.begunAgain b).ring.roster }
      card := { s.card with
        grants := [], waiting := [], placements := (s.begunAgain b).card.placements, writes := (s.begunAgain b).card.writes }
      power := { s.power with
        state := .active, sleepPending := if s.power.state = .doze then false else s.power.sleepPending } } := by
  have hbegun := begunAgain_begunFrom b s
  have hrolling : (s.begunAgain b).member.state = .rolling := by
    rw [begunAgain_member]
    cases b <;> rfl
  have hself : (s.begunAgain b).self = s.self := by
    rw [self, begunAgain_member]
    cases b <;> rfl
  have hheld := redoesHeld_same toAll hrolling (by rwa [hself])
  rw [restart_redoesHeld, ← powerAtArm_awake hawake]
  generalize ((s.begunAgain b).redoesHeld toAll).link.rollHeld = held at hheld ⊢
  rw [hheld]
  generalize s.begunAgain b = r at hbegun ⊢
  unfold BegunFrom at hbegun
  generalize r.ring.slots = slots, r.ring.roster = roster, r.card.placements = placements, r.card.writes = writes,
    r.develop.owed = owed, r.dark.valid = valid at hbegun ⊢
  subst hbegun
  refine (setupRollCall_eq (!toAll) _ ?_ ?_ ?_).trans ?_
  · exact hd
  · exact (restarting_self b s).symm ▸ hs
  · exact ⟨rfl, rfl⟩
  · cases b <;> rfl

end State

end Sys2Proof.Machine
end

section
/-! PROOF. The obligation on the Restart (R20, R31, R44, R93, R149, R150, R171). -/

namespace Sys2Proof.Machine

namespace State

variable {s : State} {toAll b : Bool} {k : Socket}

theorem strapInvalid_iff (s : State) : s.strapInvalid = true ↔ s.self = 6#3 ∨ s.self = 7#3 := by
  simp [strapInvalid]

theorem exec_restart_disregarded (hcalm : s.calm) (h : s.power.state = .sleep ∨ s.self = 6#3 ∨ s.self = 7#3) :
    exec (.restartTaken toAll b) s = .next s := by
  refine (event_of_calm _ s hcalm).trans (congrArg _ ?_)
  rw [takeRestart, if_pos (h.imp_right (strapInvalid_iff s).mpr)]

theorem exec_restart_taken (hcalm : s.calm) (hawake : s.power.state ≠ .sleep) (hs : s.self ≠ 6#3 ∧ s.self ≠ 7#3) :
    exec (.restartTaken toAll b) s = .next (s.restart toAll b) := by
  refine (event_of_calm _ s hcalm).trans (congrArg _ ?_)
  rw [takeRestart, if_neg]
  rw [strapInvalid_iff]
  rintro (h | h | h)
  · exact hawake h
  · exact hs.1 h
  · exact hs.2 h

theorem begunAgain_rolling (b : Bool) (s : State) : (s.begunAgain b).member.state = .rolling := by
  rw [begunAgain_member]
  cases b <;> rfl

theorem begunAgain_self (b : Bool) (s : State) : (s.begunAgain b).self = s.self := by
  rw [self, begunAgain_member]
  cases b <;> rfl

theorem begunAgain_letter (b : Bool) (s : State) : (s.begunAgain b).card.letter = s.card.letter := by
  rw [begunAgain_begunFrom b s]
  rfl

theorem begunAgain_rollHeld (b : Bool) (s : State) : (s.begunAgain b).link.rollHeld = [] := by
  rw [begunAgain_begunFrom b s]
  rfl

/-- What a Restart to all, or one of a station without a card, holds: nothing. -/
theorem redoesHeld_nothing (h : toAll = true ∨ s.card.letter = none) : ((s.begunAgain b).redoesHeld toAll).link.rollHeld = [] := by
  obtain rfl | h := h
  · exact begunAgain_rollHeld b s
  · rw [redoesHeld_unlettered (by rwa [begunAgain_letter]), begunAgain_rollHeld]

theorem redoesHeld_redos (hk : s.card.letter = some k) (hs : s.self ≠ 6#3 ∧ s.self ≠ 7#3) :
    ((s.begunAgain b).redoesHeld false).link.rollHeld = redosOf k (s.begunAgain b).card.placements := by
  rw [redoesHeld_lettered (by rwa [begunAgain_letter]) (begunAgain_rolling b s) (by rwa [begunAgain_self]), begunAgain_rollHeld]
  rfl

/-- With no placement left, no Redo is held. -/
theorem redoesHeld_unplaced (hs : s.self ≠ 6#3 ∧ s.self ≠ 7#3) (hp : (s.begunAgain b).card.placements = []) :
    ((s.begunAgain b).redoesHeld toAll).link.rollHeld = [] := by
  cases toAll with
  | true => exact redoesHeld_nothing (.inl rfl)
  | false =>
    cases hk : s.card.letter with
    | none => exact redoesHeld_nothing (.inr hk)
    | some k =>
      rw [redoesHeld_redos hk hs, hp]
      rfl

theorem calm.roll_due (h : s.calm) (hawake : s.power.state ≠ .sleep) : s.clock.timers.roll.due = false :=
  (h.resolve_left hawake) .roll (by decide)

end State

/-- Settles O16: each block's handling in turn, then the slots freed one by one, then the Redos and the new roll call. -/
theorem restartBeginsANewRollCall : Obligations.RestartBeginsANewRollCall := by
  intro toAll b s
  refine ⟨fun hcalm h => State.exec_restart_disregarded hcalm h, fun hawake _ _ hcalm => exec_afterExpiries rfl hawake hcalm,
    fun hawake h6 h7 hcalm => ?_⟩
  have hs : s.self ≠ 6#3 ∧ s.self ≠ 7#3 := ⟨h6, h7⟩
  have htaken := State.restart_taken toAll b hawake hs (State.calm.roll_due hcalm hawake)
  refine ⟨_, State.exec_restart_taken hcalm hawake hs, ?_⟩
  rw [htaken]
  refine ⟨rfl, s.begunAgain_cancels b, fun h => State.redoesHeld_nothing h, fun hok => hok.begunAgain_owed, ?_, ?_, ?_⟩
  · intro e p x hok hx ht he hp
    have hn : e.shot ∈ s.unreadShots := hok.mem_unreadShots.mpr (State.keepsShot_eq_false.mpr ⟨x, hx, ht⟩)
    exact State.begunAgain_keepsVoids (State.unreadGone_voids b hn he hp) rfl
  · intro hsize hok
    have hkept := State.begunAgain_sameSize hsize
    have hvalid : (s.keptAgain b).dark.valid = s.dark.valid := by
      rw [State.keptAgain_eq, (State.unreadGone_leaves b s).same]
      rfl
    refine ⟨(congrArg (·.dark.valid) hkept).trans hvalid, ?_, fun w hw hk hkeep => ?_, fun hnodup => ⟨?_, fun k hall hk => ?_⟩⟩
    · rw [hkept]
      exact hok.keptAgain_restarted b
    · rw [hkept]
      exact hok.unreadGone_keeps b hw hk hkeep
    · rw [hkept]
      exact hok.keptAgain_placements b hnodup
    · subst hall
      refine (State.redoesHeld_redos hk hs).trans ?_
      rw [hkept, hok.keptAgain_placements b hnodup]
      exact State.redosOf_begunAgain k s
  · intro hb hsize hok
    subst hb
    have hresized := State.begunAgain_resized hsize
    obtain ⟨hroster, hslots⟩ := hok.keptAgain_resized
    rw [← hresized] at hroster hslots
    refine ⟨hroster, hslots, (congrArg (·.dark.valid) hresized).trans (State.resized_valid s), fun hnodup hentries => ?_,
      fun e p x hx he hr hentry hp => ?_⟩
    · have hnone : (s.begunAgain true).card.placements = [] :=
        (congrArg (·.card.placements) hresized).trans (hok.resized_placements hnodup hentries)
      exact ⟨hnone, State.redoesHeld_unplaced hs hnone⟩
    · have hkeep : s.keepsShot e.shot = true := by
        rw [← Bool.not_eq_false, State.keepsShot_eq_false]
        rintro ⟨y, hy, ht⟩
        cases Option.some.inj (hx.symm.trans hy)
        exact ht.elim he hr
      rw [hresized]
      exact hok.resized_voids hkeep hentry hp

end Sys2Proof.Machine
end
